-- ==== Sys2Proof/Word.lean ====
section
/-!
DEFINITION. The machine words of the AS9740 and the plainest names over them (R4, R6): nothing in this
file depends on the state.
-/

namespace Sys2Proof

/-- A word is 72 data bits (R6). -/
abbrev Word := BitVec 72

/-- One octet. -/
abbrev Octet := BitVec 8

/-- A run of octets, first octet first. -/
abbrev Octets := List Octet

/-- One stored word of SHM, TBM, HIST or engine local memory: data [71:0], check bits [79:72], valid bit [80] (R163). -/
abbrev PhysWord := BitVec 81

/-- A 72-bit time: seconds in [71:32], binary fraction in [31:0] (00_scope, Numbers, bits and words; R486). -/
abbrev Time72 := BitVec 72

/-- A node's EUI-64, or a device's. -/
abbrev Eui := BitVec 64

/-- A sparse table: entries with strictly rising keys; an unlisted key reads as the table's default. -/
abbrev SMap (α : Type) := List (Nat × α)

/-- Host context HC0 to HC3. -/
abbrev Hc := Fin 4

/-- Band code: 0 L, 1 M, 2 H (R212). -/
abbrev Band := Fin 3

/-- Chain code: 0 to 3 are L0 to L3, 4 to 7 M0 to M3, 8 to 11 H0 to H3 (R212). -/
abbrev Chain := Fin 12

/-- Forwarding pipeline 0 or 1 (R377). -/
abbrev Pipe := Fin 2

/-- Ethernet port: 0 XG0, 1 XG1, 2 GE0, 3 GE1 (R542). -/
abbrev Port := Fin 4

end Sys2Proof
end

