-- ==== Sys2Proof/Syntax.lean ====
section
/-!
DEFINITION. The commands and events of the device: one constructor of `Instr` for each row of
spec/opcode_table.json, in the table's order, with the operands the row's rule gives it. Every row's first
operand `dt` is the number of TIME clock cycles (R63, R486) that pass between the step before and this one.
A host command's row names only its host context: the packet itself is read from the context's SQ in SHM
(R112, R116).
-/

namespace Sys2Proof

/-- A physical host attachment: a PCIe endpoint (0 PCIE_A, 1 PCIE_B) or an HSPI port (ch. 04, Attachments). -/
inductive Att where
  | pcie (e : Fin 2)
  | hspi (p : Fin 4)
deriving DecidableEq, Repr

/-- One request presented at an arbiter in the cycle of a decision (R197, R199): the requester code, the
words of its burst, and for a decoder whether it asks for a header block (rank 0) or a payload codeword (rank 1). -/
structure ArbReq where
  code : Nat
  burst : Nat
  header : Bool
deriving DecidableEq, Repr

/-- What the built-in tests and the flash discovery of a start find (R81 steps 2 and 5, R15, R94, R482, R519). -/
structure StartObs where
  /-- engine sites that fail their test -/
  sitesFailed : List Nat
  /-- failing rows found by the memory test, as bank number and row (R183) -/
  rowsFailed : List (Nat × Nat)
  /-- FLASH_A answers SFDP with 16 MiB or more and a 4 KiB erase -/
  sfdpOkA : Bool
  /-- FLASH_B is present and answers likewise -/
  sfdpOkB : Bool
  /-- the entropy source passes its start-up test -/
  noiseOk : Bool
deriving DecidableEq, Repr

/-- What a demodulator finds at a lane's header check, one form for each kind of PHY header (R276, R307, R321). -/
inductive HeaderObs where
  | lrc (syndromeZero : Bool) (header : BitVec 48)
  | fsk (sfdFound : Bool) (length : Nat) (fcs4 whitened : Bool)
  | fskModeSwitch (checkOk : Bool) (rateIndex : Nat) (ppduEnd : Nat)
  | ofdm (hcsOk : Bool) (mcs : Nat) (length : Nat) (fcs4 : Bool)
  | oqpsk (sfdFound : Bool) (reservedZero : Bool) (length : Nat)
deriving DecidableEq, Repr

/-- HIST reads of a demodulation context since the row before for its lane: those that a correction mended, and those that delivered
zeros for an uncorrectable word (R176). -/
structure HistReads where
  corrected : Nat
  bad : Nat
deriving DecidableEq, Repr

/-- A channel estimate of one antenna, real and imaginary part, and its noise power (R278). -/
structure AntEst where
  re : Int
  im : Int
  noise : Nat
deriving DecidableEq, Repr

/-- What the radio measures of a frame by its end, for the receive metadata of R293. -/
structure RxObs where
  /-- ring instant of the frame's end with the part of an instant after it in 1/65536, and the PSDU octets that came through no
  decoder since the last codeword -/
  endInstant : Nat
  endFrac : BitVec 16
  rest : Octets
  /-- ring instant at which the PHY reference point lies, and the part of an instant after it in 1/65536 (R294, R327) -/
  refInstant : Nat
  refFrac : BitVec 16
  rssi0 : BitVec 8
  rssi1 : BitVec 8
  rssi2 : BitVec 8
  rssi3 : BitVec 8
  snr : BitVec 10
  foff : BitVec 20
deriving DecidableEq, Repr

/-- One constructor per row of spec/opcode_table.json. -/
inductive Instr where
  /-- POWER_ON_RESET (R49): A monitored rail stays below its threshold for 2 µs or more; PA biases turn off and the device is held in cold reset until the rails recover. -/
  | powerOnReset (dt : Nat) (cut : Nat)
  /-- RST_N_RESET (R74): RST_N is held low for 10 µs or more and the device takes a cold reset. -/
  | rstNReset (dt : Nat)
  /-- RESET_RELEASE (R43): The reset ends at the rising edge of RST_N or the internal release; the straps are sampled and the start begins. -/
  | resetRelease (dt : Nat) (ir : BitVec 5) (cells : BitVec 159) (gpio : BitVec 32) (rails : Nat)
  /-- TAP_RESET_HOLD_RELEASE (R44): The TAP instruction becomes BYPASS or IDCODE while the device is held in reset by EXTEST, CLAMP or HIGHZ; the straps are sampled and reset ends. -/
  | tapResetHoldRelease (dt : Nat) (ir : BitVec 5) (gpio : BitVec 32)
  /-- TEMP_SENSOR_READING (R62): The on-die sensors give a new junction temperature reading. -/
  | tempSensorReading (dt : Nat) (t0 t1 t2 t3 : BitVec 12)
  /-- THERMAL_TRIP (R62): The maximum reading stays at 120 °C or above for 1 ms; PA biases turn off and the device enters reset. -/
  | thermalTrip (dt : Nat)
  /-- THERMAL_TRIP_RELEASE (R62): The reading falls below 100 °C and the device starts as after a power-on reset, with thermal trip as the cause. -/
  | thermalTripRelease (dt : Nat) (t0 t1 t2 t3 : BitVec 12) (gpio : BitVec 32)
  /-- CLOCK_FAULT (R70): SYSPLL loses lock for 10 µs or more and the device takes a cold reset. -/
  | clockFault (dt : Nat)
  /-- START_TIMEOUT (R87): The start timer expires before EV_READY, causing a cold reset or, on a repeat, the start-failure state. -/
  | startTimeout (dt : Nat)
  /-- WATCHDOG_BITE (R78): The 250 ms watchdog count expires without kicks from both management cores and the device takes a warm restart. -/
  | watchdogBite (dt : Nat)
  /-- WDT_KICK (R78): A management core writes its watchdog kick register, and the count restarts once both cores have kicked. -/
  | wdtKick (dt : Nat) (core : Fin 2)
  /-- POISON_TRAP (R173): An engine load meets a poisoned word; the engine halts and a management core requests a warm or cold restart. -/
  | poisonTrap (dt : Nat) (engine : Fin 26) (addr : BitVec 23)
  /-- PCIE_PERST (R80): PCIE_x_PERST_N goes low, resetting that endpoint's PCIe layers, which counts as link loss. -/
  | pciePerst (dt : Nat) (e : Fin 2)
  /-- PCIE_LINK_DOWN (R104): The PCIe link of a bound context goes down, which is link loss. -/
  | pcieLinkDown (dt : Nat) (e : Fin 2)
  /-- HSPI_INACTIVITY_TIMEOUT (R108): host.hspi.idle expires on a bound HSPI port, which is link loss. -/
  | hspiInactivityTimeout (dt : Nat) (p : Fin 4)
  /-- TAP_RESET (R74): TRST_N goes low and resets the JTAG TAP only. -/
  | tapReset (dt : Nat)
  /-- ENG_DEBUG_STATUS (R45): An ENG_DEBUG status operation starts at Update-DR and reports the named site. -/
  | engDebugStatus (dt : Nat) (site : BitVec 5)
  /-- ENG_DEBUG_HALT (R45): An ENG_DEBUG operation halts the named engine site. -/
  | engDebugHalt (dt : Nat) (site : BitVec 5)
  /-- ENG_DEBUG_RESUME (R45): An ENG_DEBUG operation resumes the named engine site. -/
  | engDebugResume (dt : Nat) (site : BitVec 5)
  /-- ENG_DEBUG_SINGLE_STEP (R45): An ENG_DEBUG operation single-steps the named engine site. -/
  | engDebugSingleStep (dt : Nat) (site : BitVec 5)
  /-- ENG_DEBUG_READ_LOCAL (R45): An ENG_DEBUG operation reads a word of the site's local memory. -/
  | engDebugReadLocal (dt : Nat) (site : BitVec 5) (addr : BitVec 14)
  /-- ENG_DEBUG_WRITE_LOCAL (R45): An ENG_DEBUG operation writes a word of the site's local memory. -/
  | engDebugWriteLocal (dt : Nat) (site : BitVec 5) (addr : BitVec 14) (data : Word)
  /-- ENG_DEBUG_READ_REGISTER (R45): An ENG_DEBUG operation reads an engine register. -/
  | engDebugReadRegister (dt : Nat) (site : BitVec 5) (reg : BitVec 14)
  /-- ENG_DEBUG_WRITE_REGISTER (R45): An ENG_DEBUG operation writes an engine register. -/
  | engDebugWriteRegister (dt : Nat) (site : BitVec 5) (reg : BitVec 14) (data : Word)
  /-- REF_GLITCH (R66): A REF_IN edge arrives outside 75–125 % of the nominal period and is discarded and counted; eight in 1 ms declare loss. -/
  | refGlitch (dt : Nat)
  /-- REF_PRESENCE_LOSS (R66): The loss timer sees no REF_IN rising edge for 1 µs and declares loss. -/
  | refPresenceLoss (dt : Nat)
  /-- REF_RANGE_WINDOW (R66): A 1 ms range-check window ends, and a deviation beyond ±100 ppm declares loss. -/
  | refRangeWindow (dt : Nat) (ppm : Int)
  /-- REF_REQUALIFIED (R68): REF_IN passes all checks for ref.requal.time, and the cleaner begins slewing back to lock. -/
  | refRequalified (dt : Nat)
  /-- EV_REF_RESTORED (R68): The slew ends, the cleaner is locked again and EV_REF_RESTORED is raised. -/
  | evRefRestored (dt : Nat)
  /-- EV_REF_HOLDOVER_LIMIT (R69): Holdover lasts ref.holdover.limit; the event is raised and transmit items at their commit point then fail. -/
  | evRefHoldoverLimit (dt : Nat)
  /-- PPS_EDGE_CAPTURE (R71): An edge on PPS_IN is captured on the TIME clock. -/
  | ppsEdgeCapture (dt : Nat) (rising : Bool)
  /-- PPS_EDGE_JUDGED (R71): pps.min.width after a captured edge, the edge is judged filtered, rejected or accepted, and the PPS state advances. -/
  | ppsEdgeJudged (dt : Nat)
  /-- PPS_LOSS_TIMEOUT (R72): No pulse is accepted for 1.5 s; the PPS state falls back and EV_PPS_LOST is raised from accepting. -/
  | ppsLossTimeout (dt : Nat)
  /-- HSPI_WORD_READ (R107): An HSPI WORD_READ transaction fetches SHM words and returns them with STATUS and RCRC. -/
  | hspiWordRead (dt : Nat) (p : Fin 4) (header : Octets) (inTime : Bool)
  /-- HSPI_WORD_WRITE (R106): An HSPI WORD_WRITE transaction writes full SHM words after DCRC passes. -/
  | hspiWordWrite (dt : Nat) (p : Fin 4) (header data : Octets) (dcrc : BitVec 16) (inTime : Bool)
  /-- HSPI_REG_READ (R105): An HSPI REG_READ transaction reads direct registers. -/
  | hspiRegRead (dt : Nat) (p : Fin 4) (header : Octets) (inTime : Bool)
  /-- HSPI_REG_WRITE (R109): An HSPI REG_WRITE transaction writes direct registers with the same effect as BAR0. -/
  | hspiRegWrite (dt : Nat) (p : Fin 4) (header data : Octets) (dcrc : BitVec 16) (inTime : Bool)
  /-- HSPI_NOP (R105): An HSPI NOP transaction keeps the port attached. -/
  | hspiNop (dt : Nat) (p : Fin 4) (header : Octets)
  /-- HSPI_ABORT (R106): CS_N rises before a transaction ends; nothing is performed and HSPI_ABORT is counted. -/
  | hspiAbort (dt : Nat) (p : Fin 4)
  /-- BAR2_READ (R102): A PCIe read of SHM through BAR2 returns the padded word, a poisoned TLP, or zeros. -/
  | bar2Read (dt : Nat) (e : Fin 2) (word : BitVec 21)
  /-- BAR2_WRITE (R23): A PCIe write to SHM through BAR2 is a full-word write or a read-modify-write. -/
  | bar2Write (dt : Nat) (e : Fin 2) (word : BitVec 21) (enables : BitVec 16) (bytes : BitVec 128) (poisoned : Bool)
  /-- SQ_DOORBELL (R113): The host writes HCn_SQ_TAIL, publishing packets for the interpreter. -/
  | sqDoorbell (dt : Nat) (att : Att) (hc : Hc) (value : BitVec 32)
  /-- CQ_HEAD_WRITE (R101): The host advances HCn_CQ_HEAD, freeing CQ room and rearming MSI-X vector 0. -/
  | cqHeadWrite (dt : Nat) (att : Att) (hc : Hc) (value : BitVec 32)
  /-- EQ_HEAD_WRITE (R158): The host advances HCn_EQ_HEAD, freeing EQ room and ending an overflow episode. -/
  | eqHeadWrite (dt : Nat) (att : Att) (hc : Hc) (value : BitVec 32)
  /-- HC_ATTACH (R134): The host writes 1 to HCn_CTX.ATTACH and a DETACHED bound context becomes ATTACHED. -/
  | hcAttach (dt : Nat) (att : Att) (hc : Hc) (value : BitVec 32)
  /-- HC_TIME_SNAPSHOT (R142): A read of HCn_TIME0 returns the low time bits and latches the upper bits for that context. -/
  | hcTimeSnapshot (dt : Nat) (att : Att) (hc : Hc)
  /-- IRQ_LATCH_CLEAR (R144): The holder of IRQ_Nn writes 1s to IRQn_LATCHk, clearing latches and releasing the pin when all are clear. -/
  | irqLatchClear (dt : Nat) (att : Att) (pin : Fin 4) (k : Fin 8) (value : BitVec 32)
  /-- GPIO_OUT_WRITE (R143): A write to GPIO_OUT changes the output levels of the writer's held GPIO pins. -/
  | gpioOutWrite (dt : Nat) (att : Att) (value : BitVec 32)
  /-- GPIO_OE_WRITE (R143): A write to GPIO_OE changes the output enables of the writer's held GPIO pins. -/
  | gpioOeWrite (dt : Nat) (att : Att) (value : BitVec 32)
  /-- HC_DB_IGNORED_READ (R134): A read of HCn_DB_IGNORED returns the count of ignored doorbells and clears it. -/
  | hcDbIgnoredRead (dt : Nat) (att : Att) (hc : Hc)
  /-- HC_EQ_LOST_READ (R158): A read of HCn_EQ_LOST returns the count of lost event entries and clears it. -/
  | hcEqLostRead (dt : Nat) (att : Att) (hc : Hc)
  /-- REGISTER_WRITE (R139): A write to a direct register without behaviour of its own is stored or ignored per its access and binding. -/
  | registerWrite (dt : Nat) (att : Att) (offset : BitVec 16) (value : BitVec 32)
  /-- CQ_COALESCE_EXPIRY (R101): host.cq.coalesce elapses after a completion and MSI-X vector 0 is signalled. -/
  | cqCoalesceExpiry (dt : Nat) (hc : Hc)
  /-- LOCK_LEASE_EXPIRY (R130): A lease expires; the context's locks and transaction are released and EV_LOCK_BROKEN is sent. -/
  | lockLeaseExpiry (dt : Nat) (hc : Hc)
  /-- NOP (R122): Command NOP completes with no effect. -/
  | nop (dt : Nat) (hc : Hc)
  /-- DEVICE_INFO (R576): Command DEVICE_INFO returns identity, status and the start record. -/
  | deviceInfo (dt : Nat) (hc : Hc)
  /-- DEVICE_RESTART (R74): Command DEVICE_RESTART requests a firmware warm or cold restart. -/
  | deviceRestart (dt : Nat) (hc : Hc)
  /-- HOST_RESET (R133): Command HOST_RESET resets the issuing host context. -/
  | hostReset (dt : Nat) (hc : Hc)
  /-- OTP_READ (R577): Command OTP_READ returns a run of fuse bits, with ROOT_KEY as zero. -/
  | otpRead (dt : Nat) (hc : Hc)
  /-- RESOURCE_CLAIM (R126): Command RESOURCE_CLAIM gives a free resource to the context or reports its holder. -/
  | resourceClaim (dt : Nat) (hc : Hc)
  /-- RESOURCE_RELEASE (R161): Command RESOURCE_RELEASE frees a held resource, detaching a pin's function. -/
  | resourceRelease (dt : Nat) (hc : Hc)
  /-- RESOURCE_QUERY (R124): Command RESOURCE_QUERY returns the holder word of a resource. -/
  | resourceQuery (dt : Nat) (hc : Hc)
  /-- LOCK_ACQUIRE (R127): Command LOCK_ACQUIRE takes every group of its mask with a lease, or none. -/
  | lockAcquire (dt : Nat) (hc : Hc)
  /-- LOCK_RELEASE (R127): Command LOCK_RELEASE releases the named groups held by the context. -/
  | lockRelease (dt : Nat) (hc : Hc)
  /-- PARAM_GET (R147): Command PARAM_GET returns stored values with PENDING and UNASSIGNED flags. -/
  | paramGet (dt : Nat) (hc : Hc)
  /-- PARAM_SET (R129): Command PARAM_SET stores parameter values, or stages them into the open transaction. -/
  | paramSet (dt : Nat) (hc : Hc)
  /-- TXN_BEGIN (R131): Command TXN_BEGIN opens the context's parameter transaction. -/
  | txnBegin (dt : Nat) (hc : Hc)
  /-- TXN_COMMIT (R132): Command TXN_COMMIT stores every staged value at once or is refused on a lock. -/
  | txnCommit (dt : Nat) (hc : Hc)
  /-- TXN_ABORT (R122): Command TXN_ABORT discards the context's open transaction. -/
  | txnAbort (dt : Nat) (hc : Hc)
  /-- EVENT_ROUTE (R155): Command EVENT_ROUTE sets one route of one event source to the EQ or an IRQ pin. -/
  | eventRoute (dt : Nat) (hc : Hc)
  /-- CHAIN_CONFIG (R254): Command CHAIN_CONFIG queries, enables, disables or clears protection of chains. -/
  | chainConfig (dt : Nat) (hc : Hc)
  /-- TUNE (R238): Command TUNE starts an aerial tuner search on a chain. -/
  | tune (dt : Nat) (hc : Hc)
  /-- CAL_RUN (R256): Command CAL_RUN calibrates synthesiser grid points of a chain. -/
  | calRun (dt : Nat) (hc : Hc)
  /-- SLOTFRAME_SET (R342): Command SLOTFRAME_SET stores slotframe records as one transaction. -/
  | slotframeSet (dt : Nat) (hc : Hc)
  /-- CELL_WRITE (R344): Command CELL_WRITE writes cells of the cell table. -/
  | cellWrite (dt : Nat) (hc : Hc)
  /-- TX_SUBMIT (R365): Command TX_SUBMIT queues a host transmit item. -/
  | txSubmit (dt : Nat) (hc : Hc)
  /-- TX_CANCEL (R368): Command TX_CANCEL cancels the oldest queued or held item with a tag. -/
  | txCancel (dt : Nat) (hc : Hc)
  /-- FRAME_INJECT (R418): Command FRAME_INJECT injects an IPv6 packet into a forwarding pipeline. -/
  | frameInject (dt : Nat) (hc : Hc)
  /-- BUF_POST (R412): Command BUF_POST posts a receive buffer for exception frames. -/
  | bufPost (dt : Nat) (hc : Hc)
  /-- NODE_ADD (R414): Command NODE_ADD adds a static entry or sets a node's route. -/
  | nodeAdd (dt : Nat) (hc : Hc)
  /-- NODE_DELETE (R415): Command NODE_DELETE removes a key from both tables and victim registers. -/
  | nodeDelete (dt : Nat) (hc : Hc)
  /-- NODE_READ (R416): Command NODE_READ returns a node's entries from both tables. -/
  | nodeRead (dt : Nat) (hc : Hc)
  /-- TABLE_REHASH (R389): Command TABLE_REHASH starts a live rehash of one node table under new seeds. -/
  | tableRehash (dt : Nat) (hc : Hc)
  /-- FLOW_CONFIG (R426): Command FLOW_CONFIG stores flow records. -/
  | flowConfig (dt : Nat) (hc : Hc)
  /-- FLOW_STATS (R444): Command FLOW_STATS returns a flow's statistics, optionally clearing them. -/
  | flowStats (dt : Nat) (hc : Hc)
  /-- KEY_LOAD (R479): Command KEY_LOAD loads a wrapped blob into a blob-sourced domain. -/
  | keyLoad (dt : Nat) (hc : Hc)
  /-- KEY_INVALIDATE (R480): Command KEY_INVALIDATE raises a key's epoch and makes it unusable for good. -/
  | keyInvalidate (dt : Nat) (hc : Hc)
  /-- KEY_UPDATE (R474): Command KEY_UPDATE checks a signed key-update message and writes or revokes a key-store record. -/
  | keyUpdate (dt : Nat) (hc : Hc)
  /-- ATTEST (R481): Command ATTEST returns a signed attestation response. -/
  | attest (dt : Nat) (hc : Hc)
  /-- TIME_SET (R490): Command TIME_SET steps an UNSET timebase, at once or at the next delivered pulse. -/
  | timeSet (dt : Nat) (hc : Hc)
  /-- TIME_RATE (R491): Command TIME_RATE sets the timebase rate when the host owns it. -/
  | timeRate (dt : Nat) (hc : Hc)
  /-- TIME_RESET (R492): Command TIME_RESET makes the timebase UNSET and disarms time events. -/
  | timeReset (dt : Nat) (hc : Hc)
  /-- TIMER_CONFIG (R510): Command TIMER_CONFIG configures a countdown timer. -/
  | timerConfig (dt : Nat) (hc : Hc)
  /-- TEU_CONFIG (R505): Command TEU_CONFIG arms or disarms a time-event unit. -/
  | teuConfig (dt : Nat) (hc : Hc)
  /-- UPDATE_BEGIN (R526): Command UPDATE_BEGIN checks a manifest header and opens an update session. -/
  | updateBegin (dt : Nat) (hc : Hc)
  /-- UPDATE_DATA (R528): Command UPDATE_DATA delivers session stream octets at the expected position. -/
  | updateData (dt : Nat) (hc : Hc)
  /-- UPDATE_END (R529): Command UPDATE_END verifies and stages the set and closes the session. -/
  | updateEnd (dt : Nat) (hc : Hc)
  /-- UPDATE_CONFIRM (R534): Command UPDATE_CONFIRM confirms the set on probation. -/
  | updateConfirm (dt : Nat) (hc : Hc)
  /-- UPDATE_ABORT (R530): Command UPDATE_ABORT ends the session without staging. -/
  | updateAbort (dt : Nat) (hc : Hc)
  /-- MEM_READ (R575): Command MEM_READ returns a run of words of the word address space. -/
  | memRead (dt : Nat) (hc : Hc)
  /-- MEM_WRITE (R575): Command MEM_WRITE writes a run of full words. -/
  | memWrite (dt : Nat) (hc : Hc)
  /-- COUNTER_READ (R195): Command COUNTER_READ returns runs of counters, clearing RC counters. -/
  | counterRead (dt : Nat) (hc : Hc)
  /-- ERRLOG_READ (R178): Command ERRLOG_READ returns the error log and empties it. -/
  | errlogRead (dt : Nat) (hc : Hc)
  /-- PAIR_ROLE (R559): Command PAIR_ROLE yields, takes or forces the active role of a pair. -/
  | pairRole (dt : Nat) (hc : Hc)
  /-- PAIR_STATUS (R561): Command PAIR_STATUS returns the pair state. -/
  | pairStatus (dt : Nat) (hc : Hc)
  /-- OPCODE_REFUSED (R122): A packet with an opcode absent from the catalogue is consumed and completed with ST_OPCODE. -/
  | opcodeRefused (dt : Nat) (hc : Hc)
  /-- COMMAND_WORK_END (R136): The work of a † command ends; its result is written to its result space and its completion is copied to the CQ. -/
  | commandWorkEnd (dt : Nat) (hc : Hc) (flashOk : Bool)
  /-- EQ_ENTRY_WRITE (R153): An event entry is written to a context's EQ and its MSI-X vector is signalled. -/
  | eqEntryWrite (dt : Nat) (hc : Hc)
  /-- COALESCE_WINDOW_END (R157): A route's coalescing window ends and a pending entry is written, opening the next window. -/
  | coalesceWindowEnd (dt : Nat) (hc : Hc) (source : BitVec 8)
  /-- SCRUB_PASS_START (R180): A scrub pass starts at the later of the previous pass's end and its start plus mem.scrub.pass. -/
  | scrubPassStart (dt : Nat)
  /-- SCRUB_ROW (R179): The scrubber reads one row, writes back corrections and poisons uncorrectable words. -/
  | scrubRow (dt : Nat)
  /-- EV_ROW_RETIRED (R186): After the NVS record, the row is copied to the spare, switched, and EV_ROW_RETIRED is raised. -/
  | evRowRetired (dt : Nat)
  /-- FRAME_SEGMENT_WRITE (R289): A demodulation context writes a frame segment to its band's Frame FIFO. -/
  | frameSegmentWrite (dt : Nat) (band : Band) (ctx : Fin 144) (kind : Fin 4) (words : Nat)
  /-- FIFO_BANK_SWAP (R191): The draining bank is empty and the filling bank is full or flushed, so the banks swap. -/
  | fifoBankSwap (dt : Nat) (f : Fin 4)
  /-- DRAIN_SEGMENT (R290): The drain takes one segment from the draining bank into a receive buffer. -/
  | drainSegment (dt : Nat) (band : Band) (flips : List (Nat × BitVec 80))
  /-- DRAIN_RESUME (R291): A receive buffer frees and the drain stopped for want of one resumes. -/
  | drainResume (dt : Nat) (band : Band)
  /-- ARBITER_DECISION (R198): An arbiter with a free server grants the winning request and parks the losers. -/
  | arbiterDecision (dt : Nat) (a : Fin 52) (presented : List ArbReq) (releases : List Nat) (sub : Nat)
  /-- ENGINE_HEARTBEAT (R210): An engine completes a pass of its service loop and advances its heartbeat word. -/
  | engineHeartbeat (dt : Nat) (engine : Fin 26)
  /-- BELLOWS_CHOICE (R219): Bellows re-evaluates the time to a chain's next event and chooses its power state and engine gating. -/
  | bellowsChoice (dt : Nat) (chain : Chain)
  /-- CHAIN_TRANSITION_END (R217): A chain completes a state transition and any change requested meanwhile begins. -/
  | chainTransitionEnd (dt : Nat) (chain : Chain)
  /-- CAL_POINT_START (R226): Background calibration takes one chain through CAL for the next grid point in order. -/
  | calPointStart (dt : Nat) (chain : Chain)
  /-- CAL_END (R225): A full calibration ends, writing the entry VALID or FAILED. -/
  | calEnd (dt : Nat) (chain : Chain) (locked : Bool) (vcoBand : BitVec 6) (cap kv : BitVec 8) (loI loQ : BitVec 12)
  /-- EV_SYNTH_UNLOCK (R228): A synthesiser loses lock for 1 µs; the entry becomes INCOMPLETE and transmission stops. -/
  | evSynthUnlock (dt : Nat) (chain : Chain)
  /-- TX_COMMIT (R229): At the commit point, the transmit ME checks the item, reads its frame, gets its key and plans its start. -/
  | txCommit (dt : Nat) (item : Nat)
  /-- QUENCH_PA_REQUEST (R245): At the start of a transition into TX, Quench checks channel, dwell and duty, then clamps and grants or refuses. -/
  | quenchPaRequest (dt : Nat) (chain : Chain)
  /-- QUENCH_CUT (R247): A granted transmission reaches its dwell or the duty allowance and Quench cuts it. -/
  | quenchCut (dt : Nat) (chain : Chain)
  /-- QUENCH_BIN_ROLL (R248): A duty bin of WINDOW ÷ 64 completes and the oldest bin ages out. -/
  | quenchBinRoll (dt : Nat)
  /-- RETURN_LOSS_READING (R235): The detectors give a return-loss reading during TX. -/
  | returnLossReading (dt : Nat) (chain : Chain) (rl : BitVec 8) (forwardQdbm : Int)
  /-- PDET_STEP (R234): Every 16 µs the PDET loop steps the PA drive towards the set power. -/
  | pdetStep (dt : Nat) (chain : Chain) (sample : BitVec 12)
  /-- TX_TIMEOUT (R240): A PA has been on for rad.tx.timeout and the transmission stops. -/
  | txTimeout (dt : Nat) (chain : Chain)
  /-- TX_RAMP_DOWN_END (R236): A transmission's ramp-down ends; return-loss counts, duty and mask evaluation are updated. -/
  | txRampDownEnd (dt : Nat) (chain : Chain) (pointLevels : List Int)
  /-- TUNE_PROBE_START (R239): At a quiet slot boundary, TUNE starts its probe and search. -/
  | tuneProbeStart (dt : Nat) (chain : Chain)
  /-- TUNE_NO_SLOT (R239): No quiet slot comes within rad.tune.wait and TUNE completes ST_TUNE_NO_SLOT. -/
  | tuneNoSlot (dt : Nat) (chain : Chain)
  /-- TUNE_SEARCH_END (R238): The tuner search ends and the best codes are stored. -/
  | tuneSearchEnd (dt : Nat) (chain : Chain) (readings : List (BitVec 8))
  /-- ACK_WAIT_EXPIRY (R366): mac.ack.wait closes without an acknowledgement; the item retries or completes ST_NO_ACK. -/
  | ackWaitExpiry (dt : Nat) (item : Nat)
  /-- AGC_WINDOW_END (R267): A chain's 1,024-sample gain window ends and its analog gain may step. -/
  | agcWindowEnd (dt : Nat) (chain : Chain) (peak : Int) (fullScale : Bool)
  /-- LANE_DETECTION (R274): A detector finds a preamble; a lane locks or a candidate mark is recorded. -/
  | laneDetection (dt : Nat) (band : Band) (ch : Fin 64) (mark detect : Nat) (metric : BitVec 10) (foff level : Int)
  /-- CONTEXT_ASSIGN (R286): A free demodulation context is assigned to the oldest LOCKED lane that fits. -/
  | contextAssign (dt : Nat)
  /-- REWIND_FREEZE (R285): A rewinding lane reaches the mark's detection point, freezes gain and frequency and enters DEMOD. -/
  | rewindFreeze (dt : Nat) (band : Band) (ch : Fin 64) (lane : Fin 2) (foff level : Int)
  /-- HEADER_CHECK (R276): A lane reaches its header check, which passes or ends the lane. -/
  | headerCheck (dt : Nat) (band : Band) (ch : Fin 64) (lane : Fin 2) (obs : HeaderObs) (endAt : Nat) (ends : List Nat) (est : List (List AntEst)) (hist : HistReads)
  /-- CODEWORD_DECODED (R288): A decoder finishes a codeword, which converges or ends the frame. -/
  | codewordDecoded (dt : Nat) (band : Band) (ch : Fin 64) (lane : Fin 2) (header converged : Bool) (iterations corrected : Nat) (octets : Octets) (hist : HistReads)
  /-- FRAME_END (R281): A frame ends complete or on a CRC failure, and the last or abandon segment is written. -/
  | frameEnd (dt : Nat) (band : Band) (ch : Fin 64) (lane : Fin 2) (obs : RxObs) (hist : HistReads)
  /-- LANE_OVERRUN (R281): The ring write pointer overwrites the instant a lane reads next and the frame ends. -/
  | laneOverrun (dt : Nat) (band : Band) (ch : Fin 64) (lane : Fin 2)
  /-- MARK_OVERTAKEN (R284): The write pointer reaches a mark's pre-roll plus the ring length and the mark is dropped. -/
  | markOvertaken (dt : Nat) (band : Band) (ch : Fin 64)
  /-- SLOT_BOUNDARY (R341): A base slot begins and the slots and cells of the running slotframes advance. -/
  | slotBoundary (dt : Nat)
  /-- SCHED_DECISION (R437): The band scheduler ranks candidates for a slot and makes frames ELIGIBLE. -/
  | schedDecision (dt : Nat) (band : Band)
  /-- RX_FRAME_PROCESS (R353): A receive ME parses, checks replay, authenticates, decrypts and timestamps a frame and decides its acknowledgement. -/
  | rxFrameProcess (dt : Nat) (engine : Fin 4) (ends : Bool)
  /-- ITEM_EXPIRY (R366): A QUEUED or HELD item reaches the end of its lifetime and completes. -/
  | itemExpiry (dt : Nat) (item : Nat)
  /-- BEACON_WATCH_SLOT_END (R370): A watched beacon slot ends on a standby and counts as heard or missed. -/
  | beaconWatchSlotEnd (dt : Nat)
  /-- EV_PAIR_TAKEOVER (R370): After the third miss, the standby becomes active at the next start of the watched slotframe. -/
  | evPairTakeover (dt : Nat)
  /-- PAIR_YIELD (R371): An active preferred unit that heard the partner's beacon becomes standby at the next watched slotframe start. -/
  | pairYield (dt : Nat)
  /-- PAIR_REVERT_AGREE (R372): The revert hold passes on a fit preferred standby and a handover ASN is agreed. -/
  | pairRevertAgree (dt : Nat)
  /-- EV_PAIR_REVERT (R372): The agreed handover ASN arrives and the roles change. -/
  | evPairRevert (dt : Nat)
  /-- UPLINK_FRAME (R378): A pipeline takes an uplink frame, reassembles, decompresses, checks, learns and disposes of it. -/
  | uplinkFrame (dt : Nat) (pipe : Pipe)
  /-- REASM_TIMEOUT (R406): A reassembly context is not completed within its timeout and is freed. -/
  | reasmTimeout (dt : Nat) (pipe : Pipe) (ctx : Fin 512)
  /-- LEARN_CREATE (R395): The learning unit creates a LEARNED entry for a queued origin. -/
  | learnCreate (dt : Nat) (pipe : Pipe)
  /-- LEARN_BUCKET_REFILL (R396): A learning bucket refills at fwd.learn.rate up to fwd.learn.burst. -/
  | learnBucketRefill (dt : Nat) (pipe : Pipe) (band : Band)
  /-- AGEING_SWEEP (R394): The periodic sweep ages learned entries, removes expired ones and guards T_C. -/
  | ageingSweep (dt : Nat) (pipe : Pipe)
  /-- EV_TABLE_REHASH_DONE (R389): A rehash ends its last phase; the move map is cleared and TABLE_REHASH completes. -/
  | evTableRehashDone (dt : Nat) (pipe : Pipe)
  /-- DOWNLINK_PACKET (R29): A downlink packet is classified, looked up, routed, compressed, fragmented, metered and queued. -/
  | downlinkPacket (dt : Nat) (pipe : Pipe) (dma : Option Octets)
  /-- EXCEPTION_DELIVERY (R410): A queued exception frame is written into the next posted buffer and the buffer completes. -/
  | exceptionDelivery (dt : Nat) (pipe : Pipe) (dmaOk : Bool)
  /-- METER_TICK (R432): The refill tick refills every metered flow's buckets. -/
  | meterTick (dt : Nat)
  /-- SLOT_LOAD (R456): A loaded-key slot is loaded from the key store or blob store. -/
  | slotLoad (dt : Nat) (slot : Fin 528)
  /-- GRACE_END (R459): The previous generation's grace ends; its epoch rises and its sub-slot becomes EMPTY. -/
  | graceEnd (dt : Nat) (domain : BitVec 8)
  /-- ENTROPY_FAILURE (R482): An entropy health test fails and both the source and the DRBG stop. -/
  | entropyFailure (dt : Nat)
  /-- ENTROPY_RESTART (R482): One second after a failure, the source reruns its start-up test and the DRBG is reinstantiated. -/
  | entropyRestart (dt : Nat) (passed : Bool)
  /-- TOD_SENTENCE (R495): The last character of an NMEA sentence arrives on TOD_RXD and is checked and used to label a pulse. -/
  | todSentence (dt : Nat) (text : Octets)
  /-- TOD_OUTPUT (R496): 100 ms after a PPS_OUT pulse, a ZDA sentence is sent on TOD_TXD. -/
  | todOutput (dt : Nat)
  /-- PTP_SYNC_RX (R498): A Sync message is received and timestamped. -/
  | ptpSyncRx (dt : Nat) (port : Port) (flips : List (BitVec 80))
  /-- PTP_FOLLOW_UP_RX (R498): A Follow_Up message is received. -/
  | ptpFollowUpRx (dt : Nat) (port : Port)
  /-- PTP_DELAY_REQ_RX (R498): A Delay_Req message is received and answered with Delay_Resp. -/
  | ptpDelayReqRx (dt : Nat) (port : Port) (flips : List (BitVec 80))
  /-- PTP_DELAY_RESP_RX (R498): A Delay_Resp message is received and meanPathDelay is updated. -/
  | ptpDelayRespRx (dt : Nat) (port : Port)
  /-- PTP_ANNOUNCE_RX (R499): An Announce message is received and the BMCA runs. -/
  | ptpAnnounceRx (dt : Nat) (port : Port)
  /-- PTP_SYNC_TX (R502): A master port sends a one-step Sync with originTimestamp inserted at egress. -/
  | ptpSyncTx (dt : Nat) (port : Port)
  /-- PTP_DELAY_REQ_TX (R498): A slave port sends a Delay_Req. -/
  | ptpDelayReqTx (dt : Nat) (port : Port)
  /-- PTP_ANNOUNCE_TX (R499): A port sends an Announce. -/
  | ptpAnnounceTx (dt : Nat) (port : Port)
  /-- TEU_FIRE (R506): A time-event unit reaches its firing time, drives its output or gate, and advances or disarms. -/
  | teuFire (dt : Nat) (unit : Fin 16)
  /-- TIMER_EDGE (R511): A running countdown timer edge decrements, reloads or ends the count, with match actions. -/
  | timerEdge (dt : Nat) (timer : Fin 32)
  /-- TIMER_CAPTURE (R514): A filtered capture edge latches the count and width. -/
  | timerCapture (dt : Nat) (timer : Fin 32) (rising : Bool)
  /-- UPDATE_SESSION_IDLE (R530): The holder sends nothing for upd.session.idle and the session ends without staging. -/
  | updateSessionIdle (dt : Nat)
  /-- ACTIVATION_RESTART (R529): 10 ms after an activating UPDATE_END completes, a firmware cold restart begins. -/
  | activationRestart (dt : Nat)
  /-- EV_PROBATION_EXPIRED (R533): Probation time runs out without confirmation and the event is raised. -/
  | evProbationExpired (dt : Nat)
  /-- PROBATION_COLD_RESTART (R533): 100 ms after probation expiry, a firmware cold restart is requested. -/
  | probationColdRestart (dt : Nat)
  /-- CONFIRM_FOLLOW_UP (R534): After confirmation, the settings are released, fuses are programmed and FLASH_B is mirrored. -/
  | confirmFollowUp (dt : Nat)
  /-- SETTINGS_WRITE (R151): Stored values are written to a settings slot of FLASH_A within 1 s. -/
  | settingsWrite (dt : Nat)
  /-- BACKBONE_RX_FRAME (R544): An Ethernet frame received on a backbone port passes filtering, duplicate discard and classification. -/
  | backboneRxFrame (dt : Nat) (port : Port) (frame : Octets)
  /-- EGRESS_FRAME (R553): A port takes the next frame from its egress queue and sends it. -/
  | egressFrame (dt : Nat) (port : Port) (bad : Option (BitVec 23 × Bool))
  /-- EV_BACKBONE_LINK (R542): A link change holds for bb.link.debounce and EV_BACKBONE_LINK is raised. -/
  | evBackboneLink (dt : Nat) (port : Port) (up : Bool)
  /-- SUPERVISION_SEND (R550): Every bb.prp.sup.interval, a supervision frame is sent on each member. -/
  | supervisionSend (dt : Nat) (hsr : Bool)
  /-- PRP_LAN_TIMEOUT (R550): A PRP member receives nothing for bb.prp.lan.timeout and a redundancy fault is raised. -/
  | prpLanTimeout (dt : Nat) (port : Port)
  /-- HSR_RING_TIMEOUT (R550): The device's own supervision frame is not removed within bb.hsr.ring.timeout and a ring fault is raised. -/
  | hsrRingTimeout (dt : Nat) (port : Port)
  /-- HELLO_SEND (R556): Every pair.link.hello, a unit sends HELLO on the partner link. -/
  | helloSend (dt : Nat)
  /-- PARTNER_HELLO (R557): A HELLO is received; the partner link state is refreshed and role conflicts are resolved. -/
  | partnerHello (dt : Nat)
  /-- PARTNER_PROPOSE (R559): A PROPOSE is received and answered with ACCEPT for a handover ASN. -/
  | partnerPropose (dt : Nat)
  /-- PARTNER_ACCEPT (R559): An ACCEPT is received, fixing the handover ASN and completing PAIR_ROLE. -/
  | partnerAccept (dt : Nat)
  /-- PARTNER_MIRROR (R558): A MIRROR is received and the standby builds a shadow item from it. -/
  | partnerMirror (dt : Nat)
  /-- EV_PARTNER_LINK (R556): No HELLO arrives within 3 × pair.link.hello and the partner link goes down. -/
  | evPartnerLink (dt : Nat)
  /-- PAIR_ROLE_TIMEOUT (R559): No ACCEPT arrives within 3 × pair.link.hello and PAIR_ROLE completes ST_PAIR_LINK_DOWN. -/
  | pairRoleTimeout (dt : Nat)
  /-- DMA_COMPLETION_TIMEOUT (R103): A frame DMA read gets no completion within 50 ms and fails with ST_DMA_ERROR. -/
  | dmaCompletionTimeout (dt : Nat) (hc : Hc)
  /-- START_STEP_END (R81): A timed stage of the start sequence (cleaner lock, SYSPLL lock, fuse load, memory test, staging copy, verify, engine load, firmware start) ends, and the next begins or the start ends with EV_READY or in start failure. -/
  | startStepEnd (dt : Nat) (obs : StartObs)
  /-- REF_ABSENT_TIMEOUT (R89): REF_IN is not qualified within 100 ms of the end of reset and the start ends in the start-failure state with FAIL_CODE REF_ABSENT. -/
  | refAbsentTimeout (dt : Nat)
  /-- SYSPLL_NOLOCK_TIMEOUT (R89): SYSPLL has not locked within 1 ms of cleaner lock and the start ends in the start-failure state with FAIL_CODE SYSPLL_NOLOCK. -/
  | syspllNolockTimeout (dt : Nat)
  /-- TEU_WIDTH_END (R505): WIDTH after a firing, a time-event unit's pulse output falls (including PPS_OUT on unit 15) and its transmit release window closes. -/
  | teuWidthEnd (dt : Nat) (unit : Fin 16)
  /-- ANNOUNCE_RECEIPT_TIMEOUT (R499): A PTP port receives no qualifying Announce within its announce receipt timeout, so the BMCA recomputes its state and a slave port is lost, putting the servo in HOLDOVER. -/
  | announceReceiptTimeout (dt : Nat) (port : Port)
  /-- PTP_QUALIFICATION_TIMEOUT (R499): A PTP port in PRE_MASTER reaches its qualification timeout and enters MASTER. -/
  | ptpQualificationTimeout (dt : Nat) (port : Port)
  /-- LANE_BLANK_INSTANT (R281): A lane reading its ring, live or rewinding, reaches the first instant whose samples are all blank-marked or absent, and its frame ends as blanked. -/
  | laneBlankInstant (dt : Nat) (band : Band) (ch : Fin 64) (lane : Fin 2)
deriving DecidableEq, Repr

end Sys2Proof
end

