-- ==== Sys2Proof/Config.lean ====
section
/-!
DEFINITION. What the model does not compute: the free values, each a constant with no body. A statement about one of them holds
whatever it is.
-/

namespace Sys2Proof.Config

/-- A value that the spec leaves open, fresh for each draw (log 5). -/
opaque freeWord : Nat → Word

/-- The value of engine register `reg` of `site` after its `epoch`-th run or step, where nothing has been written
to it since (R45; engine code is outside the spec; log 9). -/
opaque engineRegister : (site : Nat) → (epoch : Nat) → (reg : Nat) → Word

/-- The in-flight journal's record as a word: the spec names what it holds and not where; state 0 is a removed record, 1 one at work,
2 DONE (R136; log 198). -/
opaque journalWord : (tag : BitVec 16) → (opcode : BitVec 12) → (room state offset : Nat) → Word

/-- The fixed delay from an ANT ball to a channel's ring, in TIME cycles; the spec states no figure (R294; log 207). -/
opaque pathDelay : (rate : Nat) → Nat

/-- Payload symbols of an interleaved SUN-OFDM PPDU: its padding is IEEE 802.15.4-2020's, which the spec does not repeat (R325;
log 53). -/
opaque ofdmInterleavedSymbols : (option mcs psdu : Nat) → Nat

/-- The destination PAN identifier of frames that the device builds: the spec states none (R358, R409; log 36). -/
opaque panId : BitVec 16

/-- clockAccuracy, offsetScaledLogVariance and the second flag octet that the device announces of its own clock, and the IPv6 hop
limit of its PTP messages: the spec states none (R498, R499; log 42). -/
opaque clockAccuracy : BitVec 8
opaque clockVariance : BitVec 16
opaque announceFlags : BitVec 8
opaque ptpHopLimit : BitVec 8

end Sys2Proof.Config
end

