-- ==== Sys2Proof/Machine/State.lean ====
section
/-!
DEFINITION. The state of the device as plain data: every register, memory, queue, counter, mode and pin that the
spec gives it, block by block, and the queue of commands that wait. A field's default value is its value after
reset. Instants and durations are counted in TIME clock cycles (409.6 MHz, R63) from power-on unless a field says
otherwise.
-/

namespace Sys2Proof.Machine

/-- Why a step stops. Safe: the run stops where the spec defines no further behaviour. -/
inductive Fault where
  /-- One of the fourteen host actions of R569, whose result the spec calls undefined "until the next cold reset".
  Raised by the meanings that receive such an action. Safe. -/
  | undefinedHostAction (n : Nat)
deriving DecidableEq, Repr

/-- Why a command has no meaning. -/
inductive Refusal where
  /-- The row has no meaning in the model yet. Raised only by the dispatch. Safe. -/
  | notModelled (mnemonic : String)
deriving DecidableEq, Repr

/-- A chirp of an LRC frame (R303, R304). -/
inductive Chirp where
  | up (m : Nat)
  | down
deriving DecidableEq, Repr

/-- A frame as a chain modulates it: the record of the mode its packet is sent in, and that of the mode-switch PPDU sent before it,
whose target the first is (R299, R322); the chain-0 filter it passes, none for the fixed pulse shaping (R330, R331); its PSDU as
modulated and, for LRC, its chirps (R303). -/
structure Wave where
  mode : BitVec 72
  switch : Option (BitVec 72)
  filter : List (BitVec 18)
  psdu : Octets
  chirps : List Chirp
deriving DecidableEq, Repr

/-- What the device sends out through its pins and links, in order: the model's own record. -/
inductive Output where
  /-- MSI-X vector of a PCIe endpoint (R101) -/
  | msix (e : Fin 2) (vector : Nat)
  /-- BAR2 read completion: a word in the padded view of R6, bytes 9 to 15 zero, or a poisoned TLP (R102) -/
  | bar2 (e : Fin 2) (poisoned : Bool) (data : BitVec 128)
  /-- value of a direct register read through an attachment -/
  | register (att : Att) (value : BitVec 32)
  /-- response phase of an HSPI transaction (R105) -/
  | hspi (p : Fin 4) (octets : Octets)
  /-- a frame DMA write to host memory, of at most 256 octets, and a read request, of at most 512 (R103) -/
  | dma (hc : Hc) (addr : BitVec 64) (octets : Octets)
  | dmaRead (hc : Hc) (addr : BitVec 64) (length : Nat)
  /-- an Ethernet frame with its FCS (ch. 17) -/
  | ether (port : Port) (octets : Octets)
  /-- a frame on air: chain, centre frequency in kHz, and the frame as modulated -/
  | air (chain : Chain) (freq : Nat) (wave : Wave)
  /-- the amplitude points that a chain plays over a ramp, and its length in µs; no points: linearly down to zero (R232) -/
  | ramp (chain : Chain) (points : List (BitVec 12)) (us : Nat)
  /-- a sentence on TOD_TXD (R496) -/
  | tod (text : Octets)
deriving DecidableEq, Repr

/-! ### Start, reset and clocks (chapter 03) -/

/-- Where the device stands between reset and service (R43, R44, R76, R81, R85, R88). -/
inductive Phase where
  /-- held in cold reset until its release -/
  | held
  /-- RST_N has risen while the TAP holds EXTEST, CLAMP or HIGHZ (R44) -/
  | tapHeld
  /-- held by a thermal trip until the reading falls below 100 °C (R62) -/
  | tripped
  | starting
  | ready
  | failure
  | recovery
deriving DecidableEq, Repr

/-- The stages of the start sequence of R81, in order: three clock stages, then steps 1 to 8. -/
inductive Stage where
  | refQual | cleanerLock | pllLock
  | fuse | memTest | validClear | staging | verify | load | firmware
deriving DecidableEq, Repr

/-- Hearth's state: START_STATUS, START_DETAIL and what the start record reports (R89, R95, R96). -/
structure Start where
  phase : Phase := .held
  stage : Stage := .refQual
  /-- instant at which the stage in progress began -/
  stageAt : Nat := 0
  failCode : BitVec 8 := 0
  detail : BitVec 29 := 0
  warm : Bool := false
  kind : BitVec 4 := 0
  kindDetail : BitVec 12 := 0
  /-- end of the reset, for the start timer (R87) and W1_DURATION -/
  since : Nat := 0
  starts : BitVec 16 := 0
  /-- instant at which the last power-on reset began: the monitored rails are below their release levels then (R49) -/
  railsAt : Nat := 0
  /-- firmware has run since the last cold reset: the device may have written the memory it keeps for itself -/
  ran : Bool := false
  warmCount : BitVec 8 := 0
  /-- instants of the watchdog bites of the rolling 60 s window (R79) -/
  bites : List Nat := []
  straps : BitVec 8 := 0
  boot : BitVec 4 := 0
  /-- the flashes answer SFDP as R519 asks -/
  flashAOk : Bool := false
  flashBOk : Bool := false
  flashBUsed : Bool := false
  defaultTrims : Bool := false
  factoryIgnored : Bool := false
  cacheReloaded : Bool := false
  restartTime : Time72 := 0
  /-- failed group checks ID, AUTH, TRIM, CFG, REPAIR from bit 0 -/
  fuseFail : BitVec 5 := 0
  sitesFailed : BitVec 29 := 0
  /-- logical ME served by MS16, MS17 (31: none) and DV served by DS8 (15: none) (R15, R95) -/
  ms16 : BitVec 5 := 31
  ms17 : BitVec 5 := 31
  ds8 : BitVec 4 := 15
  factoryApplied : BitVec 8 := 0
  fieldApplied : BitVec 9 := 0
  newRows : BitVec 8 := 0
  degraded : BitVec 8 := 0
  /-- version of the manifest that runs (R95, R521) -/
  version : BitVec 36 := 0
deriving DecidableEq, Repr

/-- The state of the reference cleaner (R65 to R68). -/
inductive RefState where
  | notQualified | acquiring | locked | holdover | requal | slew
deriving DecidableEq, Repr

structure Clocks where
  ref : RefState := .notQualified
  /-- REF_GLITCH (R140) -/
  glitch : BitVec 32 := 0
  /-- instants of the glitches of the last 1 ms (R66) -/
  glitchAt : List Nat := []
  /-- instant of the last failed check while REF_IN is not qualified (R66, R81) -/
  lossAt : Option Nat := none
  holdoverFrom : Nat := 0
  /-- seconds of the last holdover that ended (HOLDOVER_TIME) -/
  holdoverLast : Nat := 0
  requalFrom : Nat := 0
  /-- EV_REF_HOLDOVER_LIMIT raised and EV_REF_RESTORED not yet (R69) -/
  limit : Bool := false
  sysPll : Bool := false
deriving DecidableEq, Repr

/-- PPS_IN qualification (R71, R72). -/
structure Pps where
  /-- 0 no pulse seen, 1 qualifying, 2 accepting, 3 lost -/
  st : BitVec 2 := 0
  /-- the state qualification came from: true 3, false 0 -/
  from3 : Bool := false
  /-- time of the reference edge or of the last accepted pulse, which the window counts from -/
  base : Time72 := 0
  /-- time of the last accepted pulse, zero before any -/
  last : Time72 := 0
  /-- instant of the last accepted pulse, or of the entry into the state -/
  lastAt : Nat := 0
  count : Nat := 0
  /-- captured edge waiting to be judged: time, instant, and the instant of the opposite edge if one came -/
  edge : Option (Time72 × Nat × Option Nat) := none
  /-- PPS_REJECT (R140) -/
  reject : BitVec 32 := 0
deriving DecidableEq, Repr

/-- The device watchdog (R78). -/
structure Watchdog where
  armed : Bool := false
  since : Nat := 0
  kick0 : Bool := false
  kick1 : Bool := false
deriving DecidableEq, Repr

/-- The JTAG TAP: its instruction and its data registers (R44, R45). -/
structure Tap where
  ir : BitVec 5 := 1
  /-- the boundary-scan register: one cell for each digital signal ball of R37, in that table's order (log 197) -/
  cells : BitVec 159 := 0
  bypass : Bool := false
  /-- the IDCODE data register, loaded with ID_CODE (R44, R140) -/
  idcode : BitVec 32 := 0x197403AB
  data : Word := 0
  addr : BitVec 14 := 0
  site : BitVec 5 := 0
  op : BitVec 3 := 0
  done : Bool := false
  halted : Bool := false
deriving DecidableEq, Repr

/-- Junction temperature (R62), in 1/16 °C. -/
structure Temp where
  t0 : BitVec 12 := 0
  t1 : BitVec 12 := 0
  t2 : BitVec 12 := 0
  t3 : BitVec 12 := 0
  /-- EV_TEMP_HIGH may be raised -/
  armed : Bool := true
  /-- first instant of the present run of readings at or above 120 °C -/
  hotFrom : Option Nat := none
  /-- highest reading since the trip -/
  peak : BitVec 12 := 0
deriving DecidableEq, Repr

/-- What a pin carries beyond the plain GPIO function (R160). -/
inductive PinFn where
  | gpio
  | timer (n : Nat)
  | capture (n : Nat)
  | teu (u : Nat)
  | pairRole
deriving DecidableEq, Repr

/-- Pin levels and functions (R37, R143, R160). Pins are numbered as in resource class 5 (R125). -/
structure Pins where
  gpioIn : BitVec 32 := 0
  gpioOut : BitVec 32 := 0
  gpioOe : BitVec 32 := 0
  /-- function of each pin; unlisted: GPIO -/
  fn : SMap PinFn := []
  /-- level driven by the function of a pin, key pin; 56 is PPS_OUT -/
  level : SMap Bool := []
  /-- PCIE_A_REFCLK, PCIE_B_REFCLK present, as CLK_STATUS last showed them (R141; log 52) -/
  refclk : BitVec 2 := 0
  /-- SCK, CS_N and RESET_N of FLASH_A and FLASH_B (R37) -/
  flashSck : BitVec 2 := 0
  flashCsN : BitVec 2 := 3
  flashResetN : BitVec 2 := 0
  /-- TOD_TXD (R37) -/
  todTxd : Bool := true
  /-- lanes in electrical idle: PCIE_A, PCIE_B (R41, R42), and idle transmitters of XG0, XG1, GE0, GE1 (R37) -/
  pcieIdle : BitVec 2 := 3
  serialIdle : BitVec 4 := 15
  /-- TDO drives: only while the port shifts (R37) -/
  tdo : Bool := false
deriving DecidableEq, Repr

/-! ### Host contexts (chapter 04) -/

/-- What a command that is still at work does when its work ends (R118, R136). -/
inductive Work where
  /-- the work ends in another block's step, which marks the record DONE -/
  | elsewhere
  | keyUpdate
  | keyLoad
  | attest
  | updateData
  | updateEnd
deriving DecidableEq, Repr

/-- A record of the in-flight journal with its result space (R136). -/
structure JRec where
  id : Nat
  tag : BitVec 16
  opcode : BitVec 12
  /-- the record's word of the journal, and the words of its result space in the result store (R136; log 198) -/
  slot : Nat := 0
  space : List Nat := []
  /-- CQ words reserved: the completion word and the most result words (R114) -/
  room : Nat
  notify : Bool
  payload : List Word := []
  work : Work := .elsewhere
  done : Bool := false
  status : BitVec 12 := 0
  air : Bool := false
  result : List Word := []
deriving DecidableEq, Repr

/-- A buffer named by an outstanding command: one posted by BUF_POST (R412) or the source of a FRAME_INJECT (R418). -/
structure PostedBuf where
  job : Nat
  /-- in SHM, by word address; otherwise in host memory, by byte address -/
  shm : Bool
  addr : BitVec 64
  /-- octets -/
  length : Nat
deriving DecidableEq, Repr

/-- A host context (R97 to R136, R141). -/
structure Ctx where
  /-- HCn_CTX.STATE: 0 DETACHED, 1 ATTACHED, 2 DRAINING -/
  st : BitVec 2 := 0
  bind : Nat := 0
  sqTail : BitVec 11 := 0
  sqHead : BitVec 11 := 0
  cqTail : BitVec 11 := 0
  cqHead : BitVec 11 := 0
  eqTail : BitVec 10 := 0
  eqHead : BitVec 10 := 0
  dbIgnored : BitVec 32 := 0
  eqLost : BitVec 32 := 0
  /-- the EQ holds EV_EQ_OVERFLOW and loses entries until the host advances HCn_EQ_HEAD (R158) -/
  eqFull : Bool := false
  time1 : BitVec 32 := 0
  time2 : BitVec 8 := 0
  seq : BitVec 16 := 0
  cqReserved : Nat := 0
  /-- the interpreter stopped at a poisoned header word (R121) -/
  stopped : Bool := false
  /-- doorbell latched during a warm start (R77) -/
  latched : Option (BitVec 11) := none
  /-- vector 0, vector 1 may signal (R101) -/
  vec0 : Bool := true
  vec1 : Bool := true
  /-- instant at which a coalesced vector 0 is due -/
  coalesce : Option Nat := none
  journal : List JRec := []
  /-- the open parameter transaction, in staging order (R131) -/
  txn : Option (List (Nat × BitVec 64)) := none
  bufs : List PostedBuf := []
  /-- source buffers of outstanding FRAME_INJECTs -/
  injects : List PostedBuf := []
  /-- instant of the last CS_N fall on the command port, while the inactivity timer runs (R108) -/
  hspiSince : Option Nat := none
  /-- a link loss during a warm start, handled after firmware start: its cause (R77, R133) -/
  loss : Option Nat := none
deriving DecidableEq, Repr

/-- The holder of a resource (R124, R162). -/
inductive Holder where
  | host (hc : Hc)
  | feature (code : BitVec 8)
deriving DecidableEq, Repr

/-- A lock on a parameter group: its holder, the lease in ms, 0 for host.lock.lease, and the lease's end (R127). -/
structure Lock where
  hc : Hc
  lease : Nat
  till : Nat
deriving DecidableEq, Repr

/-- An event entry (R153). -/
structure Entry where
  source : BitVec 8
  count : Nat
  time : Time72
  w2 : Word
  w3 : Word
deriving DecidableEq, Repr

/-- One EQ route of one context (R155, R157). -/
structure Route where
  on : Bool := false
  vector : Nat := 1
  /-- coalescing window in µs -/
  window : Nat := 0
  /-- end of the open window, with the entry pending in it -/
  opened : Option Nat := none
  held : Option Entry := none
deriving DecidableEq, Repr

/-- An event entry on its way to a context's EQ (R153), with the MSI-X vector of its route. -/
structure EvOut where
  hc : Hc
  vector : Nat
  entry : Entry
deriving DecidableEq, Repr

/-! ### Memory integrity (chapter 06) -/

/-- A weak-word table entry (R184). -/
structure Weak where
  word : Nat
  first : Nat
  count : Nat
deriving DecidableEq, Repr

/-- A retirement under way in an SHM bank (R186). -/
structure Move where
  addr : Nat
  spare : Nat
deriving DecidableEq, Repr

/-- The scrubber (R179 to R187). -/
structure Scrub where
  running : Bool := false
  pass : Nat := 0
  passStart : Nat := 0
  nextRow : Nat := 0
  /-- mem.scrub.pass in force for the pass, s -/
  period : Nat := 8
  poisonSeen : Nat := 0
  weak : List Weak := []
  move : Option Move := none
  waiting : List Nat := []
  /-- end of the last NVS record's write (R186, R188) -/
  recordTill : Nat := 0
  /-- bank numbers whose EV_SPARES_EXHAUSTED has been raised since the start -/
  exhausted : List Nat := []
  /-- spare rows in use: key 8 × bank + spare, value the row (R183, R189) -/
  spares : SMap Nat := []
  overrunRaised : Bool := false
deriving DecidableEq, Repr

/-- An error-log entry: ERRLOGe_A and ERRLOGe_B (R177). -/
structure LogEntry where
  a : BitVec 32
  b : BitVec 32
deriving DecidableEq, Repr

structure ErrLog where
  /-- key 0 to 15 -/
  entries : SMap LogEntry := []
  next : BitVec 4 := 0
  overwritten : BitVec 16 := 0
deriving DecidableEq, Repr

/-- A ping-pong FIFO (R190 to R194): each word with its 8 check bits above its data, and its FLUSH mark; oldest first. -/
structure Fifo where
  fillBank : Bool := false
  filling : List (BitVec 80 × Bool) := []
  draining : List (BitVec 80 × Bool) := []
  /-- words whose write handshake is held (R192) -/
  held : List (BitVec 80 × Bool) := []
  /-- producers whose holding register of the timestamp FIFO is taken: ports 0 to 3, then chains (R190; log 220) -/
  heldBy : BitVec 16 := 0
  heldSince : Nat := 0
  last : Word := 0
  /-- words of a segment that spans both banks, already taken by the drain, each with its place where it was uncorrectable -/
  partly : List (Word × Option Nat) := []
  /-- words of the draining bank already taken -/
  drained : Nat := 0
deriving DecidableEq, Repr

/-! ### Tongs (chapter 07) -/

/-- A request standing at an arbiter, or a grant: its arrival, or the grant's instant, in cycles of the arbiter's own clock (R196 to
R201). -/
structure Grant where
  code : Nat
  burst : Nat
  header : Bool
  since : Nat
deriving DecidableEq, Repr

/-- One arbiter: its holders, pending queue, and the pointers and credits of R198 and R202. -/
structure Arb where
  /-- grants standing, oldest first -/
  holders : List Grant := []
  parked : List Grant := []
  /-- requests whose handshake waits for an entry of the full queue, oldest first (R201) -/
  stalled : List Grant := []
  /-- next of the five rank-0 requesters of an SHM bank -/
  rr : Nat := 0
  pointer : Nat := 0
  /-- credit of each entry of the ME level; unlisted before the first start: its weight -/
  credit : SMap Nat := []
  member : SMap Nat := []
  /-- last EV_ARB_QUEUE_FULL -/
  qfullAt : Option Nat := none
  /-- longest single hold since the last read, in cycles of the arbiter's own clock -/
  holdMax : Nat := 0
deriving DecidableEq, Repr

/-- A programmable engine as its supervisors see it (R173, R210, R221). -/
structure Engine where
  heartbeat : Nat := 0
  beatAt : Nat := 0
  trapped : Bool := false
  /-- 0 running, 1 gated, 2 retained -/
  gate : BitVec 2 := 0
deriving DecidableEq, Repr

/-! ### Radio chains and Quench (chapter 08) -/

/-- Chain states, in the order of R216 (Off as 0). -/
inductive ChState where
  | off | sleep | standby | synthOn | cal | rx | tx
deriving DecidableEq, Repr

/-- What holds a chain (R219, arbiters 40 to 51 of R196). -/
inductive ChHolder where
  | none
  | item (id : Nat)
  | background
  | calRun
  | tune
deriving DecidableEq, Repr

/-- One transceiver chain (R212 to R241, R267 to R270, R335). -/
structure ChainSt where
  st : ChState := .sleep
  /-- the transition under way: its target state and the instant at which it ends at the latest (R217) -/
  target : Option (ChState × Nat) := none
  /-- the state asked for while a transition runs (R218) -/
  want : Option ChState := none
  /-- synthesiser setting, kHz; 0 when it is not locked -/
  freq : Nat := 0
  holder : ChHolder := .none
  /-- item committed on the chain behind the transmission in progress (R229) -/
  next : Option Nat := none
  /-- end of the chain's open receive (R346) -/
  openTill : Nat := 0
  /-- grid point under calibration -/
  calPoint : Nat := 0
  /-- mismatch back-off in dB: 0, 6 or 12 -/
  backoff : Nat := 0
  low : Nat := 0
  good : Nat := 0
  aborts : Nat := 0
  /-- the FEM pattern and the tuner codes that the last state change took up (R233, R235, R258); zero during any reset (R75) -/
  fem : BitVec 32 := 0
  tuner : BitVec 18 := 0x20820
  /-- taken out of receive by the background and not yet back (R226) -/
  back : Bool := false
  /-- ramp time in µs and ramp curve of the transmission in progress, and the start of its ramp-down (R232) -/
  rampUs : Nat := 8
  curve : Nat := 0
  downAt : Option Nat := none
  /-- coefficients of the chain-0 filter in use; none: pass-through (R252, R331) -/
  filter : List (BitVec 18) := []
  /-- the mask monitor's enable as the transmission took it up (R334, R336) -/
  mask : Bool := true
  /-- transmit timeout of the present PA enable in ms, and the PDET loop with the instant of its last step (R234, R241, R258) -/
  timeout : Nat := 0
  pdet : Option Nat := none
  /-- bands that the transmission in progress blanks (R250, R258) -/
  blanks : BitVec 3 := 0
  /-- PA-on time not yet counted in TX_AIR_US, in 1/4,096 µs -/
  airRest : Nat := 0
  halted : Bool := false
  /-- start of PA-on of the transmission in progress -/
  paSince : Option Nat := none
  /-- power set under R231 after the clamp, and present drive, in 0.25 dBm -/
  setPower : Int := 0
  drive : Int := 0
  clamp : Option Int := none
  /-- evaluated return-loss readings of the transmission: sum and number (R235) -/
  rlSum : Nat := 0
  rlCount : Nat := 0
  /-- status of the first stop cause of the transmission (R240) -/
  stop : Option (BitVec 12) := none
  stopAt : Nat := 0
  /-- every cause met in that cycle -/
  causes : List (BitVec 12) := []
  /-- start of the chain's blanking interval (R250) -/
  blankFrom : Option Nat := none
  /-- analog gain index, windows since the last step below rx.agc.low, consecutive full-scale windows (R267, R268) -/
  gain : Nat := 0
  dwell : Nat := 0
  clips : Nat := 0
  satAt : Option Nat := none
  /-- instants of the gain steps of the last 300 s, newest first (R270) -/
  steps : List Nat := []
  /-- the corrections of R269 by index, once measured since the start; the nominal steps of the table image hold before -/
  corrections : Option (List Word) := none
  /-- ADC sample boundary n at which the last step was issued, and the index before it (R269) -/
  stepAt : Option (Nat × Nat) := none
deriving DecidableEq, Repr

/-- A CAL_RUN in progress on a chain: its journal record, the points left, and its tallies (R256). -/
structure CalRun where
  hc : Hc
  job : Nat
  chain : Chain
  points : List Nat
  done : Nat
  failed : Nat
  preempted : Nat
deriving DecidableEq, Repr

/-- A TUNE in progress (R238, R239, R255). -/
structure TuneJob where
  hc : Hc
  job : Nat
  chain : Chain
  freq : Nat
  refine : Bool
  deadline : Nat
  /-- instant and ASN of the probe's start, once started -/
  probe : Option (Nat × Nat)
deriving DecidableEq, Repr

/-- A duty reservation of a transmission in progress (R248): entry, chain, airtime in 1/4,096 µs. -/
structure Reserve where
  entry : Nat
  chain : Chain
  ticks : Nat
deriving DecidableEq, Repr

/-- Quench: the loaded profile, whether it is valid, and the duty bins (R242 to R249). -/
structure Quench where
  /-- the locked NVS region -/
  region : List Word := []
  profile : List Word := []
  valid : Bool := false
  /-- key 65 × entry + i: bin i of the entry, 0 the current one, in 1/4,096 µs of PA-on time -/
  bins : SMap Nat := []
  binStart : Nat := 0
  reserves : List Reserve := []
deriving DecidableEq, Repr

/-! ### Table image (chapters 08 to 11) -/

/-- The running table image (R232, R234, R263, R269, R299, R301, R331, R333, R347, R350, R364). -/
structure TableImage where
  /-- key 32 × band + mode -/
  txModes : SMap Word := []
  /-- key 32 × band + profile -/
  rxProfiles : SMap (Word × Word) := []
  /-- key 64 × band + channel: the plan's rx.chan.def -/
  channels : SMap (BitVec 64) := []
  /-- key 256 × band + plan channel: centre frequency, kHz -/
  plan : SMap Nat := []
  /-- key 8 × band + sequence -/
  hops : SMap (List Nat) := []
  descriptors : SMap (Word × Word) := []
  /-- key band -/
  beacons : SMap Octets := []
  /-- key 15 × band + slot − 1: the 64 coefficients of a filled chain-0 filter slot -/
  filters : SMap (List (BitVec 18)) := []
  /-- key 8 × band + curve: 64 monotonic amplitude points -/
  curves : SMap (List (BitVec 12)) := []
  /-- key 4,096 × band + PDET sample: forward power in 0.25 dBm (log 217) -/
  detector : SMap Int := []
  /-- key 16 × band + index: nominal correction of a gain index -/
  steps : SMap Word := []
  /-- key 7 × band + slot − 1: points as offset in kHz and limit in 0.5 dBc -/
  masks : SMap (List (Nat × Int)) := []
deriving DecidableEq, Repr, Inhabited

/-! ### Wideband receive (chapter 09) -/

inductive LaneState where
  | follow | search | locked | rewind | demod | payload
deriving DecidableEq, Repr

/-- A detection (R274): its mark, the antennas that its frame combines, and what becomes of them (R278, R279). -/
structure Mark where
  mark : Nat
  detect : Nat
  metric : BitVec 10
  foff : Int
  /-- antennas present at the detection, and those not lost since -/
  ants : BitVec 4
  alive : BitVec 4
  /-- instants of the first loss of an antenna, and of the loss of the last one or of blanking -/
  lostAt : Option Nat
  blankAt : Option Nat
  /-- rx.lane.preroll when a lane took it (R295) -/
  pre : Nat
deriving DecidableEq, Repr

/-- A detector lane and the frame it carries (R272). -/
structure Lane where
  st : LaneState := .search
  mark : Option Mark := none
  rewound : Bool := false
  ctx : Option Nat := none
  /-- instant at which the lane last became free (R272) -/
  freeAt : Nat := 0
  /-- digital gain in 0.25 dB, once frozen (R271, R277) -/
  gain : Option Int := none
  /-- frozen frequency estimate in Hz (R277) -/
  foff : Int := 0
  /-- combining weights by subcarrier and antenna (R278) -/
  weights : List (List AntEst) := []
  /-- read position of the context in its ring, in 1/50,185,175,040 instants (R285, R287) -/
  read : Nat := 0
  /-- ring instants at which the payload's codewords still to be read end, and the instants at which those that wait for a decoder had
  been read, oldest first (R288) -/
  ends : List Nat := []
  queued : List Nat := []
  /-- the context waits with a segment to write and reads no more (R291) -/
  stalled : Bool := false
  length : Nat := 0
  rate : BitVec 8 := 0
  fcs4 : Bool := false
  /-- the PHR of a SUN-FSK frame names whitening (R302) -/
  whiten : Bool := false
  /-- accepted mode switch: the rate index and the end of the mode-switch PPDU (R321) -/
  switched : Option (Nat × Nat) := none
  iterMax : Nat := 0
  codewords : Nat := 0
  corrected : Nat := 0
  /-- PSDU octets received, and how many of them stand in the Frame FIFO -/
  octets : Octets := []
  written : Nat := 0
  /-- frame sequence once the first segment is written (R289) -/
  fseq : Option Nat := none
  /-- counted for want of a context (R286) -/
  counted : Bool := false
deriving DecidableEq, Repr

/-- A receive channel (R264 to R266, R272 to R285). -/
structure Chan where
  /-- rx.chan.status: 0 stopped, 1 running, 2 to 5 rejected (R265) -/
  status : Nat := 0
  def_ : BitVec 64 := 0
  /-- ring: first word within the band's HIST, and its length in instants; time of instant 0 (R282, R284) -/
  ringBase : Nat := 0
  ringLen : Nat := 0
  /-- antennas whose samples were present, newest first, each from an instant on (R279, R283) -/
  gaps : List (Nat × BitVec 4) := []
  anchor : Time72 := 0
  anchorAt : Nat := 0
  lane0 : Lane := {}
  lane1 : Lane := { st := .follow }
  /-- candidate marks, oldest first -/
  marks : List Mark := []
  lanesFullAt : Option Nat := none
  lanesFullLost : Nat := 0
  rewindLostAt : Option Nat := none
deriving DecidableEq, Repr

/-- What a context still has to write of a frame that has ended (R281, R289): its last segment with the metadata, or an
abandon segment. -/
structure RxTail where
  band : Band
  ctx : Nat
  ch : Nat
  fseq : Option Nat
  octets : Octets
  info : Option (List Word)
  /-- octets of FCS at the PSDU's end, and the end of the last symbol at the ANT ball -/
  fcs : Nat := 0
  endAt : Nat := 0
deriving DecidableEq, Repr

/-- A band's receive buffer pool (R290, R291). -/
structure RxPool where
  /-- buffers in use, key buffer -/
  used : SMap Bool := []
  /-- open buffers: key FSEQ, value buffer and data words held -/
  opened : SMap (Nat × Nat) := []
  stopped : Bool := false
deriving DecidableEq, Repr

/-- Where a received frame stands in its band's order (R13). -/
inductive RxPlace where
  | waiting
  | claimed (engine : Fin 4)
  | finished
deriving DecidableEq, Repr

/-- What a receive ME hands to the pipeline with a frame (R353, R360, R378). -/
structure RxMeta where
  domain : BitVec 8
  origin : Eui
  secured : Bool
  /-- the MAC source equals the origin -/
  direct : Bool
  /-- origin ASN; the reception ASN of a plain frame -/
  asn : Nat
  /-- MAC source and destination, with their octets -/
  src : Nat
  srcLen : Nat
  dst : Nat
  dstLen : Nat
  keyGen : BitVec 8
  /-- measured offset in µs with the contact time (R360) -/
  timing : Option (Int × Time72)
  /-- the device sends the node a time correction (R361) -/
  corrected : Bool
  dest : Nat
  payload : Octets
  /-- the MAC frame decrypted, without MIC and FCS (R413 FORM 1) -/
  frame : Octets
  time : Time72
  ants : BitVec 4
  rssi : BitVec 8
  lq : BitVec 8
deriving DecidableEq, Repr

/-- A received frame from its last segment until its pipeline takes it (R13, R290). -/
structure RxFrame where
  band : Band
  buffer : Nat
  octets : Nat
  place : RxPlace
  info : Option RxMeta
  /-- octets of FCS at the PSDU's end, and the end of the last symbol at the ANT ball -/
  fcs : Nat := 0
  endAt : Nat := 0
deriving DecidableEq, Repr

/-- The wideband receivers of the three bands (R260 to R297). -/
structure Rx where
  /-- key 64 × band + channel -/
  chans : SMap Chan := []
  /-- instant up to which the contexts' read positions are worked out (R287) -/
  readAt : Nat := 0
  /-- words of a band's HIST that rings have taken since the last start, key band (R282) -/
  used : SMap Nat := []
  /-- key band -/
  pools : SMap RxPool := []
  fseq : SMap Nat := []
  tails : List RxTail := []
  /-- octets of FCS and end of the last symbol of a frame in the Frame FIFO, key 65536 × band + FSEQ -/
  ends : SMap (Nat × Nat) := []
  /-- received frames in the order of their last segments -/
  frames : List RxFrame := []
  /-- detections without a context since the last EV_RX_CONTEXTS_FULL, and its instant (R286) -/
  ctxLost : Nat := 0
  ctxFullAt : Option Nat := none
deriving DecidableEq, Repr

/-! ### Items, slots and frame security (chapters 11 and 13) -/

/-- What an item is the transmission of (R345, R366). -/
inductive ItemSrc where
  | host (hc : Hc) (job : Nat) (tag : BitVec 16)
  /-- a frame of a flow: flow, packet number, and the FRAME_INJECT that brought the packet -/
  | flow (flow : Nat) (packet : Nat) (inject : Option (Hc × Nat))
  | beacon
  | group
  | ack
  /-- a partner's TX_SUBMIT frame (R558) -/
  | mirror
deriving DecidableEq, Repr

/-- The cells an item may use (R365, R441). -/
inductive CellKind where
  | auto
  | dedicated
  | shared
  | wake
  /-- a flow frame: its first hop's autonomous cell or a dedicated one -/
  | nodeCell
  /-- a cell chosen already, or no cell: beacons and acknowledgements -/
  | given
deriving DecidableEq, Repr

/-- The key an item is secured with (R352, R365, R461). -/
inductive SecKey where
  | plain
  | node (key : Word)
  | broadcast
deriving DecidableEq, Repr

/-- States of a transmit item (R366). -/
inductive ItemSt where
  | queued | held | eligible | committed | onAir | awaitAck
deriving DecidableEq, Repr

/-- A transmit item (R365, R366). Instants named `…At` and the span are in TIME cycles; slot and transmit instants
are 72-bit times. -/
structure Item where
  id : Nat
  src : ItemSrc
  band : Band
  cell : CellKind
  domain : BitVec 8 := 0
  /-- key of the node whose entry supplies the timing -/
  node : Option Word := none
  sf : Nat := 0
  mode : Nat := 0
  ack : Bool := false
  key : SecKey := .plain
  /-- sub-slot whose generation an acknowledgement must use (R461) -/
  sub : Option Nat := none
  retries : Nat := 0
  expiry : Option Nat := none
  hdrLen : Nat := 0
  /-- octets of data in the transmit pool, and its blocks (R434) -/
  length : Nat := 0
  blocks : List Nat := []
  /-- PSDU octets as sent -/
  psdu : Nat := 0
  /-- octets built at the commit point, or held ready for an acknowledgement -/
  frame : Octets := []
  tag : Nat := 0
  cost : Nat := 0
  marked : Bool := false
  /-- Pair IE: tag, index and final destination (R373) -/
  pairTag : BitVec 32 := 0
  pairIndex : BitVec 8 := 0
  final : Eui := 0
  st : ItemSt := .queued
  chain : Option Chain := none
  /-- attempts committed, the chain and the slot's ASN of the last one, and the wait of mac.ack.wait in µs as it stood there (R366,
  R367) -/
  attempts : Nat := 0
  lastChain : Option Chain := none
  lastAsn : Nat := 0
  ackWait : Nat := 0
  asn : Nat := 0
  slot : Nat := 0
  instant : Nat := 0
  tolerance : Nat := 0
  freq : Nat := 0
  /-- airtime in sixths of a µs, from the start of ramp-up to the end of ramp-down (R317, R325) -/
  air6 : Nat := 0
  /-- planned blanking interval -/
  spanFrom : Nat := 0
  spanTo : Nat := 0
  /-- planned end of ramp-up, and whether a full calibration comes first (R229) -/
  startAt : Nat := 0
  /-- ramp time in µs, ramp curve and power cap in 0.25 dBm as they stood at the commit point (R258) -/
  rampUs : Nat := 0
  curve : Nat := 0
  useCal : Bool := false
  /-- a stale entry was taken -/
  stale : Bool := false
  power : Int := 0
  /-- transmit instant that the last attempt took, 0 where it took none (R367) -/
  txTime : Time72 := 0
  aired : Bool := false
  ackAt : Nat := 0
  shadow : Bool := false
deriving DecidableEq, Repr

/-- An entry of a group acknowledgement list (R358, R359), placed in the cell of an ASN. -/
structure GroupEntry where
  band : Band
  domain : BitVec 8
  tag : BitVec 32
  seq : BitVec 8
  rxAsn : Nat
  tcorr : BitVec 16
  asn : Nat
  cell : Nat
deriving DecidableEq, Repr

/-- The schedule and the frame security of the MAC engines (R338 to R374). -/
structure Mac where
  asnSet : Bool := false
  /-- base slot of the last slot boundary -/
  slot : Option Nat := none
  /-- slotframes that run, key slotframe -/
  running : SMap Bool := []
  /-- cells whose written contents await a slotframe start: the words still in effect (R344), key cell -/
  oldCells : SMap (Word × Word) := []
  /-- last ASN decided by each band's scheduler -/
  decided : SMap Nat := []
  /-- secured frames already given an ASN: domain, node word (0 for broadcast), ASN (R354) -/
  used : List (Nat × Nat × Nat) := []
  groups : List GroupEntry := []
  /-- replay filter: domain, origin, ASN (R356) -/
  replay : List (BitVec 8 × Eui × Nat) := []
  replayFloor : Nat := 0
  /-- the floor is to be set when the ASN is next set (R340, R356) -/
  floorPending : Bool := true
  seqNo : BitVec 8 := 0
  itemId : Nat := 0
  items : List Item := []
  /-- mask back-offs in dB and clean counts, key 32 × band + mode (R335) -/
  maskBackoff : SMap Nat := []
  maskClean : SMap Nat := []
  /-- instants of the EV_MASK_VIOLATIONs of the last second, key band -/
  maskAt : SMap (List Nat) := []
  /-- start of the union of blanking intervals in progress, key band (R250) -/
  blankFrom : SMap Nat := []
deriving DecidableEq, Repr

/-- A FRAME_INJECT whose frames have not all ended (R367, R418). -/
structure Injection where
  hc : Hc
  job : Nat
  frames : Nat
  status : BitVec 12 := 0
  failed : Bool := false
  flow : Nat := 0
  firstHop : Word := 0
  air : Bool := false
deriving DecidableEq, Repr

/-- A flow: its record as stored, the meter in force, and its statistics (R422 to R444). -/
structure Flow where
  w1 : Word := 0
  w2 : Word := 0
  /-- METER, CIR, PIR, CBS and PBS in force since the last tick -/
  meter : Bool := false
  cir : Nat := 0
  pir : Nat := 0
  cbs : Nat := 0
  pbs : Nat := 0
  /-- the buckets start the next tick full -/
  fill : Bool := false
  cb : Nat := 0
  pb : Nat := 0
  remC : Nat := 0
  remP : Nat := 0
  green : Nat := 0
  yellow : Nat := 0
  red : Nat := 0
  meterDropped : Nat := 0
  queueDropped : Nat := 0
  sent : Nat := 0
  failed : Nat := 0
  expired : Nat := 0
  airUs : Nat := 0
  /-- last finish tag on each band -/
  finish : SMap Nat := []
  /-- last EV_FLOW_QUEUE_FULL -/
  fullAt : Option Nat := none
deriving DecidableEq, Repr

structure Shape where
  flows : SMap Flow := []
  /-- virtual time of each band, in 1/256 µs -/
  v : SMap Nat := []
  tickAt : Nat := 0
  tick : Nat := 1000
  packet : Nat := 0
deriving DecidableEq, Repr

/-! ### Forwarding (chapter 12) -/

/-- A node-table entry (R381). -/
structure Node where
  eui : Eui := 0
  domain : BitVec 8 := 0
  parentSlot : BitVec 17 := 0
  parentPipe : BitVec 1 := 0
  parentKind : BitVec 2 := 0
  parentTag : BitVec 8 := 0
  rank : BitVec 16 := 0
  learned : Bool := false
  static : Bool := false
  desync : Bool := false
  pinned : Bool := false
  seedGen : Bool := false
  refGen : Bool := false
  lastBand : BitVec 2 := 0
  antMask : BitVec 4 := 0
  rssi : BitVec 8 := 0
  lq : BitVec 8 := 0
  tc : BitVec 33 := 0
  drift : BitVec 19 := 0
  offset : BitVec 20 := 0
  keyGen : BitVec 8 := 0
  cls : BitVec 3 := 0
  flow : BitVec 12 := 0
  learnPort : BitVec 2 := 0
  age : BitVec 12 := 0
  children : BitVec 18 := 0
  uplinks : BitVec 16 := 0
deriving DecidableEq, Repr

/-- A rehash in progress (R389). -/
structure Rehash where
  hc : Hc
  job : Nat
  startedAt : Nat
  old0 : BitVec 32
  old1 : BitVec 32
deriving DecidableEq, Repr

/-- A key waiting for the learning unit, with the fields its frames gave (R395). -/
structure Learn where
  band : Band
  node : Node
deriving DecidableEq, Repr

/-- A reassembly context (R406). -/
structure Reasm where
  domain : BitVec 8
  origin : Eui
  dgTag : BitVec 16
  size : Nat
  /-- octets received, by position in the uncompressed datagram -/
  got : SMap Octet
  since : Nat
  /-- of FRAG1, once received: origin ASN, and the UDP header whose checksum was elided -/
  asn : Option Nat := none
  udpAt : Option Nat := none
deriving DecidableEq, Repr

/-- A frame on its way into an exception queue (R410, R413). -/
structure ExcFrame where
  octets : Octets
  reason : Nat
  source : Nat
  form : Nat
  node : Word
  time : Time72
deriving DecidableEq, Repr

/-- A queued exception frame: which of the 64 places of R410 in SHM holds its octets, their number, and the frame's fields of R413;
which place a frame takes is log 221. -/
structure ExcSlot where
  place : Nat
  length : Nat
  reason : Nat
  source : Nat
  form : Nat
  node : Word
  time : Time72
deriving DecidableEq, Repr

/-- Where a downlink packet came from (R29, R378, R418). -/
inductive DownSrc where
  | port (p : Port) (vlan : Option Nat)
  /-- band and origin key of the uplink frame -/
  | hairpin (band : Band) (node : Word)
  /-- a partner's MIRROR, with its FLOW (R558) -/
  | mirror (flow : Nat)
  | inject (hc : Hc) (job : Nat) (flow : Nat) (key : Word)
deriving DecidableEq, Repr

/-- A packet waiting for a pipeline's downlink side; an injected packet in host memory is read when it is taken. -/
structure Down where
  src : DownSrc
  packet : Octets
  hostMem : Bool := false
  /-- of a packet in host memory, once its reads are issued: the instant, the endpoint and their number (R103) -/
  reads : Option (Nat × Fin 2 × Nat) := none
  time : Time72
  /-- instant of its arrival -/
  at_ : Nat := 0
deriving DecidableEq, Repr

/-- A token bucket in millionths of a token, and the instant it was last filled. -/
structure Bucket where
  level : Nat
  at_ : Nat
deriving DecidableEq, Repr

/-- A forwarding pipeline (R377 to R418). -/
structure Fwd where
  seedGen : Bool := false
  victim : Option Node := none
  /-- SEEDGEN-inverted table under rehash -/
  rehash : Option Rehash := none
  /-- indices of the overflow's entries, oldest first; the entries lie in SHM (R391) -/
  overflow : List Nat := []
  spill : SMap Bool := []
  learnQ : List Learn := []
  /-- learning buckets, key band -/
  buckets : SMap Bucket := []
  /-- last EV_LEARN_RATE and EV_LEARN_CAP, keys band and 4 + band -/
  learnEv : SMap Nat := []
  loopEv : Option Nat := none
  reasm : SMap Reasm := []
  excQ : List ExcSlot := []
  excBucket : Option Bucket := none
  /-- drops since the last EV_EXCEPTION_DROP and its instant, key port -/
  excDrops : SMap Nat := []
  excEv : SMap Nat := []
  dgTag : BitVec 16 := 0
  down : List Down := []
  sweepAt : Nat := 0
deriving DecidableEq, Repr

/-! ### Anvil (chapter 14) -/

inductive SlotSt where
  | empty | loading | loaded | orphaned
deriving DecidableEq, Repr

/-- A loaded-key slot (R455, R456). -/
structure KeySlot where
  st : SlotSt := .empty
  key : Octets := []
  gen : Nat := 0
  usage : BitVec 16 := 0
  kcv : BitVec 16 := 0
  /-- commit or load time, seconds -/
  time : Nat := 0
  broadcast : Octets := []
  /-- KEK slot that unwrapped a blob, and its epoch then -/
  kek : Option (Nat × Nat) := none
  revoked : Bool := false
deriving DecidableEq, Repr

/-- The reference to a loaded-key slot that a request holds from its presentation to its grant: the slot, its epoch and, of a
blob-sourced domain slot, its KEK and that slot's epoch at the load (R464). -/
structure KeyRef where
  slot : Nat
  epoch : Nat
  kek : Option (Nat × Nat)
deriving DecidableEq, Repr

/-- A derived-key cache entry (R462). -/
structure CacheEntry where
  set : Nat
  way : Nat
  word : Word
  slot : Nat
  epoch : Nat
  key : Octets
  used : Nat
deriving DecidableEq, Repr

structure Anvil where
  /-- what the loaded-key slots hold, key slot; their words stand in `mem` -/
  slots : SMap KeySlot := []
  /-- the key store in NVS: 128 octets per slot, key 2 × record + slot; unlisted slots are erased (R467) -/
  store : SMap Octets := []
  /-- the last REVOKE program: the slot's key in the store, and the program's end (R470) -/
  revoking : Option (Nat × Nat) := none
  /-- the reference that each receive ME's request stands under, by ME 12 to 15 less 12 (R464) -/
  refs : SMap KeyRef := []
  cache : List CacheEntry := []
  cacheUse : Nat := 0
  /-- the entropy source and DRBG run (R482) -/
  entropy : Bool := true
  failedAt : Nat := 0
deriving DecidableEq, Repr

/-! ### Time (chapter 15) -/

/-- The timebase and its servo (R486 to R496). -/
structure Timebase where
  /-- the 72-bit time above 48 sub-fraction bits -/
  value : BitVec 120 := 0
  rate : BitVec 40 := 0
  set : Bool := false
  /-- time armed by TIME_SET AT_PPS -/
  armed : Option Time72 := none
  /-- SERVO_STATE (R494, R518): 0 free, 1 acquiring, 2 locked, 3 holdover -/
  servo : Nat := 0
  /-- the servo's frequency estimate, 2^-48, and the last phase error, ns -/
  freq : Int := 0
  phase : Int := 0
  /-- consecutive updates within, and beyond, time.servo.lock -/
  within : Nat := 0
  beyond : Nat := 0
  /-- instant at which the servo's present HOLDOVER began -/
  holdFrom : Nat := 0
  /-- captured time and instant of the last accepted pulse -/
  pulse : Option (Time72 × Nat) := none
  /-- label waiting for the next accepted pulse, seconds -/
  label : Option Nat := none
  /-- captured time of the last labelled pulse, with its label -/
  labelled : Option (Time72 × Nat) := none
  /-- instant of the last PPS_OUT pulse and its time, until its sentence is sent -/
  todOut : Option (Nat × Time72) := none
deriving DecidableEq, Repr

/-- A time-event unit (R505 to R509). -/
structure Teu where
  armed : Bool := false
  /-- MODE 1 -/
  aligned : Bool := false
  out : Nat := 0
  pin : Nat := 0
  /-- µs -/
  width : Nat := 0
  gate : Bool := false
  bands : BitVec 3 := 0
  /-- MODE 0: 72-bit firing time. MODE 1: base slot of the chosen cycle's slot, once chosen -/
  next : Nat := 0
  chosen : Bool := false
  period : Nat := 0
  sf : Nat := 0
  slot : Nat := 0
  offset : Nat := 0
  /-- held by a device feature (R162) -/
  held : Bool := false
  /-- end of the pulse or window in progress -/
  till : Option Nat := none
  fires : Nat := 0
  late : Nat := 0
deriving DecidableEq, Repr

/-- A countdown timer (R510 to R515). -/
structure Timer where
  run : Bool := false
  oneShot : Bool := false
  force : Bool := false
  prescale : Nat := 0
  outEn : Bool := false
  matchAct : Nat := 0
  reloadAct : Nat := 0
  capSel : Nat := 0
  capInv : Bool := false
  filter : Nat := 0
  init : Bool := false
  count : BitVec 32 := 0
  buffer : BitVec 32 := 0
  compare : BitVec 32 := 0
  capRise : BitVec 32 := 0
  capFall : BitVec 32 := 0
  width : BitVec 32 := 0
  widthCtr : BitVec 32 := 0
  /-- the next edge is the first since RUN was stored as 1 -/
  starting : Bool := false
  /-- COMPARE was stored and no edge has judged it -/
  fresh : Bool := false
  edgeAt : Nat := 0
  late : Bool := false
  matched : Bool := false
  reloaded : Bool := false
  capNew : Bool := false
  capOverrun : Bool := false
  level : Bool := false
  matches_ : Nat := 0
deriving DecidableEq, Repr

/-- A PTP message received and not yet handled: its ingress time and its octets (R498, R500). -/
structure PtpMsg where
  at_ : Time72
  octets : Octets
deriving DecidableEq, Repr

/-- A foreign master as a port heard it: the Announce's octets and the instants of its last two messages (IEEE 1588). -/
structure Foreign where
  announce : Octets
  last : Nat
  before : Option Nat
deriving DecidableEq, Repr

/-- A PTP port (R498 to R502). -/
structure PtpPort where
  /-- portState, 1 to 9 -/
  st : Nat := 1
  /-- sourcePortIdentity of the master of a SLAVE or UNCALIBRATED port -/
  master : Nat := 0
  inbox : List PtpMsg := []
  foreign : List Foreign := []
  /-- entry into the state, the end of the qualification of PRE_MASTER, and the last Announce of the best master -/
  since : Nat := 0
  qualAt : Nat := 0
  announceAt : Nat := 0
  seqSync : BitVec 16 := 0
  seqDelay : BitVec 16 := 0
  seqAnnounce : BitVec 16 := 0
  sentSync : Nat := 0
  sentDelay : Nat := 0
  sentAnnounce : Nat := 0
  /-- two-step Sync that waits for its Follow_Up: sequence, ingress time, correctionField -/
  syncWait : Option (Nat × Time72 × Int) := none
  /-- master's time in ns with corrections, and ingress time, of the last Sync -/
  sync : Option (Int × Time72) := none
  /-- Delay_Req in flight: sequence and, once sent, its egress time -/
  delay : Option (Nat × Option Time72) := none
  mean : Option Int := none
deriving DecidableEq, Repr

/-! ### Field update and settings (chapter 16) -/

/-- A settings record (R535). -/
structure Settings where
  format : Nat
  seq : Nat
  entries : List (Nat × BitVec 64)
deriving DecidableEq, Repr

/-- A configuration flash: boot control records, set regions, staging area and settings slots (R519, R520, R535); empty
octets are erased ones. -/
structure Flash where
  boot0 : Octets := []
  boot1 : Octets := []
  set0 : Octets := []
  set1 : Octets := []
  /-- header and part table of a staging record marked STAGED -/
  staged : Option Octets := none
  data : Octets := []
  /-- key slot 0 to 3 -/
  settings : SMap Settings := []
deriving DecidableEq, Repr

/-- The update session and what follows it (R525 to R534). -/
structure Update where
  holder : Option Hc := none
  header : Octets := []
  table : Octets := []
  /-- the next expected position X -/
  next : Nat := 0
  /-- instant of the session's last command -/
  since : Nat := 0
  /-- the running set as stored (header, part table, parts), its region of the flash it was taken from, and the instant of EV_READY -/
  running : Octets := []
  region : Nat := 0
  readyAt : Nat := 0
  /-- restart of an activation due -/
  restartAt : Option Nat := none
  /-- cycles of probation run before the present start -/
  probation : Nat := 0
  /-- firmware cold restart due after EV_PROBATION_EXPIRED -/
  expired : Option Nat := none
  /-- UPDATE_CONFIRM's later steps are due -/
  confirming : Bool := false
  /-- a session that a warm restart ended, reported after firmware start: holder and version -/
  abandoned : Option (Hc × Nat) := none
  /-- instant of the first stored value not yet in the settings -/
  dirty : Option Nat := none
deriving DecidableEq, Repr

/-! ### Backbone ports and pair mode (chapters 11 and 17) -/

/-- How the egress MAC treats a frame's time fields (R502). -/
inductive Stamp where
  | none
  | sync
  | delayReq
  | residence (since : Time72)
deriving DecidableEq, Repr

/-- A frame in an egress queue, without FCS: class 0 PTP event, 1 HSR forwarding, 2 other (R553). -/
structure EthFrame where
  cls : Nat
  octets : Octets
  stamp : Stamp := .none
  mirror : Bool := false
deriving DecidableEq, Repr

/-- An Ethernet port (R540 to R553). -/
structure EthPort where
  up : Bool := false
  egress : List EthFrame := []
  bucket : Option Bucket := none
  /-- last frame received -/
  rxAt : Nat := 0
  /-- EV_REDUNDANCY_FAULT stands -/
  fault : Bool := false
  /-- the device's own supervision frame sent here and not yet removed -/
  supAt : Option Nat := none
deriving DecidableEq, Repr

/-- A duplicate-discard entry (R548, R549). -/
structure DdEntry where
  src : Nat
  seq : Nat
  /-- members already seen -/
  seen : BitVec 2
  since : Nat
  forwarded : Bool
deriving DecidableEq, Repr

structure Backbone where
  /-- key port -/
  ports : SMap EthPort := []
  seqPrp : BitVec 16 := 0
  seqHsr : BitVec 16 := 0
  supSeqPrp : BitVec 16 := 0
  supSeqHsr : BitVec 16 := 0
  supPrpAt : Nat := 0
  supHsrAt : Nat := 0
  /-- entries in order of arrival, oldest first -/
  ddPrp : List DdEntry := []
  ddHsr : List DdEntry := []
  /-- partner messages accepted and not yet handled, from octet 0 -/
  partnerIn : List Octets := []
deriving DecidableEq, Repr

/-- A handover agreed or proposed (R372, R559). -/
structure Handover where
  asn : Nat
  /-- role that the unit takes: 1 active, 2 standby -/
  role : BitVec 2
  /-- CHANGE_CAUSE (R561) -/
  cause : Nat
deriving DecidableEq, Repr

/-- A PROPOSE sent and not yet accepted: its fields, instant, and the PAIR_ROLE behind it (R559). -/
structure Proposal where
  asn : Nat
  kind : Nat
  suspend : Bool
  at_ : Nat
  job : Option (Hc × Nat)
deriving DecidableEq, Repr

/-- Pair mode (R370 to R374, R555 to R561). -/
structure Pair where
  link : Bool := false
  helloRx : Option Nat := none
  helloTx : Nat := 0
  partnerRole : BitVec 2 := 0
  partnerPreferred : Bool := false
  partnerUnit : Bool := false
  partnerVersion : BitVec 36 := 0
  /-- acting as preferred after a conflict (R557) -/
  acting : Option Bool := none
  misses : Nat := 0
  /-- the last watched occurrence judged, and the last one heard -/
  judged : Option Nat := none
  heardAsn : Option Nat := none
  lastMiss : Nat := 0
  lastChange : Nat := 0
  /-- last instant at which a chain of the watched band was disabled or halted -/
  unfitAt : Nat := 0
  /-- role change due at a start of the watched slotframe: role, cause, and the ASN of that start -/
  due : Option (BitVec 2 × Nat × Nat) := none
  handover : Option Handover := none
  proposal : Option Proposal := none
  suspended : Bool := false
  heardTime : Time72 := 0
  changeAsn : Nat := 0
  changeCause : Nat := 0
  /-- Pair IEs of partner frames of the last second: domain, TAG, INDEX, instant (R558) -/
  overheard : List (BitVec 8 × BitVec 32 × BitVec 8 × Nat) := []
  /-- firmware start -/
  startAt : Nat := 0
deriving DecidableEq, Repr

/-! ### The device -/

/-- The state of the device. -/
structure State where
  /-- TIME cycles since the model's beginning -/
  now : Nat := 0
  /-- draws of free values so far: the model's own field (DESIGN CHOICE, log 5) -/
  freeCtr : Nat := 0
  /-- everything sent through the pins and links, oldest first: the model's own record -/
  out : List Output := []
  start : Start := {}
  clk : Clocks := {}
  pps : Pps := {}
  wd : Watchdog := {}
  tap : Tap := {}
  temp : Temp := {}
  pins : Pins := {}
  /-- the fuses (R90) -/
  otp : BitVec 16384 := 0
  /-- NVS repair records in the order written (R188) -/
  repairs : List (BitVec 64) := []
  /-- SHM, TBM, HIST and engine local memory by word address, and Anvil private memory by 0x800000 + index, which no address of
  R20 reaches (R19); an unlisted word has all 81 bits 0 (R163) -/
  mem : SMap PhysWord := []
  /-- values of engine registers written through ENG_DEBUG since the engine last ran, key 16384 × site + register -/
  engRegs : SMap Word := []
  /-- sites halted through ENG_DEBUG, key site -/
  halted : SMap Bool := []
  /-- runs and steps of each site since power-on, which set its registers anew, key site -/
  engEpoch : SMap Nat := []
  /-- engines by logical number: 0, 1 MC; 2 to 17 ME; 18 to 25 DV -/
  engines : SMap Engine := []
  /-- host contexts, key 0 to 3 -/
  ctxs : SMap Ctx := []
  jobId : Nat := 0
  /-- holders of resources, key 65536 × class + index -/
  owners : SMap Holder := []
  /-- locks of parameter groups -/
  locks : SMap Lock := []
  /-- EQ routes, key 4 × source + context -/
  routes : SMap Route := []
  /-- pin routes, key 4 × source + pin -/
  pinRoutes : SMap Bool := []
  /-- IRQn_LATCHk, key 8 × n + k -/
  latches : SMap (BitVec 32) := []
  /-- entries raised and not yet written to their EQ, oldest first -/
  evOut : List EvOut := []
  /-- stored parameter values, values in force, and the instant of a storage still pending, by ID -/
  params : SMap (BitVec 64) := []
  inForce : SMap (BitVec 64) := []
  storedAt : SMap Nat := []
  /-- counters by ID of COUNTER_READ -/
  counters : SMap Nat := []
  scrub : Scrub := {}
  errLog : ErrLog := {}
  /-- Frame FIFOs L, M, H and the timestamp FIFO -/
  fifos : SMap Fifo := []
  arbs : SMap Arb := []
  chains : SMap ChainSt := []
  quench : Quench := {}
  image : TableImage := {}
  /-- CAL_RUNs and TUNEs in progress, and background points put back at the tail: chain and point (R226, R227) -/
  calRuns : List CalRun := []
  tunes : List TuneJob := []
  calTail : List (Nat × Nat) := []
  rx : Rx := {}
  mac : Mac := {}
  injections : List Injection := []
  shape : Shape := {}
  /-- forwarding pipelines, key 0 and 1 -/
  fwds : SMap Fwd := []
  anvil : Anvil := {}
  tb : Timebase := {}
  /-- time-event units and countdown timers, key unit and timer -/
  teus : SMap Teu := []
  timers : SMap Timer := []
  /-- PTP ports, key port -/
  ptp : SMap PtpPort := []
  flashA : Flash := {}
  flashB : Flash := {}
  update : Update := {}
  bb : Backbone := {}
  pair : Pair := {}
  /-- DEV_STATUS.PAIR: 0 pair mode off, 1 active, 2 standby (R141, R555) -/
  pairRole : BitVec 2 := 0
  /-- commands that wait, first in first out: the model's own queue -/
  pending : List Instr := []
deriving DecidableEq, Repr

/-- The device when power comes up: held in a power-on cold reset, every register at the value its field states,
memories with no valid word, no command waiting. -/
def State.reset : State := {}

end Sys2Proof.Machine
end

