-- ==== Sys2Proof/Machine/Ops.lean ====
section
/-!
DEFINITION. The named operations over the state that every family uses: sparse tables, time, memory words with their
check code and poison, counters, the error log, and the raising of events.
-/

namespace Sys2Proof.Machine

/-! ### Sparse tables -/

/-- The entry of a sparse table at a key. -/
def tblGet {α : Type} : SMap α → Nat → Option α
  | [], _ => none
  | (k, v) :: m, a => if k = a then some v else tblGet m a

/-- The entry at a key, or the table's default. -/
def tblAt {α : Type} (m : SMap α) (a : Nat) (d : α) : α := (tblGet m a).getD d

/-- Sets the entry at a key; keys stay strictly rising. -/
def tblPut {α : Type} : SMap α → Nat → α → SMap α
  | [], a, x => [(a, x)]
  | (k, v) :: m, a, x =>
    if a < k then (a, x) :: (k, v) :: m
    else if a = k then (a, x) :: m
    else (k, v) :: tblPut m a x

/-- Removes the entry at a key. -/
def tblErase {α : Type} : SMap α → Nat → SMap α
  | [], _ => []
  | (k, v) :: m, a => if k = a then m else (k, v) :: tblErase m a

/-- Whether the keys of a table rise strictly, from a bound. -/
def keysRise {α : Type} : Nat → SMap α → Bool
  | _, [] => true
  | lo, (k, _) :: m => decide (lo ≤ k) && keysRise (k + 1) m

/-- The canonical form of the memory: keys strictly rising and no listed word equal to what an unlisted one holds. -/
def Memory.wf (m : SMap PhysWord) : Bool := keysRise 0 m && m.all (fun e => e.2 != 0)

/-- Stores a physical word; a word of all zeros is not listed. -/
def memPut (m : SMap PhysWord) (a : Nat) (w : PhysWord) : SMap PhysWord :=
  if w = 0 then tblErase m a else tblPut m a w

/-- The physical word at an address. -/
def memRaw (m : SMap PhysWord) (a : Nat) : PhysWord := tblAt m a 0

/-! ### Time -/

/-- TIME cycles in `n` µs, a part of a cycle counting as one (R63; log 4). -/
def usC (n : Nat) : Nat := (n * 4096 + 9) / 10
/-- TIME cycles in `n` ms. -/
def msC (n : Nat) : Nat := n * 409600
/-- TIME cycles in `n` s. -/
def secC (n : Nat) : Nat := n * 409600000
/-- TIME cycles in `n` ns, a part of a cycle counting as one. -/
def nsC (n : Nat) : Nat := (n * 4096 + 9999) / 10000

/-- The increment of the timebase at rate `r`, in units of 2^-80 s (R487). -/
def increment (r : BitVec 40) : Int := 2951479051793528 + (2951479051793528 * r.toInt) / 2 ^ 48

/-- The 72-bit time (R486). -/
def time (s : State) : Time72 := (s.tb.value >>> 48).setWidth 72

/-- Time runs on by `dt` TIME cycles before the command or event takes effect (R486, R487). -/
def advance (dt : Nat) (s : State) : State :=
  { s with now := s.now + dt,
           tb := { s.tb with value := s.tb.value + BitVec.ofInt 120 (dt * increment s.tb.rate) } }

/-- The 72-bit form of a span of `n` µs, rounded down. -/
def timeUs (n : Nat) : Nat := n * 2 ^ 32 / 1000000
/-- A 72-bit time of `n` whole seconds. -/
def timeSec (n : Nat) : Nat := n * 2 ^ 32

/-- One free value, fresh at each draw (log 5). -/
def drawFree (s : State) : State × Word := ({ s with freeCtr := s.freeCtr + 1 }, Config.freeWord s.freeCtr)

/-- Something leaves the device. -/
def emit (s : State) (o : Output) : State := { s with out := s.out ++ [o] }

/-! ### Octets and words -/

/-- Octet k of a word (R6). -/
def octetOf (w : Word) (k : Nat) : Octet := (w >>> (8 * k)).setWidth 8

/-- The nine octets of a word, octet 0 first. -/
def octetsOfWord (w : Word) : Octets := (List.range 9).map (octetOf w)

/-- The number that octets give, least significant first. -/
def natOfLe : Octets → Nat
  | [] => 0
  | o :: os => o.toNat + 256 * natOfLe os

/-- The number that octets give, most significant first. -/
def natOfBe (os : Octets) : Nat := os.foldl (fun n o => 256 * n + o.toNat) 0

/-- `n` octets of a number, least significant first. -/
def leOctets : Nat → Nat → Octets
  | 0, _ => []
  | n + 1, v => BitVec.ofNat 8 v :: leOctets n (v / 256)

/-- `n` octets of a number, most significant first. -/
def beOctets (n v : Nat) : Octets := (leOctets n v).reverse

/-- Packs an octet stream into words, first octet in octet 0 of the first word, the last word padded with zeros (R6). -/
def packWords : Nat → Octets → List Word
  | 0, _ => []
  | _, [] => []
  | n + 1, os => BitVec.ofNat 72 (natOfLe (os.take 9)) :: packWords n (os.drop 9)

/-- Words as an octet stream. -/
def unpackWords (ws : List Word) : Octets := ws.flatMap octetsOfWord

/-- Bits [hi:lo] of a word, as a number. -/
def fld {n : Nat} (w : BitVec n) (hi lo : Nat) : Nat := w.toNat / 2 ^ lo % 2 ^ (hi + 1 - lo)

/-- A number placed at bit `lo` of a word. -/
def at' (lo v : Nat) : Word := BitVec.ofNat 72 (v * 2 ^ lo)

/-- One bit of CRC-16 with polynomial 0x1021 (R105). -/
def crc16Bit (c : BitVec 16) (b : Bool) : BitVec 16 :=
  let c' := c <<< 1
  if (c.msb != b) then c' ^^^ 0x1021 else c'

/-- CRC-16/CCITT-FALSE over bits, in order (R91, R105). -/
def crc16Bits (bs : List Bool) : BitVec 16 := bs.foldl crc16Bit 0xFFFF

/-- The bits of an octet, most significant first. -/
def bitsMsb (o : Octet) : List Bool := (List.range 8).map (fun i => o.getLsbD (7 - i))

/-- CRC-16/CCITT-FALSE over octets, each most significant bit first (R105, R188). -/
def crc16 (os : Octets) : BitVec 16 := crc16Bits (os.flatMap bitsMsb)

/-- One octet of the reflected CRC-32 of polynomial 0x04C11DB7 (IEEE 802.3). -/
def crc32Octet (c : BitVec 32) (o : Octet) : BitVec 32 :=
  (List.range 8).foldl (fun c _ => if c.getLsbD 0 then (c >>> 1) ^^^ 0xEDB88320 else c >>> 1) (c ^^^ o.setWidth 32)

/-- The reflected CRC-32 of octets from an initial value, without final inversion. -/
def crc32From (init : BitVec 32) (os : Octets) : BitVec 32 := os.foldl crc32Octet init

/-- The CRC-32 of IEEE 802.3. -/
def crc32 (os : Octets) : BitVec 32 := ~~~ (crc32From 0xFFFFFFFF os)

/-! ### The check code and the physical word (chapter 06) -/

/-- The columns of data bits 0 to 71 (R165). -/
def eccColumns : List (BitVec 8) :=
  [0x07, 0x0B, 0x0D, 0x0E, 0x13, 0x15, 0x16, 0x19, 0x1A, 0x1C, 0x23, 0x25, 0x26, 0x29, 0x2A, 0x2C, 0x31, 0x32] ++
  [0x34, 0x38, 0x43, 0x45, 0x46, 0x49, 0x4A, 0x4C, 0x51, 0x52, 0x54, 0x58, 0x61, 0x62, 0x64, 0x68, 0x70, 0x83] ++
  [0x85, 0x86, 0x89, 0x8A, 0x8C, 0x91, 0x92, 0x94, 0x98, 0xA1, 0xA2, 0xA4, 0xA8, 0xB0, 0xC1, 0xC2, 0xC4, 0xC8] ++
  [0xD0, 0xE0] ++
  [0x1F, 0x2F, 0x37, 0x3B, 0x3D, 0x3E, 0x4F, 0x57, 0x5B, 0x5D, 0x5E, 0x67, 0x6B, 0x6D, 0x6E, 0x73]

/-- The exclusive OR of the columns of the set bits, from bit `i` on. -/
def eccFold (d : Word) : Nat → List (BitVec 8) → BitVec 8
  | _, [] => 0
  | i, c :: cs => (if d.getLsbD i then c else 0) ^^^ eccFold d (i + 1) cs

/-- The check bits of 72 data bits (R165). -/
def eccCheck (d : Word) : BitVec 8 := eccFold d 0 eccColumns

/-- A written word: data, its check bits, valid bit 1 (R163, R164). -/
def physOf (d : Word) : PhysWord := (1#1 ++ eccCheck d ++ d : BitVec 81)

/-- The same data under the poison signature, valid bit 1 (R169). -/
def physPoison (d : Word) : PhysWord := (1#1 ++ (eccCheck d ^^^ 0xFF) ++ d : BitVec 81)

def physData (w : PhysWord) : Word := w.setWidth 72
def physCheck (w : PhysWord) : BitVec 8 := (w >>> 72).setWidth 8
def physValid (w : PhysWord) : Bool := w.getLsbD 80

/-- The syndrome of a stored word (R166). -/
def syndrome (w : PhysWord) : BitVec 8 := physCheck w ^^^ eccCheck (physData w)

/-- What a read of a stored word finds (R166, R168). -/
inductive Found where
  | invalid
  | clean (d : Word)
  | corrected (d : Word)
  | poisoned
  | bad
deriving DecidableEq, Repr

/-- The index of the data bit whose column is `y`, counting from `i`. -/
def columnIndex (y : BitVec 8) : Nat → List (BitVec 8) → Option Nat
  | _, [] => none
  | i, c :: cs => if c = y then some i else columnIndex y (i + 1) cs

/-- Whether a syndrome has exactly one bit set. -/
def oneBit (y : BitVec 8) : Bool := (List.range 8).any (fun j => y == (1#8 <<< j))

/-- The decoding of a stored word (R166, R168). -/
def decodePhys (w : PhysWord) : Found :=
  if !physValid w then .invalid
  else
    let y := syndrome w
    if y = 0 then .clean (physData w)
    else if oneBit y then .corrected (physData w)
    else if y = 0xFF then .poisoned
    else match columnIndex y 0 eccColumns with
      | some i => .corrected (physData w ^^^ (1#72 <<< i))
      | none => .bad

/-- The regions of the word address space (R20). -/
inductive Region where
  | shm
  | tbm (pipe : Pipe)
  | hist (band : Band)
  | engine (site : Nat)
  /-- private memory, which no address of R20 reaches: index i stands at 0x800000 + i (R19) -/
  | anvil
  | reserved
deriving DecidableEq, Repr

def regionOf (a : Nat) : Region :=
  if a < 0x200000 then .shm
  else if a < 0x280000 then .tbm 0
  else if a < 0x300000 then .tbm 1
  else if a < 0x340000 then .hist 0
  else if a < 0x380000 then .hist 1
  else if a < 0x3C0000 then .hist 2
  else if a < 0x400000 then .reserved
  else if a < 0x474000 then .engine ((a - 0x400000) / 0x4000)
  else if 0x800000 ≤ a ∧ a < 0x810000 then .anvil
  else .reserved

/-- Bank number of an address (R183); 127 for a reserved one. -/
def bankOf (a : Nat) : Nat :=
  match regionOf a with
  | .shm => a / 16 % 32
  | .tbm 0 => 32 + (a - 0x200000) / 65536
  | .tbm 1 => 40 + (a - 0x280000) / 65536
  | .hist _ => 48 + (a - 0x300000) / 65536
  | .engine n => 64 + n
  | .anvil => 96
  | .reserved => 127

/-- Row of an address within its bank (R183). -/
def rowOf (a : Nat) : Nat :=
  match regionOf a with
  | .shm => a / 512
  | .tbm 0 => (a - 0x200000) % 65536 / 16
  | .tbm 1 => (a - 0x280000) % 65536 / 16
  | .hist _ => (a - 0x300000) % 65536 / 16
  | .engine _ => (a - 0x400000) % 16384 / 16
  | .anvil => (a - 0x800000) / 16
  | .reserved => 0

/-- Writes a whole word (R164); a reserved address ignores it (R20). -/
def writeWord (s : State) (a : Nat) (d : Word) : State :=
  match regionOf a with
  | .reserved => s
  | _ => { s with mem := tblPut s.mem a (physOf d) }

/-- Writes words from an address upward. -/
def writeWords (s : State) : Nat → List Word → State
  | _, [] => s
  | a, d :: ds => writeWords (writeWord s a d) (a + 1) ds

/-- Puts the poison signature on a word, its data left as stored (R169). -/
def poisonWord (s : State) (a : Nat) : State :=
  { s with mem := memPut s.mem a (physPoison (physData (memRaw s.mem a))) }

/-! ### Counters (R195) -/

/-- A counter's value. -/
def counter (s : State) (id : Nat) : Nat := tblAt s.counters id 0

/-- Adds to a counter, which saturates at 64 bits. -/
def bumpBy (s : State) (id n : Nat) : State :=
  { s with counters := tblPut s.counters id (min (2 ^ 64 - 1) (counter s id + n)) }

/-- Adds one to a counter. -/
def bump (s : State) (id : Nat) : State := bumpBy s id 1

/-- Sets a counter. -/
def setCounter (s : State) (id n : Nat) : State := { s with counters := tblPut s.counters id (min (2 ^ 64 - 1) n) }

/-- Adds one to a 32-bit saturating register. -/
def sat32 (v : BitVec 32) : BitVec 32 := if v = BitVec.allOnes 32 then v else v + 1

/-! ### Contexts and bindings -/

/-- A host context. -/
def ctx (s : State) (hc : Hc) : Ctx := tblAt s.ctxs hc.val { bind := hc.val + 1 }

/-- Stores a host context. -/
def setCtx (s : State) (hc : Hc) (c : Ctx) : State := { s with ctxs := tblPut s.ctxs hc.val c }

/-- The four contexts in order. -/
def allHc : List Hc := [0, 1, 2, 3]

/-- The binding code in force: the defaults in a recovery start (R97, R98). -/
def bindOf (s : State) (hc : Hc) : Nat := if s.start.phase = .recovery then hc.val + 1 else (ctx s hc).bind

/-- Whether a binding code names an attachment (R97). -/
def bindNames (code : Nat) : Att → Bool
  | .pcie e => code == e.val + 1
  | .hspi p => code == p.val + 3 || (code == 7 && p.val < 2) || (code == 8 && 2 ≤ p.val)

/-- The endpoint of a PCIe binding. -/
def pcieOf (code : Nat) : Option (Fin 2) := if code = 1 then some 0 else if code = 2 then some 1 else none

/-- Whether a PCIe endpoint is enabled by its strap: a disabled one leaves its lanes in electrical idle and trains no link (R41,
R42). -/
def endpointOn (s : State) (e : Fin 2) : Bool := s.start.straps.getLsbD (3 + e.val)

/-- Whether an attachment can carry anything: an HSPI port, or an enabled endpoint (R42). -/
def attachmentOn (s : State) : Att → Bool
  | .pcie e => endpointOn s e
  | .hspi _ => true

/-- The context that an attachment serves. -/
def ctxOf (s : State) (att : Att) : Option Hc :=
  if attachmentOn s att then allHc.find? (fun hc => bindNames (bindOf s hc) att) else none

/-- Whether a context is bound. -/
def bound (s : State) (hc : Hc) : Bool := bindOf s hc != 0

/-- Signals an MSI-X vector of the endpoint a context is bound to (R101, R159). -/
def signal (s : State) (hc : Hc) (vector : Nat) : State :=
  match pcieOf (bindOf s hc) with
  | some e => if endpointOn s e then emit s (.msix e vector) else s
  | none => s

/-! ### Events (R153 to R158) -/

/-- One context's share of a raise: written at once, or folded into the open window (R157). -/
def raiseRoute (src : Nat) (w2 w3 : Word) (s : State) (hc : Hc) : State :=
  let k := 4 * src + hc.val
  let r := tblAt s.routes k {}
  let e : Entry := { source := BitVec.ofNat 8 src, count := 1, time := time s, w2 := w2, w3 := w3 }
  if !r.on then s
  else if r.window = 0 then { s with evOut := s.evOut ++ [⟨hc, r.vector, e⟩] }
  else match r.opened with
    | none => { s with evOut := s.evOut ++ [⟨hc, r.vector, e⟩],
                       routes := tblPut s.routes k { r with opened := some (s.now + usC r.window) } }
    | some _ =>
      let e' := match r.held with
        | none => e
        | some h => { h with count := min 65535 (h.count + 1), w2 := w2, w3 := w3 }
      { s with routes := tblPut s.routes k { r with held := some e' } }

/-- Sets the latches of the pins a source is routed to (R144). -/
def raisePin (src : Nat) (s : State) (pin : Fin 4) : State :=
  if tblAt s.pinRoutes (4 * src + pin.val) false then
    let k := 8 * pin.val + src / 32
    { s with latches := tblPut s.latches k (tblAt s.latches k 0 ||| (1#32 <<< (src % 32))) }
  else s

/-- Raises an event source (R153, R155, R157). -/
def raiseEv (s : State) (src : Nat) (w2 w3 : Word) : State :=
  [0, 1, 2, 3].foldl (raisePin src) (allHc.foldl (raiseRoute src w2 w3) s)

/-- Writes an event to the EQ of every bound context of a list, whatever its routes (R156). DESIGN CHOICE (log 199): the entry is
written at once under vector 1 also for a context that has a route of the source with another vector or a window. -/
def raiseTo (s : State) (hcs : List Hc) (src : Nat) (w2 w3 : Word) : State :=
  let e : Entry := { source := BitVec.ofNat 8 src, count := 1, time := time s, w2 := w2, w3 := w3 }
  let s := { s with evOut := s.evOut ++ (hcs.filter (bound s)).map (fun hc => ⟨hc, 1, e⟩) }
  [0, 1, 2, 3].foldl (raisePin src) s

/-! ### The error log (R177) -/

/-- Entries held. -/
def logHeld (l : ErrLog) : Nat := (l.entries.filter (fun e => e.2.a.getLsbD 31)).length

/-- The held entry of an address and kind. -/
def logFind (l : ErrLog) (addr kind : Nat) : Option Nat :=
  (l.entries.find? (fun e => e.2.a.getLsbD 31 && fld e.2.a 22 0 == addr % 2 ^ 23 && fld e.2.a 26 23 == kind)).map (·.1)

/-- Logs an error; a further occurrence of a held address and kind sets REPEAT, and a full log loses its oldest
entry (R177). -/
def logError (s : State) (addr kind consumer : Nat) (syn : BitVec 8) (bank : Nat) : State :=
  match logFind s.errLog addr kind with
  | some i =>
    let e := tblAt s.errLog.entries i ⟨0, 0⟩
    { s with errLog := { s.errLog with entries := tblPut s.errLog.entries i { e with b := e.b ||| 0x8000 } } }
  | none =>
    let e : LogEntry :=
      { a := BitVec.ofNat 32 (addr % 2 ^ 23 + kind * 2 ^ 23 + consumer * 2 ^ 27 + 2 ^ 31),
        b := BitVec.ofNat 32 (syn.toNat + bank * 2 ^ 8 + (fld (time s) 47 32) * 2 ^ 16) }
    let full := logHeld s.errLog == 16
    let l := s.errLog
    let lost := if full ∧ l.overwritten ≠ 65535 then l.overwritten + 1 else l.overwritten
    let s := { s with errLog := { l with entries := tblPut l.entries l.next.toNat e, next := l.next + 1,
                                         overwritten := lost } }
    if full then raiseEv s 39 (at' 0 lost.toNat) 0 else s

/-! ### Consumer reads (R166 to R171) -/

/-- The corrected-read counter of a region (R167, R195). -/
def ceCounter : Region → Nat
  | .shm => 0x100
  | .tbm _ => 0x101
  | .engine _ => 0x102
  | .hist _ => 0x103
  | .anvil => 0x104
  | .reserved => 0x100

/-- A consumer meets a poisoned or uncorrectable word: its counter and EV_ECC_POISON_READ (R171). -/
def meetPoison (s : State) (a code : Nat) (extra : Word) : State :=
  raiseEv (bump s (0x140 + code)) 33 (at' 0 (a % 2 ^ 23) ||| at' 24 code ||| extra) 0

/-- What a consumer's read of a word delivers: its data, or nothing where the word is poisoned or uncorrectable; an
uncorrectable word outside HIST is poisoned by the port (R166 to R171, R176). `extra` fills the event's SQ fields. -/
def readWordX (s : State) (a code : Nat) (extra : Word) : State × Option Word :=
  match regionOf a with
  | .reserved => (s, some 0)
  | r =>
    match decodePhys (memRaw s.mem a) with
    | .invalid => (s, some 0)
    | .clean d => (s, some d)
    | .corrected d => (bump s (ceCounter r), some d)
    | .poisoned => (logError (meetPoison s a code extra) a 3 code 0xFF (bankOf a), none)
    | .bad =>
      match r with
      | .hist _ => (meetPoison s a code extra, none)
      | _ =>
        let syn := syndrome (memRaw s.mem a)
        (logError (meetPoison (bump (poisonWord s a) 0x108) a code extra) a 2 code syn (bankOf a), none)

/-- A consumer's read of a word. -/
def readWord (s : State) (a code : Nat) : State × Option Word := readWordX s a code 0

/-- A consumer's read of `n` words; nothing where one of them is poisoned, with the index of the first. -/
def readWords (code : Nat) : Nat → Nat → State → State × (List Word ⊕ Nat)
  | 0, _, s => (s, .inl [])
  | n + 1, a, s =>
    match readWord s a code with
    | (s, none) => (s, .inr 0)
    | (s, some d) =>
      match readWords code n (a + 1) s with
      | (s, .inl ds) => (s, .inl (d :: ds))
      | (s, .inr i) => (s, .inr (i + 1))

/-- What a consumer's read of a word does besides delivering data: a correction is counted, a poisoned or uncorrectable word is met
(R166 to R171). -/
def touch (s : State) (a code : Nat) : State := (readWord s a code).1

/-- A read by a block that has no consumer code in R171: a correction is counted, an uncorrectable word is poisoned by the port
and counted (R167, R170; log 200). -/
def touchBlock (s : State) (a : Nat) : State :=
  match regionOf a, decodePhys (memRaw s.mem a) with
  | .reserved, _ => s
  | r, .corrected _ => bump s (ceCounter r)
  | _, .bad => bump (poisonWord s a) 0x108
  | _, _ => s

/-- The data a block reads of its own tables, a poisoned word read as zero: the plain value of a stored word. -/
def peek (s : State) (a : Nat) : Word :=
  match decodePhys (memRaw s.mem a) with
  | .clean d => d
  | .corrected d => d
  | _ => 0

/-! ### Small things -/

/-- A stored parameter value waits to be written to the settings (R151). -/
def noteDirty (s : State) : State := { s with update := { s.update with dirty := some (s.update.dirty.getD s.now) } }

/-- Whether the firmware runs and serves. -/
def running (s : State) : Bool := s.start.phase == .ready

/-- What a device event or command of the running firmware does: time runs on, and nothing else happens while the
device is in reset or starting. -/
def live (dt : Nat) (s : State) (f : State → State) : Host.Outcome State Fault Refusal :=
  .next (let s := advance dt s; if running s then f s else s)

/-- What a physical event does, whatever the state of the start. -/
def always (dt : Nat) (s : State) (f : State → State) : Host.Outcome State Fault Refusal :=
  .next (f (advance dt s))

/-- Whether a deadline has come. -/
def due (s : State) (t : Nat) : Bool := decide (t ≤ s.now)

end Sys2Proof.Machine
end

