-- ==== Sys2Proof/Machine/Crypto.lean ====
section
/-!
DEFINITION. The cryptographic algorithms that the rules name by their standards: SHA-256 (FIPS 180-4), AES (FIPS 197), the AES key
unwrap (RFC 3394), AES-GCM (SP 800-38D), CCM* (IEEE 802.15.4-2020) and ECDSA over P-256 (FIPS 186-5). The spec cites the standards
and does not repeat them: PRESUMED (log 7). Everything is computed on natural numbers, so that it can be evaluated.
-/

namespace Sys2Proof.Machine

/-! ### SHA-256 (FIPS 180-4) -/

/-- The constants K of FIPS 180-4, 4.2.2. -/
def shaK : List Nat :=
  [0x428A2F98, 0x71374491, 0xB5C0FBCF, 0xE9B5DBA5, 0x3956C25B, 0x59F111F1, 0x923F82A4, 0xAB1C5ED5,
   0xD807AA98, 0x12835B01, 0x243185BE, 0x550C7DC3, 0x72BE5D74, 0x80DEB1FE, 0x9BDC06A7, 0xC19BF174] ++
  [0xE49B69C1, 0xEFBE4786, 0x0FC19DC6, 0x240CA1CC, 0x2DE92C6F, 0x4A7484AA, 0x5CB0A9DC, 0x76F988DA,
   0x983E5152, 0xA831C66D, 0xB00327C8, 0xBF597FC7, 0xC6E00BF3, 0xD5A79147, 0x06CA6351, 0x14292967] ++
  [0x27B70A85, 0x2E1B2138, 0x4D2C6DFC, 0x53380D13, 0x650A7354, 0x766A0ABB, 0x81C2C92E, 0x92722C85,
   0xA2BFE8A1, 0xA81A664B, 0xC24B8B70, 0xC76C51A3, 0xD192E819, 0xD6990624, 0xF40E3585, 0x106AA070] ++
  [0x19A4C116, 0x1E376C08, 0x2748774C, 0x34B0BCB5, 0x391C0CB3, 0x4ED8AA4A, 0x5B9CCA4F, 0x682E6FF3,
   0x748F82EE, 0x78A5636F, 0x84C87814, 0x8CC70208, 0x90BEFFFA, 0xA4506CEB, 0xBEF9A3F7, 0xC67178F2]

/-- The initial hash value of FIPS 180-4, 5.3.3. -/
def shaH : List Nat :=
  [0x6A09E667, 0xBB67AE85, 0x3C6EF372, 0xA54FF53A, 0x510E527F, 0x9B05688C, 0x1F83D9AB, 0x5BE0CD19]

/-- A 32-bit word rotated right. -/
def rotr32 (x n : Nat) : Nat := (x >>> n ||| x <<< (32 - n)) % 2 ^ 32

/-- Lengthens the message schedule, newest word first (FIPS 180-4, 6.2.2 step 1). -/
def shaSchedule : Nat → List Nat → List Nat
  | 0, w => w
  | n + 1, w =>
    let x := w.getD 14 0
    let y := w.getD 1 0
    let s0 := rotr32 x 7 ^^^ rotr32 x 18 ^^^ (x >>> 3)
    let s1 := rotr32 y 17 ^^^ rotr32 y 19 ^^^ (y >>> 10)
    shaSchedule n ((s1 + w.getD 6 0 + s0 + w.getD 15 0) % 2 ^ 32 :: w)

/-- One round on the working variables a to h, with its constant and its schedule word. -/
def shaRound (v : List Nat) (kw : Nat × Nat) : List Nat :=
  match v with
  | [a, b, c, d, e, f, g, h] =>
    let s1 := rotr32 e 6 ^^^ rotr32 e 11 ^^^ rotr32 e 25
    let ch := (e &&& f) ^^^ ((2 ^ 32 - 1 - e) &&& g)
    let t1 := h + s1 + ch + kw.1 + kw.2
    let s0 := rotr32 a 2 ^^^ rotr32 a 13 ^^^ rotr32 a 22
    let maj := (a &&& b) ^^^ (a &&& c) ^^^ (b &&& c)
    [(t1 + s0 + maj) % 2 ^ 32, a, b, c, (d + t1) % 2 ^ 32, e, f, g]
  | _ => v

/-- The hash value after one block of 64 octets. -/
def shaBlock (v : List Nat) (block : Octets) : List Nat :=
  let w := (List.range 16).map (fun i => natOfBe ((block.drop (4 * i)).take 4))
  let u := (shaK.zip (shaSchedule 48 w.reverse).reverse).foldl shaRound v
  (v.zip u).map (fun p => (p.1 + p.2) % 2 ^ 32)

/-- The message with its padding and its length in bits (FIPS 180-4, 5.1.1). -/
def shaPad (m : Octets) : Octets :=
  m ++ [0x80] ++ List.replicate ((119 - m.length % 64) % 64) 0 ++ beOctets 8 (8 * m.length)

/-- SHA-256 (R83, R451, R453, R474, R481, R524). -/
def sha256 (m : Octets) : BitVec 256 :=
  let p := shaPad m
  BitVec.ofNat 256 (((List.range (p.length / 64)).foldl (fun v i => shaBlock v ((p.drop (64 * i)).take 64)) shaH).foldl
    (fun n x => 2 ^ 32 * n + x) 0)

/-! ### AES (FIPS 197) -/

/-- The S-box, a row of sixteen octets for each high digit (FIPS 197, table 4). -/
def aesSbox : List Nat :=
  [0x637C777BF26B6FC53001672BFED7AB76, 0xCA82C97DFA5947F0ADD4A2AF9CA472C0, 0xB7FD9326363FF7CC34A5E5F171D83115,
   0x04C723C31896059A071280E2EB27B275, 0x09832C1A1B6E5AA0523BD6B329E32F84, 0x53D100ED20FCB15B6ACBBE394A4C58CF,
   0xD0EFAAFB434D338545F9027F503C9FA8, 0x51A3408F929D38F5BCB6DA2110FFF3D2, 0xCD0C13EC5F974417C4A77E3D645D1973,
   0x60814FDC222A908846EEB814DE5E0BDB, 0xE0323A0A4906245CC2D3AC629195E479, 0xE7C8376D8DD54EA96C56F4EA657AAE08,
   0xBA78252E1CA6B4C6E8DD741F4BBD8B8A, 0x703EB5664803F60E613557B986C11D9E, 0xE1F8981169D98E949B1E87E9CE5528DF,
   0x8CA1890DBFE6426841992D0FB054BB16]

/-- The inverse S-box (FIPS 197, table 6). -/
def aesInvSbox : List Nat :=
  [0x52096AD53036A538BF40A39E81F3D7FB, 0x7CE339829B2FFF87348E4344C4DEE9CB, 0x547B9432A6C2233DEE4C950B42FAC34E,
   0x082EA16628D924B2765BA2496D8BD125, 0x72F8F66486689816D4A45CCC5D65B692, 0x6C704850FDEDB9DA5E154657A78D9D84,
   0x90D8AB008CBCD30AF7E45805B8B34506, 0xD02C1E8FCA3F0F02C1AFBD0301138A6B, 0x3A9111414F67DCEA97F2CFCEF0B4E673,
   0x96AC7422E7AD3585E2F937E81C75DF6E, 0x47F11A711D29C5896FB7620EAA18BE1B, 0xFC563E4BC6D279209ADBC0FE78CD5AF4,
   0x1FDDA8338807C731B11210592780EC5F, 0x60517FA919B54A0D2DE57A9F93C99CEF, 0xA0E03B4DAE2AF5B0C8EBBB3C83539961,
   0x172B047EBA77D626E169146355210C7D]

/-- The octet that a table of sixteen rows gives for x. -/
def boxAt (box : List Nat) (x : Nat) : Nat := (box.getD (x / 16) 0 >>> (8 * (15 - x % 16))) % 256

/-- Multiplication by x in GF(2^8). -/
def xtime (x : Nat) : Nat := if x < 128 then 2 * x else (2 * x ^^^ 0x11B) % 256

/-- The octets of 32-bit words. -/
def octetsOfWords32 (ws : List Nat) : List Nat := ws.flatMap (fun w => [w >>> 24 % 256, w >>> 16 % 256, w >>> 8 % 256, w % 256])

/-- SubWord of the key expansion. -/
def subWord (w : Nat) : Nat := (octetsOfWords32 [w]).foldl (fun n x => 256 * n + boxAt aesSbox x) 0

/-- Lengthens a key schedule of `nk`-word keys from word `i` on, newest word first, with the round constant due next. -/
def aesSchedule (nk : Nat) : Nat → Nat → Nat → List Nat → List Nat
  | 0, _, _, ws => ws
  | n + 1, i, rcon, ws =>
    let t := ws.getD 0 0
    let first := i % nk == 0
    let t := if first then subWord ((t <<< 8 ||| t >>> 24) % 2 ^ 32) ^^^ rcon <<< 24 else if nk == 8 && i % nk == 4 then subWord t else t
    aesSchedule nk n (i + 1) (if first then xtime rcon else rcon) ((t ^^^ ws.getD (nk - 1) 0) :: ws)

/-- The round keys of a key of 16 or 32 octets, 16 octets each, first round first. -/
def aesKeys (key : Octets) : List (List Nat) :=
  let nk := if key.length = 16 then 4 else 8
  let n := 4 * (nk + 7)
  let ws := ((List.range nk).map (fun i => natOfBe ((key.drop (4 * i)).take 4))).reverse
  let os := octetsOfWords32 (aesSchedule nk (n - nk) nk 1 ws).reverse
  (List.range (nk + 7)).map (fun r => (os.drop (16 * r)).take 16)

/-- Adds a round key. -/
def addKey (s k : List Nat) : List Nat := (s.zip k).map (fun p => p.1 ^^^ p.2)

/-- SubBytes and ShiftRows. -/
def subShift (s : List Nat) : List Nat := (List.range 16).map (fun i => boxAt aesSbox (s.getD ((i + 4 * (i % 4)) % 16) 0))

/-- Their inverses. -/
def invSubShift (s : List Nat) : List Nat := (List.range 16).map (fun i => boxAt aesInvSbox (s.getD ((i + 12 * (i % 4)) % 16) 0))

/-- MixColumns. -/
def mixColumns : List Nat → List Nat
  | a :: b :: c :: d :: s =>
    let t := a ^^^ b ^^^ c ^^^ d
    (a ^^^ t ^^^ xtime (a ^^^ b)) :: (b ^^^ t ^^^ xtime (b ^^^ c)) :: (c ^^^ t ^^^ xtime (c ^^^ d)) :: (d ^^^ t ^^^ xtime (d ^^^ a)) ::
      mixColumns s
  | s => s

/-- What InvMixColumns does to a column before MixColumns. -/
def preMix : List Nat → List Nat
  | a :: b :: c :: d :: s =>
    let u := xtime (xtime (a ^^^ c))
    let v := xtime (xtime (b ^^^ d))
    (a ^^^ u) :: (b ^^^ v) :: (c ^^^ u) :: (d ^^^ v) :: preMix s
  | s => s

/-- The cipher on a block, with its round keys. -/
def aesCipher (keys : List (List Nat)) (block : List Nat) : List Nat :=
  let s := ((keys.drop 1).dropLast).foldl (fun s k => addKey (mixColumns (subShift s)) k) (addKey block (keys.getD 0 []))
  addKey (subShift s) (keys.getLastD [])

/-- The inverse cipher. -/
def aesDecipher (keys : List (List Nat)) (block : List Nat) : List Nat :=
  let s := ((keys.drop 1).dropLast).reverse.foldl (fun s k => mixColumns (preMix (addKey (invSubShift s) k)))
    (addKey block (keys.getLastD []))
  addKey (invSubShift s) (keys.getD 0 [])

/-- A block as a number, its first octet the most significant. -/
def natOfBytes (s : List Nat) : Nat := s.foldl (fun n x => 256 * n + x) 0

/-- The 16 octets of a block's number. -/
def bytesOfNat (n : Nat) : List Nat := (List.range 16).map (fun i => n >>> (8 * (15 - i)) % 256)

/-- One AES block as a number. -/
def aesNat (keys : List (List Nat)) (block : Nat) : Nat := natOfBytes (aesCipher keys (bytesOfNat block))

/-- One AES block, the key's length giving AES-128 or AES-256 (R451). -/
def aesBlock (key block : Octets) : BitVec 128 := BitVec.ofNat 128 (aesNat (aesKeys key) (natOfBe block))

/-! ### AES key unwrap (RFC 3394) -/

/-- The steps of the unwrap from step `t` down, on A and the n blocks R. -/
def unwrapSteps (keys : List (List Nat)) (n : Nat) : Nat → Nat → List Nat → Nat × List Nat
  | 0, a, r => (a, r)
  | t + 1, a, r =>
    let b := natOfBytes (aesDecipher keys (bytesOfNat ((a ^^^ (t + 1)) * 2 ^ 64 + r.getD (t % n) 0)))
    unwrapSteps keys n t (b / 2 ^ 64) (r.set (t % n) (b % 2 ^ 64))

/-- AES key unwrap with its integrity check (R472, R477). -/
def aesUnwrap (kek wrapped : Octets) : Option Octets :=
  let n := wrapped.length / 8 - 1
  let r := (List.range n).map (fun i => natOfBe ((wrapped.drop (8 * i + 8)).take 8))
  let u := unwrapSteps (aesKeys kek) n (6 * n) (natOfBe (wrapped.take 8)) r
  if wrapped.length % 8 = 0 ∧ 24 ≤ wrapped.length ∧ u.1 = 0xA6A6A6A6A6A6A6A6 then some (u.2.flatMap (beOctets 8)) else none

/-! ### AES-GCM (SP 800-38D) -/

/-- Multiplication in GF(2^128) by the bits of `x` from bit `n` down. -/
def gcmMul : Nat → Nat → Nat → Nat → Nat
  | 0, _, _, z => z
  | n + 1, x, v, z =>
    gcmMul n x (if v % 2 = 1 then v / 2 ^^^ 0xE1 * 2 ^ 120 else v / 2) (if x.testBit n then z ^^^ v else z)

/-- The blocks of a string, the last one filled with zeros. -/
def blocksOf (os : Octets) : List Nat :=
  (List.range ((os.length + 15) / 16)).map (fun i =>
    let b := (os.drop (16 * i)).take 16
    natOfBe (b ++ List.replicate (16 - b.length) 0))

/-- GHASH with the subkey h. -/
def ghash (h : Nat) (bs : List Nat) : Nat := bs.foldl (fun y b => gcmMul 128 (y ^^^ b) h 0) 0

/-- Octets under the key stream of the counter blocks `base + 1`, `base + 2`, … -/
def counterMode (keys : List (List Nat)) (base : Nat) (os : Octets) : Octets :=
  ((blocksOf os).zipIdx.flatMap (fun p => beOctets 16 (p.1 ^^^ aesNat keys (base + p.2 + 1)))).take os.length

/-- The tag of a cipher text under a nonce of 12 octets. -/
def gcmTag (keys : List (List Nat)) (nonce aad cipher : Octets) : Octets :=
  beOctets 16 (ghash (aesNat keys 0) (blocksOf aad ++ blocksOf cipher ++ [8 * aad.length * 2 ^ 64 + 8 * cipher.length]) ^^^
    aesNat keys (natOfBe nonce * 2 ^ 32 + 1))

/-- AES-256-GCM with a nonce of 12 octets: cipher text and 16-octet tag (R467). -/
def gcmSeal (key nonce aad plain : Octets) : Octets :=
  let c := counterMode (aesKeys key) (natOfBe nonce * 2 ^ 32 + 1) plain
  c ++ gcmTag (aesKeys key) nonce aad c

/-- AES-256-GCM: the plain text where the tag verifies (R469). -/
def gcmOpen (key nonce aad sealed : Octets) : Option Octets :=
  let c := sealed.take (sealed.length - 16)
  if 16 ≤ sealed.length ∧ gcmTag (aesKeys key) nonce aad c = sealed.drop (sealed.length - 16) then
    some (counterMode (aesKeys key) (natOfBe nonce * 2 ^ 32 + 1) c)
  else none

/-! ### CCM* (IEEE 802.15.4-2020, with a nonce of 13 octets) -/

/-- Octets of MIC of a security level. -/
def ccmMicLen (level : Nat) : Nat := [0, 4, 8, 16].getD (level % 4) 0

/-- The authentication tag before its encryption. -/
def ccmTag (keys : List (List Nat)) (nonce aData mData : Octets) (m : Nat) : Octets :=
  let flags := (if aData.isEmpty then 0 else 64) + 8 * ((m - 2) / 2) + 1
  let b0 := (flags * 2 ^ 104 + natOfBe nonce) * 2 ^ 16 + mData.length
  let auth := if aData.isEmpty then [] else blocksOf (beOctets 2 aData.length ++ aData)
  (beOctets 16 ((b0 :: auth ++ blocksOf mData).foldl (fun x b => aesNat keys (x ^^^ b)) 0)).take m

/-- Counter block 0. -/
def ccmCounter (nonce : Octets) : Nat := (2 ^ 104 + natOfBe nonce) * 2 ^ 16

/-- Whether a security level encrypts. -/
def ccmEncrypts (level : Nat) : Bool := decide (4 ≤ level)

/-- Octets under the key stream, at the levels that encrypt. -/
def ccmText (keys : List (List Nat)) (nonce text : Octets) (level : Nat) : Octets :=
  if ccmEncrypts level then counterMode keys (ccmCounter nonce) text else text

/-- What CCM* authenticates as a and m data at a level: without encryption, m data count as a data. -/
def ccmMic (keys : List (List Nat)) (nonce aData mData : Octets) (level : Nat) : Octets :=
  let m := ccmMicLen level
  let t := if ccmEncrypts level then ccmTag keys nonce aData mData m else ccmTag keys nonce (aData ++ mData) [] m
  (beOctets 16 (natOfBe (t ++ List.replicate (16 - m) 0) ^^^ aesNat keys (ccmCounter nonce))).take m

/-- CCM*: the secured m data and its MIC (R352). -/
def ccmSeal (key nonce aData mData : Octets) (level : Nat) : Octets :=
  let keys := aesKeys key
  ccmText keys nonce mData level ++ ccmMic keys nonce aData mData level

/-- CCM*: the m data where the MIC verifies (R352, R353). -/
def ccmOpen (key nonce aData secured : Octets) (level : Nat) : Option Octets :=
  let keys := aesKeys key
  let n := secured.length - ccmMicLen level
  let mData := ccmText keys nonce (secured.take n) level
  if ccmMicLen level ≤ secured.length ∧ ccmMic keys nonce aData mData level = secured.drop n then some mData else none

/-! ### ECDSA over P-256 (FIPS 186-5) -/

/-- The prime, the coefficient b, the base point and the order of P-256 (SP 800-186). -/
def p256P : Nat := 0xFFFFFFFF00000001000000000000000000000000FFFFFFFFFFFFFFFFFFFFFFFF

def p256B : Nat := 0x5AC635D8AA3A93E7B3EBBD55769886BC651D06B0CC53B0F63BCE3C3E27D2604B

def p256Gx : Nat := 0x6B17D1F2E12C4247F8BCE6E563A440F277037D812DEB33A0F4A13945D898C296

def p256Gy : Nat := 0x4FE342E2FE1A7F9B8EE7EB4A7C0F9E162BCE33576B315ECECBB6406837BF51F5

def p256Order : Nat := 0xFFFFFFFF00000000FFFFFFFFFFFFFFFFBCE6FAADA7179E84F3B9CAC2FC632551

/-- Powers modulo `m`, by the `n` lowest bits of the exponent. -/
def powMod (m : Nat) : Nat → Nat → Nat → Nat
  | 0, _, _ => 1
  | n + 1, e, b =>
    let h := powMod m n (e / 2) b
    if e % 2 = 1 then h * h % m * b % m else h * h % m

/-- The inverse modulo a prime of 256 bits (Fermat). -/
def invMod (m x : Nat) : Nat := powMod m 256 (m - 2) x

/-- Subtraction modulo the prime. -/
def subP (a b : Nat) : Nat := (a + p256P - b % p256P) % p256P

/-- A point in Jacobian coordinates; Z = 0 is the point at infinity. -/
structure P256Point where
  x : Nat
  y : Nat
  z : Nat
deriving DecidableEq, Repr

def P256Point.infinity : P256Point := ⟨1, 1, 0⟩

/-- Twice a point. -/
def p256Double (p : P256Point) : P256Point :=
  let delta := p.z * p.z % p256P
  let gamma := p.y * p.y % p256P
  let beta := p.x * gamma % p256P
  let alpha := 3 * (subP p.x delta * (p.x + delta)) % p256P
  let x := subP (alpha * alpha) (8 * beta)
  ⟨x, subP (alpha * subP (4 * beta) x) (8 * (gamma * gamma)), 2 * (p.y * p.z) % p256P⟩

/-- The sum of two points. -/
def p256Add (p q : P256Point) : P256Point :=
  if p.z = 0 then q
  else if q.z = 0 then p
  else
    let pp := p.z * p.z % p256P
    let qq := q.z * q.z % p256P
    let u := p.x * qq % p256P
    let h := subP (q.x * pp) u
    let s := p.y * qq % p256P * q.z % p256P
    let r := subP (q.y * pp % p256P * p.z) s
    if h = 0 then (if r = 0 then p256Double p else .infinity)
    else
      let hh := h * h % p256P
      let hhh := hh * h % p256P
      let v := u * hh % p256P
      let x := subP (subP (r * r) hhh) (2 * v)
      ⟨x, subP (r * subP v x) (s * hhh), h * (p.z * q.z % p256P) % p256P⟩

/-- A multiple of a point, by the `n` lowest bits of the factor. -/
def p256Mul (p : P256Point) : Nat → Nat → P256Point
  | 0, _ => .infinity
  | n + 1, k =>
    let d := p256Double (p256Mul p n (k / 2))
    if k % 2 = 1 then p256Add d p else d

/-- The affine coordinates of a point that is not at infinity. -/
def p256Affine (p : P256Point) : Nat × Nat :=
  let i := invMod p256P p.z
  let ii := i * i % p256P
  (p.x * ii % p256P, p.y * ii % p256P * i % p256P)

def p256Base : P256Point := ⟨p256Gx, p256Gy, 1⟩

/-- Whether X and Y, 32 octets each, give a point of the curve (R474). -/
def p256Valid (xy : Octets) : Bool :=
  let x := natOfBe (xy.take 32)
  let y := natOfBe (xy.drop 32)
  xy.length == 64 && decide (x < p256P ∧ y < p256P) && y * y % p256P == subP (x * x * x + p256B) (3 * x)

/-- The public point of a scalar, X then Y (R450, R481). -/
def p256Public (scalar : Nat) : Octets :=
  let a := p256Affine (p256Mul p256Base 256 scalar)
  beOctets 32 a.1 ++ beOctets 32 a.2

/-- ECDSA verification: public key X then Y, digest, signature r then s (R474, R524). -/
def ecdsaVerify (key : Octets) (digest : BitVec 256) (signature : Octets) : Bool :=
  let r := natOfBe (signature.take 32)
  let s := natOfBe (signature.drop 32)
  let w := invMod p256Order s
  let q : P256Point := ⟨natOfBe (key.take 32), natOfBe (key.drop 32), 1⟩
  let sum := p256Add (p256Mul p256Base 256 (digest.toNat * w % p256Order)) (p256Mul q 256 (r * w % p256Order))
  p256Valid key && signature.length == 64 && decide (0 < r ∧ r < p256Order ∧ 0 < s ∧ s < p256Order ∧ sum.z ≠ 0) &&
    (p256Affine sum).1 % p256Order == r

/-- An ECDSA signature, r then s, with the secret number k (R481). -/
def ecdsaSign (scalar : Nat) (digest : BitVec 256) (k : Nat) : Octets :=
  let r := (p256Affine (p256Mul p256Base 256 k)).1 % p256Order
  let s := invMod p256Order k * ((digest.toNat + r * scalar) % p256Order) % p256Order
  beOctets 32 r ++ beOctets 32 s

end Sys2Proof.Machine
end

