-- ==== Sys2Proof/Machine/Params.lean ====
section
/-!
DEFINITION. The parameter space (R145 to R150): one row for each parameter table entry of the chapters, with its
range, default and apply timing, and the reading and storing of values.
-/

namespace Sys2Proof.Machine

/-- When a stored value takes effect (R149). -/
inductive Apply where
  | immediate
  /-- next start of the parameter's own slotframe -/
  | ownSlotframe
  /-- next start of the governing slotframe of the band that the instance belongs to, so many instances per band -/
  | bandSlotframe (per : Nat)
  /-- next start of the lowest running slotframe -/
  | anySlotframe
  /-- binding of context `hc` (R97) -/
  | bind
  /-- at once while the slotframe is disabled, otherwise at its next disable (R342) -/
  | slotframeStop
  /-- while every slotframe is disabled -/
  | allSlotframesStop
  /-- the next warm restart or cold reset -/
  | restart
  /-- the next cold reset -/
  | coldReset
  /-- the next start -/
  | nextStart
  | scrubPass
  | sweepPass
  | meterTick
  | nextPulse
  /-- the port's next link training or link-up -/
  | linkUp (port : Nat)
  | activation
  /-- read-only -/
  | readOnly
deriving DecidableEq, Repr

/-- One entry of a parameter table: its IDs, range, default and apply timing. -/
structure ParamRow where
  first : Nat
  last : Nat
  lo : Int
  hi : Int
  dflt : Int
  apply : Apply
deriving DecidableEq, Repr

/-- Groups 0 to 7: reference, PPS, host, events, thermal and radio (R73, R97, R152, R62, R258, R336). -/
def paramRowsA : List ParamRow :=
  [⟨0x0010, 0x0010, 10, 60000, 1000, .immediate⟩, ⟨0x0011, 0x0011, 0, 65535, 0, .immediate⟩,
   ⟨0x0012, 0x0012, 0, 1, 0, .immediate⟩, ⟨0x0013, 0x0013, 20, 100000, 100, .immediate⟩,
   ⟨0x0014, 0x0014, 1, 1000000, 1000, .immediate⟩,
   ⟨0x0020, 0x0020, 0, 8, 1, .bind⟩, ⟨0x0021, 0x0021, 0, 8, 2, .bind⟩, ⟨0x0022, 0x0022, 0, 8, 3, .bind⟩,
   ⟨0x0023, 0x0023, 0, 8, 4, .bind⟩,
   ⟨0x0024, 0x0024, 0, 60000, 1000, .immediate⟩, ⟨0x0025, 0x0025, 0, 15, 0, .immediate⟩,
   ⟨0x0026, 0x0026, 100, 60000, 2000, .immediate⟩, ⟨0x0027, 0x0027, 0, 1000, 0, .immediate⟩,
   ⟨0x0400, 0x0400, 0, 255, 0x83, .coldReset⟩, ⟨0x0401, 0x0401, 0, 10000, 0, .immediate⟩,
   ⟨0x0C00, 0x0C00, 80, 115, 110, .immediate⟩] ++
  [⟨0x1000, 0x1002, 0, 7, 0, .immediate⟩, ⟨0x1400, 0x140B, 0, 1, 1, .immediate⟩,
   ⟨0x1410, 0x141B, 0, 2 ^ 28 - 1, 0, .immediate⟩, ⟨0x1420, 0x142B, 0, 7, 0, .immediate⟩,
   ⟨0x1430, 0x143B, 2, 40, 8, .immediate⟩, ⟨0x1440, 0x144B, 0, 1, 0, .immediate⟩,
   ⟨0x1450, 0x145B, 0, 2 ^ 18 - 1, 0x20820, .immediate⟩, ⟨0x1460, 0x1467, -48, 80, 80, .immediate⟩,
   ⟨0x1468, 0x146B, -48, 72, 72, .immediate⟩,
   ⟨0x1800, 0x1800, 5, 40, 15, .immediate⟩, ⟨0x1801, 0x1801, 0, 1, 1, .immediate⟩,
   ⟨0x1802, 0x1802, 1, 3600, 60, .immediate⟩, ⟨0x1C00, 0x1C0B, 1, 20000, 4000, .immediate⟩,
   ⟨0x1C10, 0x1C10, 3, 15, 6, .immediate⟩, ⟨0x1C11, 0x1C11, 1, 6, 3, .immediate⟩,
   ⟨0x1C12, 0x1C12, 1, 15, 3, .immediate⟩, ⟨0x1C13, 0x1C13, 100, 60000, 2000, .immediate⟩,
   ⟨0x1C20, 0x1C22, 0, 1, 1, .immediate⟩, ⟨0x1C23, 0x1C23, 1, 3, 2, .immediate⟩,
   ⟨0x1C24, 0x1C24, 0, 12, 6, .immediate⟩, ⟨0x1C25, 0x1C25, 1, 63, 16, .immediate⟩]

/-- Groups 8 to 15: schedule and forwarding (R375, R420). -/
def paramRowsB : List ParamRow :=
  [⟨0x2000, 0x200F, 0, 1, 0, .ownSlotframe⟩, ⟨0x2040, 0x204F, 1, 2000, 1, .slotframeStop⟩,
   ⟨0x2080, 0x208F, 0, 7, 0, .ownSlotframe⟩, ⟨0x2100, 0x210F, 1, 65535, 101, .slotframeStop⟩,
   ⟨0x2140, 0x214F, 0, 10000, 100, .ownSlotframe⟩, ⟨0x2180, 0x218F, 100, 2000000, 2200, .immediate⟩,
   ⟨0x2400, 0x2400, 0, 16, 16, .anySlotframe⟩, ⟨0x2401, 0x2401, 0, 65534, 1, .anySlotframe⟩,
   ⟨0x2402, 0x2402, 1, 256, 16, .anySlotframe⟩, ⟨0x2403, 0x2403, 0, 2 ^ 32 - 1, 0, .anySlotframe⟩,
   ⟨0x2404, 0x2404, 0, 2 ^ 32 - 1, 0xFFFFFFFF, .anySlotframe⟩,
   ⟨0x2800, 0x28BF, 0, 3, 1, .immediate⟩, ⟨0x28C0, 0x28C2, 300, 5000, 1000, .immediate⟩,
   ⟨0x28C4, 0x28C6, 500, 100000, 5000, .immediate⟩, ⟨0x28C8, 0x28C8, 1, 240, 64, .immediate⟩,
   ⟨0x28C9, 0x28C9, 300, 60000, 1000, .immediate⟩, ⟨0x2900, 0x295F, 0, 31, 0, .immediate⟩,
   ⟨0x2C00, 0x2C00, 2000, 4000000, 10000, .allSlotframesStop⟩, ⟨0x2C01, 0x2C01, 0, 2 ^ 40 - 1, 0, .allSlotframesStop⟩,
   ⟨0x2C02, 0x2C02, 0, 1000000, 2120, .anySlotframe⟩, ⟨0x2C03, 0x2C03, 0, 7, 2, .immediate⟩,
   ⟨0x2C04, 0x2C04, 1, 65535, 10, .immediate⟩, ⟨0x2C10, 0x2C17, 0, 65535, 5120, .immediate⟩,
   ⟨0x2C18, 0x2C1F, 0, 65535, 100, .immediate⟩, ⟨0x2C20, 0x2C27, 0, 4000000, 0, .immediate⟩,
   ⟨0x2C28, 0x2C2F, 0, 1, 1, .immediate⟩] ++
  [⟨0x3000, 0x3000, 0, 1, 0, .restart⟩, ⟨0x3001, 0x3001, 0, 1, 1, .restart⟩, ⟨0x3002, 0x3003, 0, 1, 0, .restart⟩,
   ⟨0x3004, 0x3004, 0, 1, 1, .restart⟩, ⟨0x3005, 0x3005, 0, 1, 0, .restart⟩, ⟨0x3006, 0x3006, 0, 1, 1, .restart⟩,
   ⟨0x3400, 0x3400, 4, 128, 32, .immediate⟩, ⟨0x3401, 0x3401, 0, 2 ^ 32 - 1, 0xFFFFFFFF, .readOnly⟩,
   ⟨0x3402, 0x3402, 0, 2 ^ 32 - 1, 0x5EED0001, .readOnly⟩, ⟨0x3403, 0x3403, 0, 2 ^ 32 - 1, 0xFFFFFFFF, .readOnly⟩,
   ⟨0x3404, 0x3404, 0, 2 ^ 32 - 1, 0x5EED0001, .readOnly⟩,
   ⟨0x3800, 0x3805, 0, 10000, 200, .immediate⟩, ⟨0x3808, 0x380D, 1, 10000, 400, .immediate⟩,
   ⟨0x3810, 0x3815, 0, 131072, 104857, .immediate⟩, ⟨0x3818, 0x381A, 0, 1, 0, .immediate⟩,
   ⟨0x381C, 0x381C, 10, 3600, 60, .sweepPass⟩, ⟨0x381D, 0x381D, 1, 4095, 1440, .immediate⟩,
   ⟨0x3C00, 0x3CFF, 0, 2 ^ 64 - 1, 0, .immediate⟩, ⟨0x3D00, 0x3DFF, 0, 4094, 0, .immediate⟩,
   ⟨0x3E01, 0x3E0F, 0, 2 ^ 64 - 1, 0, .immediate⟩, ⟨0x3E10, 0x3E12, 64, 2047, 255, .immediate⟩,
   ⟨0x3E13, 0x3E13, 1, 64, 16, .immediate⟩, ⟨0x3E14, 0x3E14, 1280, 1500, 1280, .immediate⟩,
   ⟨0x3E15, 0x3E15, 1, 60, 10, .immediate⟩, ⟨0x3F00, 0x3F01, 0, 2, 1, .immediate⟩,
   ⟨0x3F02, 0x3F03, 0, 2, 1, .immediate⟩, ⟨0x3F04, 0x3F05, 0, 4, 0, .immediate⟩,
   ⟨0x3F06, 0x3F07, 1, 65535, 1000, .immediate⟩, ⟨0x3F08, 0x3F09, 1, 255, 64, .immediate⟩,
   ⟨0x3F0A, 0x3F0A, 0, 2 ^ 64 - 1, 0, .immediate⟩]

/-- Groups 16 to 31: shaping, keys, time and update (R446, R484, R517, R539). -/
def paramRowsC : List ParamRow :=
  [⟨0x4000, 0x400B, 0, 65535, 500, .immediate⟩,
   ⟨0x4010, 0x4012, 0, 1000000, 0, .immediate⟩, ⟨0x4013, 0x4015, 0, 1000000, 9000, .immediate⟩,
   ⟨0x4016, 0x4018, 0, 1000000, 2000, .immediate⟩, ⟨0x4019, 0x401B, 0, 1000000, 1500, .immediate⟩,
   ⟨0x4400, 0x4400, 100, 10000, 1000, .meterTick⟩, ⟨0x4800, 0x4800, 1, 4095, 1, .immediate⟩,
   ⟨0x4801, 0x4803, 1, 4, 4, .immediate⟩, ⟨0x4804, 0x4804, 300, 10000, 500, .immediate⟩,
   ⟨0x4805, 0x4805, 1000, 100000000, 2000000, .immediate⟩, ⟨0x4806, 0x4806, 0, 4096, 512, .immediate⟩,
   ⟨0x4900, 0x49FF, 0, 2 ^ 63 - 1, 0, .immediate⟩, ⟨0x4A00, 0x4AFF, 1, 4095, 1, .immediate⟩,
   ⟨0x4B00, 0x4BFF, 0, 4095, 0, .immediate⟩] ++
  [⟨0x5400, 0x54FF, 0, 1, 0, .immediate⟩, ⟨0x5500, 0x5500, 0, 2592000, 86400, .immediate⟩,
   ⟨0x5800, 0x5800, 0, 1, 1, .immediate⟩,
   ⟨0x6000, 0x6000, 0, 2, 0, .immediate⟩, ⟨0x6001, 0x6001, 1, 500, 30, .immediate⟩,
   ⟨0x6002, 0x6002, 1, 1000, 10, .immediate⟩, ⟨0x6003, 0x6003, 10, 100000, 100, .immediate⟩,
   ⟨0x6004, 0x6004, 0, 255, 37, .immediate⟩, ⟨0x6005, 0x6005, 0, 256, 256, .anySlotframe⟩,
   ⟨0x6400, 0x6400, 0, 2, 0, .immediate⟩, ⟨0x6401, 0x6401, 0, 127, 0, .immediate⟩,
   ⟨0x6402, 0x6405, 0, 1, 0, .immediate⟩, ⟨0x6406, 0x6409, 0, 1, 0, .immediate⟩,
   ⟨0x640A, 0x640D, 0, 65535, 0, .immediate⟩, ⟨0x640E, 0x6411, 0, 65535, 0, .immediate⟩,
   ⟨0x6412, 0x6412, -7, 1, 0, .immediate⟩, ⟨0x6413, 0x6413, 0, 4, 1, .immediate⟩,
   ⟨0x6414, 0x6414, -7, 4, 0, .immediate⟩, ⟨0x6415, 0x6416, 0, 255, 128, .immediate⟩,
   ⟨0x6800, 0x6800, 0, 2, 0, .immediate⟩, ⟨0x6801, 0x6801, 1, 999999, 100000, .nextPulse⟩,
   ⟨0x6802, 0x6802, 9600, 115200, 9600, .immediate⟩, ⟨0x6803, 0x6803, 0, 1, 0, .immediate⟩,
   ⟨0x6804, 0x6804, 0, 1, 0, .nextPulse⟩, ⟨0x6805, 0x6805, 0x4141, 0x5A5A, 0x494E, .nextPulse⟩,
   ⟨0x7000, 0x7000, 5, 3600, 60, .immediate⟩, ⟨0x7400, 0x7400, 60, 86400, 600, .activation⟩,
   ⟨0x7800, 0x7800, 0, 15, 15, .immediate⟩, ⟨0x7801, 0x7801, 0, 1, 1, .immediate⟩]

/-- Groups 32 to 53: memory, redundancy, receive, PHY, frame security and power (R182, R204, R258, R295, R336, R375,
R564). -/
def paramRowsD : List ParamRow :=
  [⟨0x8000, 0x8000, 0, 1, 1, .immediate⟩, ⟨0x8001, 0x8001, 1, 3600, 8, .scrubPass⟩,
   ⟨0x8002, 0x8002, 1, 100, 10, .immediate⟩, ⟨0x8400, 0x8400, 2, 15, 3, .immediate⟩,
   ⟨0x8401, 0x8401, 1, 255, 16, .immediate⟩, ⟨0x8800, 0x8803, 1, 15, 1, .immediate⟩,
   ⟨0x8804, 0x8804, 0, 1, 0, .immediate⟩, ⟨0x8805, 0x8805, 20, 200, 100, .immediate⟩,
   ⟨0x9000, 0x9002, 0, 1, 0, .restart⟩, ⟨0x9003, 0x9003, 0, 2 ^ 64 - 1, 0, .restart⟩,
   ⟨0x9004, 0x9004, 0, 2 ^ 48 - 1, 0, .restart⟩, ⟨0x9005, 0x9005, 0, 1, 1, .restart⟩,
   ⟨0x9006, 0x9006, 0, 32, 32, .immediate⟩, ⟨0x9400, 0x9400, 0, 15, 0, .anySlotframe⟩,
   ⟨0x9401, 0x9401, 0, 2, 1, .anySlotframe⟩, ⟨0x9402, 0x9402, 1, 3600, 60, .immediate⟩,
   ⟨0x9403, 0x9403, 100, 60000, 1000, .immediate⟩, ⟨0x9404, 0x9404, 0, 600, 10, .nextStart⟩,
   ⟨0x9405, 0x9405, 10, 1000, 100, .immediate⟩] ++
  [⟨0x9800, 0x9800, 10, 2000, 400, .immediate⟩, ⟨0x9801, 0x9801, 100, 10000, 2000, .immediate⟩,
   ⟨0x9802, 0x9803, 100, 60000, 6000, .immediate⟩, ⟨0x9804, 0x9804, 0, 1, 1, .immediate⟩,
   ⟨0x9805, 0x9805, 0, 255, 0, .immediate⟩, ⟨0x9C00, 0x9C00, 0, 1, 0, .restart⟩,
   ⟨0x9C01, 0x9C01, 0, 1, 0, .linkUp 0⟩, ⟨0x9C02, 0x9C02, 0, 1, 0, .linkUp 1⟩,
   ⟨0x9C03, 0x9C03, 0, 1, 0, .restart⟩, ⟨0x9C04, 0x9C04, 0, 1, 0, .linkUp 2⟩,
   ⟨0x9C05, 0x9C05, 0, 1, 0, .linkUp 3⟩, ⟨0x9C06, 0x9C06, 0, 2 ^ 48 - 1, 0, .restart⟩,
   ⟨0x9C07, 0x9C07, 1522, 2000, 1536, .immediate⟩, ⟨0x9C08, 0x9C08, 0, 1000, 10, .immediate⟩,
   ⟨0x9C10, 0x9C13, 1, 10000, 200, .immediate⟩, ⟨0x9C14, 0x9C17, 1, 255, 32, .immediate⟩,
   ⟨0x9C18, 0x9C18, 0, 1, 0, .immediate⟩, ⟨0x9D00, 0x9DFF, 0, 2 ^ 48 - 1, 0, .immediate⟩,
   ⟨0x9E00, 0x9EFF, 3, 6, 3, .immediate⟩,
   ⟨0xA000, 0xA000, 430000, 490000, 460000, .bandSlotframe 1⟩,
   ⟨0xA001, 0xA001, 770000, 940000, 915000, .bandSlotframe 1⟩,
   ⟨0xA002, 0xA002, 2420000, 2463500, 2441750, .bandSlotframe 1⟩, ⟨0xA010, 0xA0CF, 0, 2 ^ 49 - 1, 0, .bandSlotframe 64⟩,
   ⟨0xA110, 0xA1CF, 0, 7, 0, .readOnly⟩, ⟨0xA400, 0xA402, -20, -1, -6, .immediate⟩,
   ⟨0xA403, 0xA405, -60, -13, -30, .immediate⟩, ⟨0xA406, 0xA408, 16, 4096, 128, .immediate⟩,
   ⟨0xA800, 0xA800, 16, 1024, 256, .immediate⟩, ⟨0xAC00, 0xAC00, 1, 10000, 10, .immediate⟩,
   ⟨0xB000, 0xB000, 4, 20, 20, .immediate⟩, ⟨0xB400, 0xB402, 0, 1, 1, .immediate⟩,
   ⟨0xB800, 0xB802, 0, 8, 4, .immediate⟩, ⟨0xC000, 0xC000, 1, 7, 6, .immediate⟩,
   ⟨0xC400, 0xC400, 1, 300, 30, .immediate⟩, ⟨0xD000, 0xD000, 450, 60000, 600, .immediate⟩,
   ⟨0xD001, 0xD001, 50, 59850, 200, .immediate⟩, ⟨0xD002, 0xD004, 0, 1, 0, .bandSlotframe 1⟩,
   ⟨0xD400, 0xD400, 0, 1, 1, .immediate⟩]

/-- Every parameter. -/
def paramRows : List ParamRow := paramRowsA ++ paramRowsB ++ paramRowsC ++ paramRowsD

/-- The table row of an ID; none for an unassigned ID (R147). -/
def paramRow (id : Nat) : Option ParamRow := paramRows.find? (fun r => decide (r.first ≤ id ∧ id ≤ r.last))

/-- DEV_EUI64 (R90). -/
def devEui (s : State) : Nat := fld s.otp 127 64

/-- The default bb.mac.addr: octets 0, 1, 2, 5, 6 and 7 of DEV_EUI64, most significant first (R543). -/
def defaultMac (s : State) : Nat :=
  let e := devEui s
  e / 2 ^ 40 * 2 ^ 24 + e % 2 ^ 24

/-- The default of a parameter (its table's Default column; R260, R264 and R543 where it names a rule). -/
def paramDefault (s : State) (id : Nat) : BitVec 64 :=
  if id = 0x9C06 then BitVec.ofNat 64 (defaultMac s)
  else if 0xA010 ≤ id ∧ id ≤ 0xA0CF then tblAt s.image.channels (id - 0xA010) 0
  else match paramRow id with
    | some r => BitVec.ofInt 64 r.dflt
    | none => 0

/-- The value in force. -/
def parV (s : State) (id : Nat) : BitVec 64 := (tblGet s.inForce id).getD (paramDefault s id)

/-- The value in force, as a number. -/
def par (s : State) (id : Nat) : Nat := (parV s id).toNat

/-- The value in force of a signed parameter. -/
def parI (s : State) (id : Nat) : Int := (parV s id).toInt

/-- The value in force of a one-bit parameter. -/
def parB (s : State) (id : Nat) : Bool := par s id == 1

/-- The stored value (R147). -/
def parStored (s : State) (id : Nat) : BitVec 64 := (tblGet s.params id).getD (paramDefault s id)

/-- The stored value is not yet in force (R147, R149). -/
def parPending (s : State) (id : Nat) : Bool := parStored s id != parV s id

/-- Whether a value lies in a parameter's range (its table's Range column); a channel's RING_UNITS is judged when its definition takes
effect (R265). -/
def paramInRange (s : State) (id : Nat) (v : BitVec 64) : Bool :=
  match paramRow id with
  | none => true
  | some r =>
    let i : Int := if r.lo < 0 then v.toInt else v.toNat
    let inside := decide (r.lo ≤ i ∧ i ≤ r.hi)
    if id = 0x0024 then inside && (i == 0 || decide (10 ≤ i))
    else if id = 0x1C10 then inside && decide ((parStored s 0x1C11).toNat < i)
    else if id = 0x2401 then
      inside && (decide (16 ≤ (parStored s 0x2400).toNat) || decide (i < (parStored s (0x2100 + (parStored s 0x2400).toNat)).toNat))
    else if id = 0xD001 then inside && decide (i + 150 ≤ (parStored s 0xD000).toNat)
    else if 0xA403 ≤ id ∧ id ≤ 0xA405 then inside && decide (i + 12 ≤ (parStored s (id - 3)).toInt)
    else if id = 0x6805 then inside && decide (0x41 ≤ i % 256 ∧ i % 256 ≤ 0x5A)
    else if 0xA000 ≤ id ∧ id ≤ 0xA002 then inside && i % 50 == 0
    else if 0xA010 ≤ id ∧ id ≤ 0xA0CF then
      let fine : Int := (v.extractLsb' 16 16).toInt
      inside && (!v.getLsbD 0 || decide (-25000 ≤ fine ∧ fine ≤ 25000))
    else if id = 0x9C06 then inside && !v.getLsbD 40
    else inside

/-- Puts the stored value of every parameter that a test selects into force. -/
def applyStored (s : State) (sel : Nat → Bool) : State :=
  s.params.foldl (fun s e =>
    if sel e.1 then { s with inForce := tblPut s.inForce e.1 e.2, storedAt := tblErase s.storedAt e.1 } else s) s

/-- Puts stored values of one apply timing into force. -/
def applyKind (s : State) (k : Apply) : State :=
  applyStored s (fun id => match paramRow id with | some r => r.apply == k | none => false)

end Sys2Proof.Machine
end

