-- ==== Sys2Proof/Machine/Interp.lean ====
section
/-!
DEFINITION. The command interpreter (R111 to R122, R136): rings, packets, the checks every command shares,
completions, and the end of a command whose work continues.
-/

namespace Sys2Proof.Machine

/-! ### Statuses (R123, R567) -/

abbrev Status := BitVec 12

def stOk : Status := 0x000
def stLength : Status := 0x001
def stNotOwner : Status := 0x002
def stLocked : Status := 0x003
def stOpcode : Status := 0x004
def stResourceHeld : Status := 0x005
def stRestarted : Status := 0x006
def stContextReset : Status := 0x007
def stDmaError : Status := 0x008
def stHspiCrc : Status := 0x009
def stBusy : Status := 0x00A
def stTxnNone : Status := 0x00B
def stTxnFull : Status := 0x00C
def stPoisoned : Status := 0x801

/-! ### Rings (R99, R112, R114) -/

/-- First word of a context's rings. -/
def ringBase (hc : Hc) : Nat := 0x1000 + 0x1000 * hc.val

/-- First word of a context's host window (R99). -/
def windowBase (hc : Hc) : Nat := 0x100000 + 0x10000 * hc.val

/-- SQ words published and not consumed. -/
def sqCount (c : Ctx) : Nat := (c.sqTail - c.sqHead).toNat

/-- Free room of the CQ beyond what is reserved (R114). -/
def cqFree (c : Ctx) : Nat := 1024 - (c.cqTail - c.cqHead).toNat - c.cqReserved

/-- Free words of the EQ. -/
def eqFree (c : Ctx) : Nat := 512 - (c.eqTail - c.eqHead).toNat

/-- Writes words into a ring of `size` words at `base` from index `i` (R112). -/
def ringWrite (base size : Nat) (s : State) : Nat → List Word → State
  | _, [] => s
  | i, w :: ws => ringWrite base size (writeWord s (base + i % size) w) (i + 1) ws

/-- Signals a completion (R101): at once with NOTIFY or without coalescing, otherwise within host.cq.coalesce. -/
def signalDone (s : State) (hc : Hc) (notify : Bool) : State :=
  let c := ctx s hc
  if notify then signal (setCtx s hc { c with vec0 := false, coalesce := none }) hc 0
  else if c.vec0 then
    if par s 0x27 = 0 then signal (setCtx s hc { c with vec0 := false }) hc 0
    else setCtx s hc { c with vec0 := false, coalesce := some (c.coalesce.getD (s.now + usC (par s 0x27))) }
  else s

/-- Word 0 of a completion (R117). -/
def completionWord (hc : Hc) (opcode : BitVec 12) (tag : BitVec 16) (status : Status) (length : Nat)
    (restart air : Bool) : Word :=
  at' 0 status.toNat ||| at' 12 tag.toNat ||| at' 28 length ||| at' 38 restart.toNat ||| at' 39 air.toNat |||
    at' 46 hc.val ||| at' 48 opcode.toNat

/-- Writes a completion to the CQ (R117, R135). -/
def complete (s : State) (hc : Hc) (opcode : BitVec 12) (tag : BitVec 16) (notify : Bool) (status : Status)
    (words : List Word) (restart air : Bool) : State :=
  let c := ctx s hc
  let s := ringWrite (ringBase hc + 0x400) 1024 s c.cqTail.toNat
    (completionWord hc opcode tag status words.length restart air :: words)
  let s := setCtx s hc { c with cqTail := c.cqTail + BitVec.ofNat 11 (1 + words.length) }
  signalDone s hc notify

/-! ### Packets (R116, R119 to R122) -/

/-- The catalogue of R122: opcode, least payload words, most result words. -/
def catalogue : List (Nat × Nat × Nat) :=
  [(0x000, 0, 0), (0x001, 0, 16), (0x002, 1, 0), (0x003, 0, 0), (0x004, 1, 32), (0x008, 1, 1), (0x009, 1, 0),
   (0x00A, 1, 1), (0x010, 2, 1), (0x011, 1, 0), (0x018, 1, 255), (0x019, 2, 1), (0x01A, 0, 0), (0x01B, 0, 1),
   (0x01C, 0, 0), (0x020, 2, 0)] ++
  [(0x100, 1, 1), (0x101, 1, 2), (0x102, 1, 1), (0x200, 2, 0), (0x201, 1, 1), (0x202, 3, 3), (0x203, 1, 0),
   (0x300, 3, 2), (0x301, 2, 3), (0x302, 5, 1), (0x303, 1, 0), (0x304, 1, 8), (0x305, 2, 2), (0x400, 2, 0),
   (0x401, 1, 12)] ++
  [(0x500, 2, 1), (0x501, 1, 1), (0x502, 4, 1), (0x503, 4, 24), (0x600, 2, 0), (0x601, 1, 0), (0x602, 0, 0),
   (0x603, 2, 0), (0x604, 2, 0), (0x700, 4, 2), (0x701, 2, 1), (0x702, 1, 1), (0x703, 0, 0), (0x704, 0, 0),
   (0x800, 1, 255), (0x801, 2, 0), (0x802, 1, 255), (0x803, 0, 32), (0x900, 1, 0), (0x901, 0, 6)]

/-- The catalogue's entry of an opcode. -/
def catalogued (op : Nat) : Option (Nat × Nat) :=
  (catalogue.find? (fun e => e.1 == op)).map (·.2)

/-- A consumed packet: header word, payload, and the number of its journal record. -/
structure Packet where
  hdr : Word
  payload : List Word
  id : Nat
deriving DecidableEq, Repr

/-- Payload word n, counted from 1 as in the tables. -/
def Packet.word (p : Packet) (n : Nat) : Word := p.payload.getD (n - 1) 0

/-- What executing a packet comes to. -/
inductive CmdOut where
  /-- it completes with a status and result words -/
  | done (s : State) (status : Status) (words : List Word)
  /-- its work continues under the given kind of end (R118) -/
  | work (s : State) (w : Work)
  /-- it executes without a completion of its own here: a restart (R122) -/
  | silent (s : State)
  /-- an undefined host action of R569 -/
  | undef (n : Nat)

/-- Whether the interpreter serves commands: firmware runs, or a recovery start awaits an update (R85; log 12). -/
def serving (s : State) : Bool := s.start.phase == .ready || s.start.phase == .recovery

/-- The event fields of an SQ word met poisoned (R121, R154). -/
def sqExtra (hc : Hc) (offset : Nat) : Word := at' 28 hc.val ||| at' 32 offset

/-- The header word at the consumer index, without any effect of reading it. -/
def sqHeader (s : State) (hc : Hc) : Found := decodePhys (memRaw s.mem (ringBase hc + (ctx s hc).sqHead.toNat % 1024))

/-- The interpreter meets a poisoned header: it stops and reports (R121). -/
def stopAtHeader (s : State) (hc : Hc) : State :=
  let off := (ctx s hc).sqHead.toNat % 1024
  let s := (readWordX s (ringBase hc + off) 11 (sqExtra hc off)).1
  setCtx s hc { ctx s hc with stopped := true }

/-- Reads `n` payload words from ring index `i`; nothing where one is poisoned (R121). -/
def readPayload (hc : Hc) : Nat → Nat → State → State × Option (List Word)
  | 0, _, s => (s, some [])
  | n + 1, i, s =>
    match readWordX s (ringBase hc + i % 1024) 11 (sqExtra hc (i % 1024)) with
    | (s, none) => (s, none)
    | (s, some d) =>
      match readPayload hc n (i + 1) s with
      | (s, some ds) => (s, some (d :: ds))
      | (s, none) => (s, none)

/-- The CQ room of an opcode: the completion word and the most result words (R114). -/
def roomOf (op : Nat) : Nat := 1 + ((catalogued op).map (·.2)).getD 0

/-- First word of a context's in-flight journal, and of its result store (R99, R136). -/
def journalBase (hc : Hc) : Nat := 0x1C00 + 0x1000 * hc.val
def resultBase (hc : Hc) : Nat := 0x5000 + 0x400 * hc.val

/-- The journal word that the next record takes: the lowest without one (log 198). -/
def freeSlot (c : Ctx) : Nat :=
  ((List.range 256).find? (fun k => !(c.journal.any (fun r => r.slot == k)))).getD 0

/-- The words of the result store that the next record takes: the lowest free ones (log 198). -/
def freeSpace (c : Ctx) (n : Nat) : List Nat :=
  ((List.range 1024).filter (fun k => !(c.journal.any (fun r => r.space.contains k)))).take n

/-- Writes a record's word of the journal (R136). -/
def putRecord (s : State) (hc : Hc) (slot : Nat) (tag : BitVec 16) (op : BitVec 12) (room st : Nat) (space : List Nat) : State :=
  writeWord s (journalBase hc + slot % 256) (Config.journalWord tag op room st (space.headD 0))

/-- Writes a command's completion words into its result space (R136). -/
def putResult (s : State) (hc : Hc) (space : List Nat) (ws : List Word) : State :=
  (space.zip ws).foldl (fun s e => writeWord s (resultBase hc + e.1 % 1024) e.2) s

/-- Consumes a packet: the consumer index moves past it, and its command is recorded in the journal before it executes (R136). -/
def consume (s : State) (hc : Hc) (h : Word) : State :=
  let c := ctx s hc
  let s := setCtx s hc { c with sqHead := c.sqHead + BitVec.ofNat 11 (fld h 37 28 + 1) }
  putRecord s hc (freeSlot c) (BitVec.ofNat 16 (fld h 27 12)) (BitVec.ofNat 12 (fld h 11 0)) (roomOf (fld h 11 0)) 1
    (freeSpace c (roomOf (fld h 11 0)))

/-- Keeps the record of a command whose work goes on and reserves its room (R114, R136). -/
def record (s : State) (hc : Hc) (r : JRec) : State :=
  let c := ctx s hc
  let r := { r with slot := freeSlot c, space := freeSpace c r.room }
  setCtx s hc { c with journal := c.journal ++ [r], cqReserved := c.cqReserved + r.room }

/-- Whether the packet at the head of a context's SQ can be consumed as opcode `op` (R113, R114, R116 FENCE). -/
def consumable (s : State) (hc : Hc) (h : Word) (room : Nat) : Bool :=
  let c := ctx s hc
  decide (fld h 37 28 + 1 ≤ sqCount c) && decide (room ≤ cqFree c) && decide (c.journal.length < 256) &&
    (!h.getLsbD 38 || c.journal.isEmpty)

/-- What the interpreter makes of the head of a context's SQ for one opcode, before the command's own body. -/
inductive Taken where
  /-- nothing is consumed, or the packet ends in a check of the interpreter: the next state -/
  | settled (s : State)
  /-- an undefined host action of R569 -/
  | undef (n : Nat)
  /-- the packet is consumed and its command executes on this state -/
  | packet (p : Packet) (s : State)
deriving DecidableEq

/-- The record of a command that completes as it executes: its completion words stand in its result space, the record is DONE and
is removed as they are copied to the CQ (R136). -/
def passRecord (s : State) (hc : Hc) (op : Nat) (h : Word) (st : Status) (ws : List Word) : State :=
  let c := ctx s hc
  let tag := BitVec.ofNat 16 (fld h 27 12)
  let space := freeSpace c (roomOf op)
  let s := putResult s hc space (completionWord hc (BitVec.ofNat 12 op) tag st ws.length false false :: ws)
  putRecord s hc (freeSlot c) tag (BitVec.ofNat 12 op) (roomOf op) 0 space

/-- The completion of a consumed packet as its header asks for it, through its record (R117, R136). -/
def completeAs (s : State) (hc : Hc) (op : Nat) (h : Word) (st : Status) (ws : List Word) : State :=
  complete (passRecord s hc op h st ws) hc (BitVec.ofNat 12 op) (BitVec.ofNat 16 (fld h 27 12)) (h.getLsbD 40) st ws false false

/-- Takes the packet at the head of a context's SQ for the command of one row: the checks of R119 to R121 in order. Nothing
happens while no packet of this opcode can be consumed. DESIGN CHOICE: every payload word of a packet of up to 256 is read, so a
poisoned word refuses it even beyond the most words its opcode uses (log 208). -/
def takePacket (dt : Nat) (hc : Hc) (op least most : Nat) (s : State) : Taken :=
  let s := advance dt s
  let c := ctx s hc
  if !(serving s && c.st == 1 && !c.stopped && decide (0 < sqCount c)) then .settled s
  else match sqHeader s hc with
    | .poisoned => .settled (stopAtHeader s hc)
    | .bad => .settled (stopAtHeader s hc)
    | _ =>
      let r := readWord s (ringBase hc + c.sqHead.toNat % 1024) 11
      let h := r.2.getD 0
      let len := fld h 37 28
      if fld h 11 0 ≠ op ∨ consumable s hc h (1 + most) = false then .settled s
      else if fld h 45 41 ≠ 0 ∨ fld h 71 48 ≠ 0 then .undef 8
      else
        let s := consume r.1 hc h
        if fld h 47 46 ≠ hc.val then .settled (completeAs s hc op h stNotOwner [])
        else if 256 < len ∨ len < least then .settled (completeAs s hc op h stLength [])
        else match readPayload hc len (c.sqHead.toNat + 1) s with
          | (s, none) => .settled (completeAs s hc op h stPoisoned [])
          | (s, some ws) => .packet { hdr := h, payload := ws, id := s.jobId } { s with jobId := s.jobId + 1 }

/-- Executes the packet at the head of a context's SQ as the command of one row: the checks, the row's own body, and the
completion. -/
def command (dt : Nat) (hc : Hc) (op least most : Nat) (s : State) (body : Packet → State → CmdOut) :
    Host.Outcome State Fault Refusal :=
  match takePacket dt hc op least most s with
  | .settled s => .next s
  | .undef n => .fault (.undefinedHostAction n)
  | .packet p s =>
    match body p s with
    | .done s st rs => .next (completeAs s hc op p.hdr st rs)
    | .silent s => .next s
    | .undef n => .fault (.undefinedHostAction n)
    | .work s w =>
      .next (record s hc { id := p.id, tag := BitVec.ofNat 16 (fld p.hdr 27 12), opcode := BitVec.ofNat 12 op, room := 1 + most,
                           notify := p.hdr.getLsbD 40, payload := p.payload, work := w })

/-- Marks a command's record DONE with its completion words in its result space (R136). -/
def finishJob (s : State) (hc : Hc) (id : Nat) (status : Status) (words : List Word) (air : Bool) : State :=
  let c := ctx s hc
  let s := match c.journal.find? (fun r => r.id == id) with
    | some r => putRecord (putResult s hc r.space (completionWord hc r.opcode r.tag status words.length false air :: words))
        hc r.slot r.tag r.opcode r.room 2 r.space
    | none => s
  setCtx s hc { c with journal := c.journal.map (fun r =>
    if r.id = id then { r with done := true, status := status, result := words, air := air } else r) }

/-- Copies a record's completion to the CQ and releases its room and its buffer (R136). -/
def copyDone (s : State) (hc : Hc) (r : JRec) (restart : Bool) : State :=
  let c := ctx s hc
  let s := putRecord s hc r.slot r.tag r.opcode r.room 0 r.space
  let s := setCtx s hc { c with journal := c.journal.filter (fun x => x.id != r.id),
                                cqReserved := c.cqReserved - r.room, bufs := c.bufs.filter (fun b => b.job != r.id),
                                injects := c.injects.filter (fun b => b.job != r.id) }
  complete s hc r.opcode r.tag r.notify r.status r.result restart r.air

/-! ### Ownership and locks (R124 to R130) -/

/-- Key of a resource. -/
def resKey (cls idx : Nat) : Nat := 65536 * cls + idx

/-- Whether a context holds a resource. -/
def owns (s : State) (hc : Hc) (cls idx : Nat) : Bool := tblGet s.owners (resKey cls idx) == some (.host hc)

/-- Holder word of R124. -/
def holderWord : Option Holder → Word
  | none => at' 16 1
  | some (.host hc) => at' 0 hc.val
  | some (.feature code) => at' 2 1 ||| at' 8 code.toNat

/-- Parameter group of an ID (R145). -/
def groupOf (id : Nat) : Nat := id / 1024 % 64

/-- The other context that holds a group's lock. -/
def lockedBy (s : State) (hc : Hc) (g : Nat) : Option Hc :=
  match tblGet s.locks g with
  | some l => if l.hc = hc then none else some l.hc
  | none => none

/-- A lease of so many ms in TIME cycles; 0 takes host.lock.lease in force (R97, R127). -/
def leaseOf (s : State) (ms : Nat) : Nat := msC (if ms = 0 then par s 0x26 else ms)

/-- Renews the lease of a group the context holds, a lease taken from host.lock.lease at its present value (R97, R128). -/
def renew (hc : Hc) (s : State) (g : Nat) : State :=
  match tblGet s.locks g with
  | some l => if l.hc = hc then { s with locks := tblPut s.locks g { l with till := s.now + leaseOf s l.lease } } else s
  | none => s

/-- The pin numbers of a function's pin class. -/
def pinCount : Nat := 56

/-- Whether a class and index name a resource (R125). -/
def isResource (cls idx : Nat) : Bool :=
  (cls == 1 && decide (idx < 256)) || (cls == 2 && decide (1 ≤ idx ∧ idx < 4096)) || (cls == 3 && decide (idx < 32)) ||
    (cls == 4 && decide (idx < 16)) || (cls == 5 && decide (idx < 56))

/-- Mask of the groups a context holds. -/
def groupsHeld (s : State) (hc : Hc) : Nat :=
  s.locks.foldl (fun m e => if e.2.hc = hc then m ||| 2 ^ e.1 else m) 0

/-- Releases every lock and the transaction of a context; EV_LOCK_BROKEN goes to the other bound contexts when a
group is released (R130). Cause: 0 lease, 1 link loss, 2 context reset. -/
def breakLocks (s : State) (hc : Hc) (cause : Nat) : State :=
  let mask := groupsHeld s hc
  let s := { s with locks := s.locks.filter (fun e => e.2.hc != hc) }
  let s := setCtx s hc { ctx s hc with txn := none }
  if mask = 0 then s
  else raiseTo s (allHc.filter (· != hc)) 1 (at' 0 hc.val ||| at' 2 cause) (BitVec.ofNat 72 mask)

/-- Whether reserved bits of a payload word are set; `mask` names the defined ones (R8, R569 action 8). DESIGN CHOICE: payload bits
that no field names are taken as reserved also where no table marks them so (log 209). -/
def reservedSet (w mask : Word) : Bool := (w &&& ~~~mask) != 0

/-- A mask of bits [hi:lo]. -/
def bits (hi lo : Nat) : Word := BitVec.ofNat 72 (2 ^ (hi + 1) - 2 ^ lo)

end Sys2Proof.Machine
end

