-- ==== Sys2Proof/Machine/RxBase.lean ====
section
/-!
DEFINITION. Receive channels and their lanes as the radio chains see them (R272, R278 to R280): reading and storing a
channel, and what the absence of an antenna's samples does to the frames in reception.
-/

namespace Sys2Proof.Machine

/-! ### Channels and their rings (R262, R264, R282) -/

def chanKey (b ch : Nat) : Nat := 64 * b + ch

/-- Fields of rx.chan.def (R264). -/
def defBins (d : BitVec 64) : Nat := fld d 15 11 + 1
def defProfile (d : BitVec 64) : Nat := fld d 36 32
def defAnts (d : BitVec 64) : BitVec 4 := if fld d 40 37 = 0 then 0xF else BitVec.ofNat 4 (fld d 40 37)
def defUnits (d : BitVec 64) : Nat := fld d 48 41

/-- ceil(log2 n) for 1 to 32. -/
def log2up (n : Nat) : Nat := (List.range 6).foldl (fun m k => if 2 ^ k < n then k + 1 else m) 0

/-- Channel rate in units of 100 kS/s (R262): an instant takes 4,096 ÷ this many TIME cycles. -/
def chanRate (c : Chan) : Nat := 2 ^ log2up (defBins c.def_)

/-- Ring length in instants (R282). -/
def ringInstants (d : BitVec 64) : Nat :=
  let n := (List.range 4).countP (fun a => (defAnts d).getLsbD a)
  defUnits d * (if n = 1 then 4096 else if n = 2 then 2048 else 1024)

/-- The instant that the write pointer stands at. -/
def writePointer (s : State) (c : Chan) : Nat := (s.now - c.anchorAt) * chanRate c / 4096

def chanOf (s : State) (k : Nat) : Chan := tblAt s.rx.chans k {}
def setChan (s : State) (k : Nat) (c : Chan) : State := { s with rx := { s.rx with chans := tblPut s.rx.chans k c } }

def laneOf (c : Chan) (l : Nat) : Lane := if l = 0 then c.lane0 else c.lane1
def putLane (c : Chan) (l : Nat) (x : Lane) : Chan := if l = 0 then { c with lane0 := x } else { c with lane1 := x }

/-- A change of the timebase's rate or value moves every ring's anchor with it: the time of instant 0 as the timebase now counts
(R284, R294; DEDUCED, log 47: an anchor that stood would not keep R294's accuracy over a step or at another rate). -/
def rebase (s : State) : State :=
  { s with rx := { s.rx with chans := s.rx.chans.map (fun e =>
      (e.1, { e.2 with anchor := BitVec.ofInt 72 ((s.tb.value.toNat - (s.now - e.2.anchorAt : Nat) * increment s.tb.rate) / 2 ^ 48) })) } }

/-! ### Ping-pong FIFOs (R190 to R194) -/

def fifo (s : State) (f : Nat) : Fifo := tblAt s.fifos f {}
def setFifo (s : State) (f : Nat) (x : Fifo) : State := { s with fifos := tblPut s.fifos f x }

/-- Words of a bank (R190). -/
def bankSize (f : Nat) : Nat := if f = 3 then 64 else 512

/-- A FIFO word: its data under 8 check bits in the code of R165 (R194). -/
def fifoWord (w : Word) : BitVec 80 := (eccCheck w ++ w : BitVec 80)

/-- The decoding of a FIFO word, which has no valid bit and is never poisoned (R194). -/
def decodeFifo (w : BitVec 80) : Found :=
  match decodePhys (1#1 ++ w : BitVec 81) with
  | .poisoned => .bad
  | f => f

/-- A capture for the timestamp FIFO by a producer, a port or a chain; false where it is lost (R190). The spec does not lay out the
entry's second word: a free value stands for it. -/
def captureStamp (s : State) (p : Nat) (t : Time72 := time s) : State × Bool :=
  let x := fifo s 3
  let r := drawFree s
  let ws : List (BitVec 80 × Bool) := [(fifoWord t, false), (fifoWord r.2, true)]
  if x.filling.length + 2 ≤ 64 then (setFifo r.1 3 { x with filling := x.filling ++ ws }, true)
  else if x.heldBy.getLsbD p = false then
    (setFifo r.1 3 { x with held := x.held ++ ws, heldBy := x.heldBy ||| (1#16 <<< p) }, true)
  else (bump s 0x11F, false)

/-! ### The words of a ring (R282, R283) -/

/-- Samples per instant that a ring has room for: one for each combined antenna, and four where three are combined. -/
def ringSlots (d : BitVec 64) : Nat :=
  let n := (List.range 4).countP (fun a => (defAnts d).getLsbD a)
  if n = 3 then 4 else n

/-- Antennas of a channel in slot order (R282). -/
def slotAnts (d : BitVec 64) : List Nat := (List.range 4).filter (fun a => (defAnts d).getLsbD a)

/-- The antennas whose samples an instant carries. -/
def presentAt (c : Chan) (i : Nat) : BitVec 4 := ((c.gaps.find? (fun e => decide (e.1 ≤ i))).map (·.2)).getD 0

/-- The absent mark: I = Q = −131,072 (R283). -/
def absentMark : BitVec 36 := 0x800020000

/-- The latest instant written at a position of a ring; none where none has been (R284). -/
def instantAt (s : State) (c : Chan) (pos : Nat) : Option Nat :=
  let w := writePointer s c
  if w ≤ pos then none else some (pos + (w - 1 - pos) / c.ringLen * c.ringLen)

/-- What a half-word of a ring holds: the absent mark for slot 3 of three antennas and for an antenna without samples then, the
sample otherwise. The radio's samples are no input of any row: a free value stands for each (log 93). -/
def halfWord (c : Chan) (i slot : Nat) (sample : BitVec 36) : BitVec 36 :=
  match (slotAnts c.def_)[slot]? with
  | some a => if (presentAt c i).getLsbD a then sample else absentMark
  | none => absentMark

/-- The word at an offset of a running channel's ring, with a free word for its samples; none where the ring has written nothing
there yet (R282 to R284). -/
def ringWord (s : State) (c : Chan) (off : Nat) (free : Word) : Option Word :=
  let n := ringSlots c.def_
  let place (h : Nat) : Nat × Nat := if n = 1 then (2 * off + h, 0) else if n = 2 then (off, h) else (off / 2, 2 * (off % 2) + h)
  let half (h : Nat) : Option (BitVec 36) :=
    (instantAt s c (place h).1).map (fun i => halfWord c i (place h).2 ((free >>> (36 * h)).setWidth 36))
  match half 0, half 1 with
  | none, none => none
  | x, y => some ((y.getD 0 ++ x.getD 0 : BitVec 72))

/-- The running channel whose ring covers a word of a band's HIST, with the word's offset in the ring. -/
def ringAt (s : State) (b off : Nat) : Option (Chan × Nat) :=
  (s.rx.chans.find? (fun e => decide (e.1 / 64 = b ∧ e.2.status = 1 ∧ e.2.ringBase ≤ off ∧
    off < e.2.ringBase + 2048 * defUnits e.2.def_))).map (fun e => (e.2, off - e.2.ringBase))

/-! ### What a host reads (R90, R102, R107, R168, R575) -/

/-- The words that the device keeps for itself in a form that the spec does not lay out, and may have written since they were last
cleared: reserved SHM, move map and rehash control, exception queues, replay filter, reassembly and flow state once firmware has
run, and the local memory of an engine that has run (R99, R393, R390, R410, R356, R406, R434; log 46). -/
def openWord (s : State) (a : Nat) : Bool :=
  (s.start.ran && (decide (0x18 ≤ a ∧ a < 0x1000) || decide (0x48400 ≤ a ∧ a < 0x48408) ||
    decide (0x60000 ≤ a ∧ a < 0x70000) || decide (0x80000 ≤ a ∧ a < 0xC8000))) ||
  (!s.engines.isEmpty && decide (0x400000 ≤ a ∧ a < 0x474000))

/-- What the device itself has left at a word of valid bit 0 in `mem`: a free value where the spec lays out neither the word nor
its content, and what a ring holds there; none where the word is as `mem` says. -/
def deviceWord (s : State) (a : Nat) (free : Word) : Option Word :=
  match regionOf a with
  | .hist b =>
    let off := a - 0x300000 - 0x40000 * b.val
    match ringAt s b.val off with
    | some (c, o) => (ringWord s c o free).or (if off < tblAt s.rx.used b.val 0 then some free else none)
    | none => if off < tblAt s.rx.used b.val 0 then some free else none
  | _ => if openWord s a then some free else none

/-- A host's read of a word. With DEBUG_LOCK set no path from outside reaches an engine's local memory (R90): the spec does not say
what a read finds there, and a free value that owes nothing to the memory stands for it (log 201). Addresses above the address
space read as zero (R575). -/
def hostRead (s : State) (a code : Nat) : State × Option Word :=
  if 0x474000 ≤ a then (s, some 0)
  else if 0x400000 ≤ a ∧ fld s.otp 2322 2315 ≠ 0 then ((drawFree s).1, some (drawFree s).2)
  else if memRaw s.mem a = 0 then
    match deviceWord s a (drawFree s).2 with
    | some w => ((drawFree s).1, some w)
    | none => readWord s a code
  else readWord s a code

/-- A host's read of `n` words that ends at the first poisoned one, with its index. -/
def hostReads (code : Nat) : Nat → Nat → State → State × (List Word ⊕ Nat)
  | 0, _, s => (s, .inl [])
  | n + 1, a, s =>
    match hostRead s a code with
    | (s, none) => (s, .inr 0)
    | (s, some d) =>
      match hostReads code n (a + 1) s with
      | (s, .inl ds) => (s, .inl (d :: ds))
      | (s, .inr i) => (s, .inr (i + 1))

/-- A host's read of `n` words that fetches every one, each poisoned word met and reported (R107): the words in order, nothing for
a poisoned one. -/
def hostFetch (code : Nat) : Nat → Nat → State → State × List (Option Word)
  | 0, _, s => (s, [])
  | n + 1, a, s =>
    let r := hostRead s a code
    let q := hostFetch code n (a + 1) r.1
    (q.1, r.2 :: q.2)

/-! ### Lanes and antennas -/

/-- Whether a lane carries a frame: it is neither in SEARCH nor in FOLLOW (R272). -/
def carries (x : Lane) : Bool := match x.st with | .search => false | .follow => false | _ => true

/-- Antennas of `lost` have no samples from now on: a frame combines them no more, and with none left it is treated as
blanked (R278, R279). -/
def markLoses (now : Nat) (lost : BitVec 4) (m : Mark) : Mark :=
  if m.alive &&& lost = 0 then m
  else
    let alive := m.alive &&& ~~~lost
    { m with alive := alive, lostAt := m.lostAt.or (some now),
             blankAt := if alive = 0 then m.blankAt.or (some now) else m.blankAt }

def laneLoses (now : Nat) (lost : BitVec 4) (x : Lane) : Lane :=
  if carries x then { x with mark := x.mark.map (markLoses now lost) } else x

/-- The samples of antennas of a band become absent (R279). -/
def rxAbsent (s : State) (b : Nat) (lost : BitVec 4) : State :=
  let chans := s.rx.chans.map (fun e =>
    if e.1 / 64 = b then
      (e.1, { e.2 with lane0 := laneLoses s.now lost e.2.lane0, lane1 := laneLoses s.now lost e.2.lane1,
                       marks := e.2.marks.map (markLoses s.now lost) })
    else e)
  { s with rx := { s.rx with chans := chans } }

/-- A lane past its header check holds a chain in RX until its frame ends (R280). -/
def laneHolds (s : State) (c : Nat) : Bool :=
  s.rx.chans.any (fun e => e.1 / 64 == c / 4 && [e.2.lane0, e.2.lane1].any (fun x =>
    x.st == .payload && (match x.mark with | some m => m.alive.getLsbD (c % 4) | none => false)))

end Sys2Proof.Machine
end

