-- ==== Sys2Proof/Machine/Host.lean ====
section
/-!
DEFINITION. The host attachments (chapters 04 and 05): direct registers, BAR2, HSPI transactions, doorbells, event
queues, and the commands of the device range, opcodes 0x000 to 0x020 and 0x800 to 0x803.
-/

namespace Sys2Proof.Machine

/-- An outcome of something that may be an undefined host action. -/
def orFault (r : Except Nat State) : Host.Outcome State Fault Refusal :=
  match r with
  | .ok s => .next s
  | .error n => .fault (.undefinedHostAction n)

/-! ### Reading direct registers (R140 to R143) -/

/-- Whether the direct registers answer: out of reset, and in a cold start once SYSPLL has locked (R81, R88). -/
def regsServed (s : State) : Bool :=
  match s.start.phase with
  | .held | .tapHeld | .tripped => false
  | .starting => s.start.warm || !(s.start.stage == .refQual || s.start.stage == .cleanerLock || s.start.stage == .pllLock)
  | _ => true

/-- START_STATUS.STATE (R89). -/
def startState (s : State) : Nat :=
  match s.start.phase with
  | .ready => 1
  | .failure => 2
  | .recovery => 3
  | _ => 0

/-- START_STATUS.STEP (R89): the step of R81. DESIGN CHOICE: the spec does not say what it shows once no step is in progress: 8 once
ready (log 75), and 5, the step that ended in it, in a recovery start that has come up (log 202). -/
def startStep (s : State) : Nat :=
  if s.start.phase == .ready then 8
  else match s.start.stage with
    | .refQual | .cleanerLock | .pllLock => 0
    | .fuse => 1 | .memTest => 2 | .validClear => 3 | .staging => 4 | .verify => 5 | .load => 6 | .firmware => 7

/-- START_STATUS (R89). -/
def startStatus (s : State) : BitVec 32 :=
  BitVec.ofNat 32 (startState s + 4 * startStep s + 64 * s.start.failCode.toNat)

/-- The highest of two signed readings with its sensor. -/
def hotter (a b : BitVec 12 × Nat) : BitVec 12 × Nat := if a.1.toInt < b.1.toInt then b else a

/-- TEMP_MAX: value and sensor (R62, R141). -/
def tempMax (s : State) : BitVec 12 × Nat :=
  hotter (hotter (hotter (s.temp.t0, 0) (s.temp.t1, 1)) (s.temp.t2, 2)) (s.temp.t3, 3)

/-- DEV_STATUS.REF (R68, R141). -/
def refCode (s : State) : Nat :=
  match s.clk.ref with
  | .notQualified | .acquiring => 0
  | .locked => 1
  | .holdover => 2
  | .requal | .slew => 3

/-- Whether TEMP_MAX is at or above the warning threshold. -/
def tempHigh (s : State) : Bool := decide ((16 * par s 0x0C00 : Int) ≤ (tempMax s).1.toInt)

/-- DEV_STATUS (R141). -/
def devStatus (s : State) : BitVec 32 :=
  BitVec.ofNat 32 (startState s + 4 * refCode s + 16 * s.pps.st.toNat + 64 * s.tb.set.toNat + 256 * s.pairRole.toNat +
    1024 * (tempHigh s).toNat)

/-- Bites of the rolling 60 s window (R79). -/
def bitesNow (s : State) : Nat := (s.start.bites.filter (fun t => decide (s.now < t + secC 60))).length

/-- WDT_STATUS (R141): whole ms until the bite, kicks, bites. -/
def wdtStatus (s : State) : BitVec 32 :=
  let left := if s.wd.armed then (s.wd.since + msC 250 - s.now) / msC 1 else 250
  BitVec.ofNat 32 (min left 250 + 256 * s.wd.kick0.toNat + 512 * s.wd.kick1.toNat + 1024 * min 15 (bitesNow s))

/-- The presence of the PCIe reference clocks, an input of the board that no row reports, read as it then stands: a free value
(R141; log 52). -/
def senseRefclk (s : State) : State :=
  let r := drawFree s
  { r.1 with pins := { r.1.pins with refclk := r.2.setWidth 2 } }

/-- CLK_STATUS (R68, R141). -/
def clkStatus (s : State) : BitVec 32 :=
  let r := s.clk.ref
  BitVec.ofNat 32 ((r == .locked).toNat + 2 * (r == .holdover || r == .requal).toNat + 4 * (r == .requal || r == .slew).toNat +
    8 * s.clk.sysPll.toNat + 16 * (s.start.straps.getLsbD 2).toNat + 32 * s.pins.refclk.toNat)

/-- HOLDOVER_TIME: seconds in the current holdover, or in the last one. -/
def holdoverTime (s : State) : Nat :=
  if s.clk.ref == .holdover || s.clk.ref == .requal then (s.now - s.clk.holdoverFrom) / secC 1 else s.clk.holdoverLast

/-- Level of a GPIO pin: what drives it from inside, or the level outside (R143, R160). -/
def gpioLevel (s : State) (n : Nat) : Bool :=
  match tblAt s.pins.fn n .gpio with
  | .gpio => if s.pins.gpioOe.getLsbD n then s.pins.gpioOut.getLsbD n else s.pins.gpioIn.getLsbD n
  | .capture _ => s.pins.gpioIn.getLsbD n
  | _ => tblAt s.pins.level n false

/-- The levels at the GPIO balls that the device does not drive, inputs of the board that no row reports, read as they then stand: a
free value (R143; log 52). -/
def senseGpio (s : State) : State :=
  let r := drawFree s
  { r.1 with pins := { r.1.pins with gpioIn := r.2.setWidth 32 } }

/-- GPIO_IN. -/
def gpioIn (s : State) : BitVec 32 :=
  (List.range 32).foldl (fun v n => if gpioLevel s n then v ||| (1#32 <<< n) else v) 0

/-- Whether IRQ_Nn is driven low: a latch is set, or the start has failed (R88, R144). -/
def irqLow (s : State) (n : Nat) : Bool :=
  (List.range 8).any (fun k => tblAt s.latches (8 * n + k) 0 != 0) || (n == 0 && s.start.phase == .failure)

/-- Whether a BAR0 offset is a register of R140. -/
def isRegister (o : Nat) : Bool :=
  o % 4 == 0 && (decide (o ≤ 0x28) || decide (0x30 ≤ o ∧ o ≤ 0x50) || decide (0x60 ≤ o ∧ o ≤ 0x68) ||
    (decide (0x100 ≤ o ∧ o < 0x200) && decide (o % 0x40 ≤ 0x30)) || decide (0x200 ≤ o ∧ o ≤ 0x280) ||
    decide (0x300 ≤ o ∧ o ≤ 0x380))

/-- HCn_CTX (R141). -/
def ctxRegister (s : State) (hc : Hc) : BitVec 32 :=
  BitVec.ofNat 32 ((ctx s hc).st.toNat + 8 * bindOf s hc +
    128 * (parStored s (0x20 + hc.val) != BitVec.ofNat 64 (ctx s hc).bind).toNat)

/-- A register of the HCn block, with the effect of reading it (R140, R142). -/
def readHcReg (s : State) (hc : Hc) (r : Nat) : State × BitVec 32 :=
  let c := ctx s hc
  if r = 0x00 then (s, c.sqTail.setWidth 32)
  else if r = 0x04 then (s, c.sqHead.setWidth 32)
  else if r = 0x08 then (s, c.cqTail.setWidth 32)
  else if r = 0x0C then (s, c.cqHead.setWidth 32)
  else if r = 0x10 then (s, c.eqTail.setWidth 32)
  else if r = 0x14 then (s, c.eqHead.setWidth 32)
  else if r = 0x18 then (s, ctxRegister s hc)
  else if r = 0x1C then (s, BitVec.ofNat 32 c.journal.length)
  else if r = 0x20 then (setCtx s hc { c with dbIgnored := 0 }, c.dbIgnored)
  else if r = 0x24 then (setCtx s hc { c with eqLost := 0 }, c.eqLost)
  else if r = 0x28 then
    (setCtx s hc { c with time1 := ((time s) >>> 32).setWidth 32, time2 := ((time s) >>> 64).setWidth 8 },
     (time s).setWidth 32)
  else if r = 0x2C then (s, c.time1)
  else if r = 0x30 then (s, c.time2.setWidth 32)
  else (s, 0)

/-- A direct register at a mapped offset, with the effect of reading it (R9, R140). -/
def readReg (s : State) (o : Nat) : State × BitVec 32 :=
  if o = 0x00 then (s, 0x197403AB)
  else if o = 0x04 then (s, s.otp.extractLsb' 64 32)
  else if o = 0x08 then (s, s.otp.extractLsb' 96 32)
  else if o = 0x0C then (s, s.otp.extractLsb' 0 32)
  else if o = 0x10 then (s, s.otp.extractLsb' 32 32)
  else if o = 0x14 then (s, startStatus s)
  else if o = 0x18 then (s, s.start.detail.setWidth 32)
  else if o = 0x1C then (s, devStatus s)
  else if o = 0x28 then (s, wdtStatus s)
  else if o = 0x30 then (senseRefclk s, clkStatus (senseRefclk s))
  else if o = 0x34 then (s, s.clk.glitch)
  else if o = 0x38 then (s, s.pps.reject)
  else if o = 0x3C then (s, BitVec.ofNat 32 (holdoverTime s))
  else if o = 0x40 then (s, s.temp.t0.setWidth 32)
  else if o = 0x44 then (s, s.temp.t1.setWidth 32)
  else if o = 0x48 then (s, s.temp.t2.setWidth 32)
  else if o = 0x4C then (s, s.temp.t3.setWidth 32)
  else if o = 0x50 then (s, BitVec.ofNat 32 ((tempMax s).1.toNat + 4096 * (tempMax s).2))
  else if o = 0x60 then (senseGpio s, gpioIn (senseGpio s))
  else if o = 0x64 then (s, s.pins.gpioOut)
  else if o = 0x68 then (s, s.pins.gpioOe)
  else if 0x100 ≤ o ∧ o < 0x200 then readHcReg s (Fin.ofNat 4 ((o - 0x100) / 0x40)) (o % 0x40)
  else if 0x200 ≤ o ∧ o < 0x280 then (s, tblAt s.latches ((o - 0x200) / 4) 0)
  else if o = 0x280 then
    (s, BitVec.ofNat 32 ((List.range 4).foldl (fun v n => if irqLow s n then v + 2 ^ n else v) 0))
  else if 0x300 ≤ o ∧ o < 0x380 then
    let e := tblAt s.errLog.entries ((o - 0x300) / 8) ⟨0, 0⟩
    (s, if o % 8 = 0 then e.a else e.b)
  else if o = 0x380 then
    (s, BitVec.ofNat 32 (logHeld s.errLog + 32 * s.errLog.next.toNat + 512 * s.errLog.overwritten.toNat))
  else (s, 0)

/-! ### Doorbells and ring heads (R101, R111 to R114, R134, R158) -/

/-- Puts a context's stored binding into force (R97). -/
def applyBind (s : State) (hc : Hc) : State :=
  let s := applyStored s (fun id => id == 0x20 + hc.val)
  setCtx s hc { ctx s hc with bind := par s (0x20 + hc.val) }

/-- Consumes and completes with ST_CONTEXT_RESET the packets that were published when the reset began (R133 step 3);
answers whether the drain has ended. -/
def drain (hc : Hc) : Nat → State → State × Bool
  | 0, s => (s, true)
  | n + 1, s =>
    let c := ctx s hc
    if c.sqHead = c.sqTail then (s, true)
    else match sqHeader s hc with
      | .poisoned => (stopAtHeader s hc, true)
      | .bad => (stopAtHeader s hc, true)
      | _ =>
        let r := readWord s (ringBase hc + c.sqHead.toNat % 1024) 11
        let h := r.2.getD 0
        if sqCount c < fld h 37 28 + 1 then (s, true)
        else if cqFree c < roomOf (fld h 11 0) then (s, false)
        else
          drain hc n (completeAs (consume r.1 hc h) hc (fld h 11 0) h stContextReset [])

/-- The drain of a DRAINING context goes on; the context becomes DETACHED at its end (R133 steps 3 to 5). -/
def drainNow (s : State) (hc : Hc) : State :=
  if (ctx s hc).st = 2 then
    let r := drain hc 1024 s
    if r.2 then applyBind (setCtx r.1 hc { ctx r.1 hc with st := 0 }) hc else r.1
  else s

/-- The drain of a DRAINING context, which waits for firmware start in a warm start, whose journal scan comes first (R136). -/
def drainOn (s : State) (hc : Hc) : State := if serving s then drainNow s hc else s

/-- Whether a new index lies between a consumer index and `limit` words past it, not behind `old`. -/
def indexAhead {n : Nat} (base old new : BitVec n) (limit : Nat) : Bool :=
  decide ((old - base).toNat ≤ (new - base).toNat ∧ (new - base).toNat ≤ limit)

/-- A doorbell value is acted on: the tail moves, and an interpreter that stopped at a rewritten header goes on
(R113, R121). -/
def ringDoorbell (s : State) (hc : Hc) (t : BitVec 11) : State :=
  let c := ctx s hc
  let s := setCtx s hc { c with sqTail := t }
  match sqHeader s hc with
  | .poisoned => if c.stopped ∨ t = c.sqHead then s else stopAtHeader s hc
  | .bad => if c.stopped ∨ t = c.sqHead then s else stopAtHeader s hc
  | _ => setCtx s hc { ctx s hc with stopped := false }

/-- A write of HCn_SQ_TAIL: acted on, latched during a warm start, or counted and ignored (R77, R113, R134). -/
def writeSqTail (s : State) (hc : Hc) (v : BitVec 32) : Except Nat State :=
  let c := ctx s hc
  let t := v.setWidth 11
  if v.toNat ≥ 2048 then .error 8
  else if c.st ≠ 1 then .ok (setCtx s hc { c with dbIgnored := sat32 c.dbIgnored })
  else if indexAhead c.sqHead (c.latched.getD c.sqTail) t 1024 = false then .error 5
  else if !serving s then .ok (setCtx s hc { c with latched := some t })
  else .ok (ringDoorbell s hc t)

/-- A write of HCn_CQ_HEAD: frees room, rearms vector 0 when it advances, and lets a drain go on (R101, R114, R133). -/
def writeCqHead (s : State) (hc : Hc) (v : BitVec 32) : Except Nat State :=
  let c := ctx s hc
  let h := v.setWidth 11
  if v.toNat ≥ 2048 then .error 8
  else if (c.cqTail - c.cqHead).toNat < (h - c.cqHead).toNat then .error 5
  else if h = c.cqHead then .ok s
  else .ok (drainOn (setCtx s hc { c with cqHead := h, vec0 := true }) hc)

/-- A write of HCn_EQ_HEAD: frees room, rearms vector 1 and ends an overflow episode when it advances (R101, R158). -/
def writeEqHead (s : State) (hc : Hc) (v : BitVec 32) : Except Nat State :=
  let c := ctx s hc
  let h := v.setWidth 10
  if v.toNat ≥ 1024 then .error 8
  else if (c.eqTail - c.eqHead).toNat < (h - c.eqHead).toNat then .error 5
  else if h = c.eqHead then .ok s
  else .ok (setCtx s hc { c with eqHead := h, vec1 := true, eqFull := false })

/-- A write of HCn_CTX: attaches a DETACHED bound context (R134, R141). -/
def writeCtx (s : State) (hc : Hc) (v : BitVec 32) : Except Nat State :=
  let c := ctx s hc
  if v.toNat ≥ 256 then .error 8
  else if v.getLsbD 2 && c.st == 0 && bound s hc then .ok (setCtx s hc { c with st := 1 })
  else .ok s

/-- The GPIO pins that a context holds and that carry the GPIO function, as a mask (R143). -/
def heldGpio (s : State) (hc : Hc) : BitVec 32 :=
  (List.range 32).foldl
    (fun m n => if owns s hc 5 n && tblAt s.pins.fn n .gpio == .gpio then m ||| (1#32 <<< n) else m) 0

def writeGpioOut (s : State) (hc : Hc) (v : BitVec 32) : State :=
  let m := heldGpio s hc
  { s with pins := { s.pins with gpioOut := (s.pins.gpioOut &&& ~~~m) ||| (v &&& m) } }

def writeGpioOe (s : State) (hc : Hc) (v : BitVec 32) : State :=
  let m := heldGpio s hc
  { s with pins := { s.pins with gpioOe := (s.pins.gpioOe &&& ~~~m) ||| (v &&& m) } }

/-- A write of IRQn_LATCHk by the holder of the pin clears the bits written as 1 (R9, R144). -/
def writeLatch (s : State) (hc : Hc) (pin k : Nat) (v : BitVec 32) : State :=
  if owns s hc 5 (52 + pin) then
    { s with latches := tblPut s.latches (8 * pin + k) (tblAt s.latches (8 * pin + k) 0 &&& ~~~v) }
  else s

/-- A write to a direct register through an attachment (R109, R139, R140). -/
def writeReg (s : State) (att : Att) (o : Nat) (v : BitVec 32) : Except Nat State :=
  if isRegister o = false then .error 9
  else match ctxOf s att with
    | none => .ok s
    | some hc =>
      if 0x100 ≤ o ∧ o < 0x200 then
        if (o - 0x100) / 0x40 ≠ hc.val then .ok s
        else if o % 0x40 = 0x00 then writeSqTail s hc v
        else if o % 0x40 = 0x0C then writeCqHead s hc v
        else if o % 0x40 = 0x14 then writeEqHead s hc v
        else if o % 0x40 = 0x18 then writeCtx s hc v
        else .ok s
      else if o = 0x64 then .ok (writeGpioOut s hc v)
      else if o = 0x68 then .ok (writeGpioOe s hc v)
      else if 0x200 ≤ o ∧ o < 0x280 then .ok (writeLatch s hc ((o - 0x200) / 0x20) ((o % 0x20) / 4) v)
      else .ok s

/-- A register write as a command of the host, where the registers answer. -/
def hostRegWrite (dt : Nat) (s : State) (att : Att) (o : Nat) (v : BitVec 32) : Host.Outcome State Fault Refusal :=
  let s := advance dt s
  if regsServed s && attachmentOn s att then orFault (writeReg s att o v) else .next s

/-- A register read as a command of the host: the value leaves through the attachment. -/
def hostRegRead (dt : Nat) (s : State) (att : Att) (o : Nat) : Host.Outcome State Fault Refusal :=
  let s := advance dt s
  if regsServed s && attachmentOn s att then
    let r := readReg s o
    .next (emit r.1 (.register att r.2))
  else .next s

/-- SQ_DOORBELL (R113, R134). -/
def execSqDoorbell (dt : Nat) (att : Att) (hc : Hc) (value : BitVec 32) (s : State) :
    Host.Outcome State Fault Refusal := hostRegWrite dt s att (0x100 + 0x40 * hc.val) value

/-- CQ_HEAD_WRITE (R101, R114). -/
def execCqHeadWrite (dt : Nat) (att : Att) (hc : Hc) (value : BitVec 32) (s : State) :
    Host.Outcome State Fault Refusal := hostRegWrite dt s att (0x10C + 0x40 * hc.val) value

/-- EQ_HEAD_WRITE (R158). -/
def execEqHeadWrite (dt : Nat) (att : Att) (hc : Hc) (value : BitVec 32) (s : State) :
    Host.Outcome State Fault Refusal := hostRegWrite dt s att (0x114 + 0x40 * hc.val) value

/-- HC_ATTACH (R134). -/
def execHcAttach (dt : Nat) (att : Att) (hc : Hc) (value : BitVec 32) (s : State) :
    Host.Outcome State Fault Refusal := hostRegWrite dt s att (0x118 + 0x40 * hc.val) value

/-- HC_TIME_SNAPSHOT (R142). -/
def execHcTimeSnapshot (dt : Nat) (att : Att) (hc : Hc) (s : State) : Host.Outcome State Fault Refusal :=
  hostRegRead dt s att (0x128 + 0x40 * hc.val)

/-- IRQ_LATCH_CLEAR (R144). -/
def execIrqLatchClear (dt : Nat) (att : Att) (pin : Fin 4) (k : Fin 8) (value : BitVec 32) (s : State) :
    Host.Outcome State Fault Refusal := hostRegWrite dt s att (0x200 + 0x20 * pin.val + 4 * k.val) value

/-- GPIO_OUT_WRITE (R143). -/
def execGpioOutWrite (dt : Nat) (att : Att) (value : BitVec 32) (s : State) : Host.Outcome State Fault Refusal :=
  hostRegWrite dt s att 0x64 value

/-- GPIO_OE_WRITE (R143). -/
def execGpioOeWrite (dt : Nat) (att : Att) (value : BitVec 32) (s : State) : Host.Outcome State Fault Refusal :=
  hostRegWrite dt s att 0x68 value

/-- HC_DB_IGNORED_READ (R134). -/
def execHcDbIgnoredRead (dt : Nat) (att : Att) (hc : Hc) (s : State) : Host.Outcome State Fault Refusal :=
  hostRegRead dt s att (0x120 + 0x40 * hc.val)

/-- HC_EQ_LOST_READ (R158). -/
def execHcEqLostRead (dt : Nat) (att : Att) (hc : Hc) (s : State) : Host.Outcome State Fault Refusal :=
  hostRegRead dt s att (0x124 + 0x40 * hc.val)

/-- REGISTER_WRITE (R139). -/
def execRegisterWrite (dt : Nat) (att : Att) (offset : BitVec 16) (value : BitVec 32) (s : State) :
    Host.Outcome State Fault Refusal := hostRegWrite dt s att offset.toNat value

/-- CQ_COALESCE_EXPIRY (R101): a coalesced vector 0 is signalled. -/
def execCqCoalesceExpiry (dt : Nat) (hc : Hc) (s : State) : Host.Outcome State Fault Refusal :=
  always dt s (fun s =>
    let c := ctx s hc
    match c.coalesce with
    | some t => if regsServed s && due s t then signal (setCtx s hc { c with coalesce := none }) hc 0 else s
    | none => s)

/-- LOCK_LEASE_EXPIRY (R130). -/
def execLockLeaseExpiry (dt : Nat) (hc : Hc) (s : State) : Host.Outcome State Fault Refusal :=
  always dt s (fun s =>
    if serving s && s.locks.any (fun e => e.2.hc == hc && due s e.2.till) then breakLocks s hc 0 else s)

/-! ### SHM through BAR2 and HSPI (R22, R23, R100, R102, R105 to R109) -/

/-- Whether a word lies in a buffer of an outstanding command. -/
def inBuffer (a : Nat) (b : PostedBuf) : Bool :=
  b.shm && decide (b.addr.toNat ≤ a ∧ a < b.addr.toNat + (b.length + 8) / 9)

/-- The undefined action, if any, in a context's write of an SHM word (R100, R121, R569 actions 1 to 3). -/
def shmWriteUndef (s : State) (hc : Hc) (a : Nat) (full : Bool) : Option Nat :=
  let c := ctx s hc
  let sq := decide (ringBase hc ≤ a ∧ a < ringBase hc + 1024)
  let win := decide (windowBase hc ≤ a ∧ a < windowBase hc + 65536)
  let ahead := (a + 2048 - ringBase hc - c.sqHead.toNat % 1024) % 1024
  if !sq && !win then some 1
  else if sq && decide (ahead < sqCount c) && !(full && c.stopped && ahead == 0) then some 2
  else if win && (c.bufs ++ c.injects).any (inBuffer a) then some 3
  else none

/-- Whether SHM is being cleared and initialised by a cold start (R82). -/
def coldStarting (s : State) : Bool := s.start.phase == .starting && !s.start.warm

/-- Whether host accesses to SHM are served: firmware, a recovery start or a warm start (R82, R88). -/
def shmServed (s : State) : Bool := serving s || (s.start.phase == .starting && s.start.warm)

/-- The padded view of a word: bytes 9 to 15 read as zero (R6). -/
def padded (w : Word) : BitVec 128 := w.setWidth 128

/-- BAR2_READ (R6, R98, R102, R82): a start that failed has not ended step 7, so a read returns zero (DEDUCED, log 49). -/
def execBar2Read (dt : Nat) (e : Fin 2) (word : BitVec 21) (s : State) : Host.Outcome State Fault Refusal :=
  always dt s (fun s =>
    match ctxOf s (.pcie e) with
    | none => s
    | some _ =>
      if coldStarting s || s.start.phase == .failure then emit s (.bar2 e false 0)
      else if shmServed s then
        match hostRead s word.toNat 8 with
        | (s', some d) => emit s' (.bar2 e false (padded d))
        | (s', none) => emit s' (.bar2 e true (padded (physData (memRaw s.mem word.toNat))))
      else s)

/-- The octets of `new` where enabled, of `old` elsewhere (R23). -/
def mergeOctets (enable : BitVec 9) (old new : Word) : Word :=
  (List.range 9).foldl (fun w k =>
    if enable.getLsbD k then (w &&& ~~~(0xFF#72 <<< (8 * k))) ||| (new &&& (0xFF#72 <<< (8 * k))) else w) old

/-- BAR2_WRITE (R6, R23, R33, R82, R98): the 16 bytes of the padded view with their byte enables; bytes 9 to 15 are ignored.
DESIGN CHOICE: a poisoned write that the endpoint would discard or ignore anyway, while BAR2 is not served or no context is bound,
is not counted in POISON_TLP_DISCARD (log 203). -/
def execBar2Write (dt : Nat) (e : Fin 2) (word : BitVec 21) (enables : BitVec 16) (bytes : BitVec 128) (poisoned : Bool)
    (s : State) : Host.Outcome State Fault Refusal :=
  let s := advance dt s
  let a := word.toNat
  let enable := enables.setWidth 9
  let data : Word := bytes.setWidth 72
  match ctxOf s (.pcie e) with
  | none => .next s
  | some hc =>
    if !shmServed s then .next s
    else if poisoned then .next (bump s 0x10F)
    else if enable = 0 then .next s
    else match shmWriteUndef s hc a (enable == BitVec.allOnes 9) with
      | some n => .fault (.undefinedHostAction n)
      | none =>
        if enable = BitVec.allOnes 9 then .next (writeWord s a data)
        else match readWord s a 15 with
          | (s, some old) => .next (writeWord s a (mergeOctets enable old data))
          | (s, none) => .next (bump s 0x10E)

/-- The command port of the context that a port serves: restarts the inactivity timer at CS_N fall (R108). -/
def hspiTouch (s : State) (p : Fin 4) : State :=
  match ctxOf s (.hspi p) with
  | none => s
  | some hc =>
    let dataPort := (bindOf s hc == 7 && p.val == 1) || (bindOf s hc == 8 && p.val == 3)
    if dataPort then s else setCtx s hc { ctx s hc with hspiSince := some s.now }

/-- Whether a port is the data port of a bonded pair. -/
def hspiDataPort (s : State) (p : Fin 4) : Bool :=
  match ctxOf s (.hspi p) with
  | none => false
  | some hc => (bindOf s hc == 7 && p.val == 1) || (bindOf s hc == 8 && p.val == 3)

/-- The response phase: marker, STATUS with INDEX, data, RCRC (R105). -/
def hspiRespond (s : State) (p : Fin 4) (status : Status) (index : Nat) (data : Octets) : State :=
  let body := leOctets 4 (status.toNat + 65536 * index) ++ data
  emit s (.hspi p (0x5A :: body ++ beOctets 2 (crc16 body).toNat))

/-- A header that passes HCRC: ADDR and COUNT (R105). -/
def hspiHeader (h : Octets) : Option (Nat × Nat × Nat) :=
  if h.length = 9 ∧ natOfBe (h.drop 7) = (crc16 (h.take 7)).toNat then
    some ((h.getD 0 0).toNat, natOfLe ((h.drop 1).take 4), natOfLe ((h.drop 5).take 2))
  else none

/-- What every HSPI transaction does first: CS_N falls, and the header is checked (R106, R108). `cmd` is the row's
command code; another code in a sound header is action 7 of R569. -/
def hspiTransaction (dt : Nat) (p : Fin 4) (header : Octets) (cmd : Nat) (s : State)
    (body : Nat → Nat → State → Except Nat State) : Host.Outcome State Fault Refusal :=
  let s := advance dt s
  if !regsServed s then .next s
  else
    let s := hspiTouch s p
    if header.length < 9 then .next (bump s (0x281 + 4 * p.val))
    else match hspiHeader header with
      | none => .next (bump s (0x280 + 4 * p.val))
      | some (c, a, n) => if c = cmd then orFault (body a n s) else .fault (.undefinedHostAction 7)

/-- HSPI_WORD_READ (R98, R106, R107). -/
def execHspiWordRead (dt : Nat) (p : Fin 4) (header : Octets) (inTime : Bool) (s : State) :
    Host.Outcome State Fault Refusal :=
  hspiTransaction dt p header 0x11 s (fun a n s =>
    match ctxOf s (.hspi p) with
    | none => .ok (hspiRespond s p stNotOwner 0 [])
    | some _ =>
      if s.start.phase == .failure then .ok (hspiRespond s p stNotOwner 0 [])
      else if n = 0 ∨ 256 < n ∨ 2 ^ 21 < a + n then .ok (hspiRespond s p stLength 0 [])
      else if !inTime then .ok (bump (hspiRespond s p stBusy 0 []) (0x283 + 4 * p.val))
      else if coldStarting s then .ok (hspiRespond s p stOk 0 (List.replicate (9 * n) 0))
      else
        let r := hostFetch 9 n a s
        match r.2.findIdx? (·.isNone) with
        | some i => .ok (hspiRespond r.1 p stPoisoned i [])
        | none => .ok (hspiRespond r.1 p stOk 0 (unpackWords (r.2.filterMap id))))

/-- Full-word writes of a run, each checked for an undefined action (R100, R106). -/
def hostWriteRun (hc : Hc) : Nat → List Word → State → Except Nat State
  | _, [], s => .ok s
  | a, w :: ws, s =>
    match shmWriteUndef s hc a true with
    | some n => .error n
    | none => hostWriteRun hc (a + 1) ws (writeWord s a w)

/-- HSPI_WORD_WRITE (R98, R106, R107). DESIGN CHOICE: R106 and R107 give no order among their checks; the model judges the binding
first, then DCRC, then COUNT and the end of SHM, then the time (log 205). -/
def execHspiWordWrite (dt : Nat) (p : Fin 4) (header data : Octets) (dcrc : BitVec 16) (inTime : Bool) (s : State) :
    Host.Outcome State Fault Refusal :=
  hspiTransaction dt p header 0x12 s (fun a n s =>
    if data.length ≠ 9 * n then .ok (bump s (0x281 + 4 * p.val))
    else match ctxOf s (.hspi p) with
    | none => .ok (hspiRespond s p stNotOwner 0 [])
    | some hc =>
      if s.start.phase == .failure then .ok (hspiRespond s p stNotOwner 0 [])
      else if dcrc ≠ crc16 data then .ok (bump (hspiRespond s p stHspiCrc 0 []) (0x282 + 4 * p.val))
      else if n = 0 ∨ 256 < n ∨ 2 ^ 21 < a + n then .ok (hspiRespond s p stLength 0 [])
      else if !inTime then .ok (bump (hspiRespond s p stBusy 0 []) (0x283 + 4 * p.val))
      else if coldStarting s then .ok (hspiRespond s p stOk 0 [])
      else match hostWriteRun hc a (packWords n data) s with
        | .ok s => .ok (hspiRespond s p stOk 0 [])
        | .error k => .error k)

/-- Reads `n` registers from an offset; a reserved offset is action 9 of R569. -/
def readRegs : Nat → Nat → State → Except Nat (State × Octets)
  | 0, _, s => .ok (s, [])
  | n + 1, o, s =>
    if isRegister o = false then .error 9
    else
      let r := readReg s o
      match readRegs n (o + 4) r.1 with
      | .ok (s', os) => .ok (s', leOctets 4 r.2.toNat ++ os)
      | .error k => .error k

/-- HSPI_REG_READ (R105, R106). DESIGN CHOICE: the data port of a bonded pair carries word transactions only; the model answers a
register transaction there with ST_NOT_OWNER, and serves a NOP there like on any port (log 204). -/
def execHspiRegRead (dt : Nat) (p : Fin 4) (header : Octets) (inTime : Bool) (s : State) :
    Host.Outcome State Fault Refusal :=
  hspiTransaction dt p header 0x21 s (fun a n s =>
    if hspiDataPort s p then .ok (hspiRespond s p stNotOwner 0 [])
    else if n = 0 ∨ 64 < n then .ok (hspiRespond s p stLength 0 [])
    else if !inTime then .ok (bump (hspiRespond s p stBusy 0 []) (0x283 + 4 * p.val))
    else match readRegs n a s with
      | .ok (s, os) => .ok (hspiRespond s p stOk 0 os)
      | .error k => .error k)

/-- Writes registers from an offset upward (R109). -/
def writeRegs (att : Att) : Nat → Octets → Nat → State → Except Nat State
  | 0, _, _, s => .ok s
  | n + 1, os, o, s =>
    match writeReg s att o (BitVec.ofNat 32 (natOfLe (os.take 4))) with
    | .ok s => writeRegs att n (os.drop 4) (o + 4) s
    | .error k => .error k

/-- HSPI_REG_WRITE (R106, R109). -/
def execHspiRegWrite (dt : Nat) (p : Fin 4) (header data : Octets) (dcrc : BitVec 16) (inTime : Bool) (s : State) :
    Host.Outcome State Fault Refusal :=
  hspiTransaction dt p header 0x22 s (fun a n s =>
    if data.length ≠ 4 * n then .ok (bump s (0x281 + 4 * p.val))
    else if hspiDataPort s p then .ok (hspiRespond s p stNotOwner 0 [])
    else if dcrc ≠ crc16 data then .ok (bump (hspiRespond s p stHspiCrc 0 []) (0x282 + 4 * p.val))
    else if n = 0 ∨ 64 < n then .ok (hspiRespond s p stLength 0 [])
    else if !inTime then .ok (bump (hspiRespond s p stBusy 0 []) (0x283 + 4 * p.val))
    else match writeRegs (.hspi p) n data a s with
      | .ok s => .ok (hspiRespond s p stOk 0 [])
      | .error k => .error k)

/-- HSPI_NOP (R105, R108): ADDR and COUNT are 0; on a data port as on any other (log 204). -/
def execHspiNop (dt : Nat) (p : Fin 4) (header : Octets) (s : State) : Host.Outcome State Fault Refusal :=
  hspiTransaction dt p header 0x30 s (fun a n s =>
    if a ≠ 0 ∨ n ≠ 0 then .error 7 else .ok (hspiRespond s p stOk 0 []))

/-- HSPI_ABORT (R106): CS_N rises before the transaction ends. -/
def execHspiAbort (dt : Nat) (p : Fin 4) (s : State) : Host.Outcome State Fault Refusal :=
  always dt s (fun s => if regsServed s then bump (hspiTouch s p) (0x281 + 4 * p.val) else s)

end Sys2Proof.Machine
end

