-- ==== Sys2Proof/Machine/Clock.lean ====
section
/-!
DEFINITION. Reference qualification and holdover (R66 to R69), junction temperature (R62), watchdog kicks and engine
heartbeats (R78, R210), and the debug port (R45).
-/

namespace Sys2Proof.Machine

/-! ### Reference (R66 to R69) -/

/-- Loss of REF_IN by one of the checks: 1 presence, 2 glitch, 3 range (R67, R68). While it is not qualified the failure is noted, and
the window of 1 ms begins anew (R66, R81). -/
def refLoss (s : State) (cause : Nat) : State :=
  let s := { s with clk := { s.clk with lossAt := some s.now } }
  match s.clk.ref with
  | .locked | .slew =>
    raiseEv { s with clk := { s.clk with ref := .holdover, holdoverFrom := s.now } } 3 (at' 0 cause)
      (s.clk.glitch.setWidth 72)
  | .requal => { s with clk := { s.clk with ref := .holdover } }
  | .acquiring =>
    if s.start.stage == .cleanerLock then
      { s with clk := { s.clk with ref := .notQualified }, start := { s.start with stage := .refQual, stageAt := s.now } }
    else s
  | _ => s

/-- Whether the reference checks run: power is good and the device is not held in reset. -/
def refChecked (s : State) : Bool :=
  match s.start.phase with
  | .held | .tapHeld | .tripped => false
  | _ => true

/-- REF_GLITCH (R66). -/
def execRefGlitch (dt : Nat) (s : State) : Host.Outcome State Fault Refusal :=
  always dt s (fun s =>
    if refChecked s then
      let recent := s.now :: s.clk.glitchAt.filter (fun t => decide (s.now < t + msC 1))
      let s := { s with clk := { s.clk with glitch := sat32 s.clk.glitch, glitchAt := recent } }
      if 8 ≤ recent.length then refLoss { s with clk := { s.clk with glitchAt := [] } } 2 else s
    else s)

/-- REF_PRESENCE_LOSS (R66). -/
def execRefPresenceLoss (dt : Nat) (s : State) : Host.Outcome State Fault Refusal :=
  always dt s (fun s => if refChecked s then refLoss s 1 else s)

/-- Whether none of the checks has failed in the window of 1 ms that ends now (R66, R81). -/
def windowClear (s : State) : Bool :=
  due s (s.start.stageAt + msC 1) && (match s.clk.lossAt with | some t => due s (t + msC 1) | none => true)

/-- REF_RANGE_WINDOW (R66, R68, R81): a window within ±100 ppm, in which no other check failed, qualifies REF_IN at a start; one after
a loss begins its requalification. -/
def execRefRangeWindow (dt : Nat) (ppm : Int) (s : State) : Host.Outcome State Fault Refusal :=
  always dt s (fun s =>
    if refChecked s then
      if ppm < -100 ∨ 100 < ppm then refLoss s 3
      else match s.clk.ref with
        | .notQualified =>
          if s.start.phase == .starting && s.start.stage == .refQual && windowClear s then
            { s with clk := { s.clk with ref := .acquiring },
                     start := { s.start with stage := .cleanerLock, stageAt := s.now } }
          else s
        | .holdover => { s with clk := { s.clk with ref := .requal, requalFrom := s.now } }
        | _ => s
    else s)

/-- REF_REQUALIFIED (R68). -/
def execRefRequalified (dt : Nat) (s : State) : Host.Outcome State Fault Refusal :=
  always dt s (fun s =>
    if s.clk.ref == .requal && due s (s.clk.requalFrom + msC (par s 0x10)) then
      { s with clk := { s.clk with ref := .slew, holdoverLast := holdoverTime s } }
    else s)

/-- EV_REF_RESTORED (R68, R69). -/
def execEvRefRestored (dt : Nat) (s : State) : Host.Outcome State Fault Refusal :=
  always dt s (fun s =>
    if s.clk.ref == .slew then
      raiseEv { s with clk := { s.clk with ref := .locked, limit := false } } 4 (at' 0 s.clk.holdoverLast) 0
    else s)

/-- EV_REF_HOLDOVER_LIMIT (R69). -/
def execEvRefHoldoverLimit (dt : Nat) (s : State) : Host.Outcome State Fault Refusal :=
  always dt s (fun s =>
    let held := s.clk.ref == .holdover || s.clk.ref == .requal
    if held && !s.clk.limit && par s 0x11 != 0 && due s (s.clk.holdoverFrom + secC (par s 0x11)) then
      raiseEv { s with clk := { s.clk with limit := true } } 5 (at' 0 (par s 0x11)) 0
    else s)

/-! ### Temperature (R62) -/

/-- The readings of the four sensors. -/
def setTemps (s : State) (t0 t1 t2 t3 : BitVec 12) : State :=
  { s with temp := { s.temp with t0 := t0, t1 := t1, t2 := t2, t3 := t3 } }

/-- EV_TEMP_HIGH at the warning threshold, and again only after the reading has fallen 5 °C below it (R62). -/
def checkWarn (s : State) : State :=
  let m := tempMax s
  if tempHigh s && s.temp.armed then
    raiseEv { s with temp := { s.temp with armed := false } } 8 (at' 0 m.1.toNat ||| at' 12 m.2) 0
  else if m.1.toInt ≤ 16 * ((par s 0x0C00 : Int) - 5) then { s with temp := { s.temp with armed := true } }
  else s

/-- The run of readings at or above 120 °C, and the peak of that run and of the trip it ends in (R62, R95). -/
def trackHot (s : State) : State :=
  let m := (tempMax s).1
  let hot := if 16 * 120 ≤ m.toInt then (match s.temp.hotFrom with | some t => some t | none => some s.now) else none
  let on := s.start.phase == .tripped || s.temp.hotFrom.isSome
  let peak := if on && decide (m.toInt ≤ s.temp.peak.toInt) then s.temp.peak else m
  { s with temp := { s.temp with hotFrom := hot, peak := peak } }

/-- TEMP_SENSOR_READING (R62). -/
def execTempSensorReading (dt : Nat) (t0 t1 t2 t3 : BitVec 12) (s : State) : Host.Outcome State Fault Refusal :=
  always dt s (fun s =>
    let s := trackHot (setTemps s t0 t1 t2 t3)
    if serving s then checkWarn s else s)

/-! ### Watchdog and heartbeats (R78, R210) -/

/-- Heartbeat, trap and gate of a logical engine. -/
def engine (s : State) (n : Nat) : Engine := tblAt s.engines n {}

/-- The site that serves a logical engine: 0, 1 MC; 2 to 17 ME; 18 to 25 DV at sites 20 to 27; spares per the start
(R3, R15). -/
def siteOf (s : State) (n : Nat) : Nat :=
  if 2 ≤ n ∧ n ≤ 17 then
    if s.start.ms16.toNat = n - 2 then 18 else if s.start.ms17.toNat = n - 2 then 19 else n
  else if 18 ≤ n then (if s.start.ds8.toNat = n - 18 then 28 else n + 2)
  else n

/-- Whether a logical engine runs: neither trapped nor halted. -/
def engineRuns (s : State) (n : Nat) : Bool := !(engine s n).trapped && !tblAt s.halted (siteOf s n) false

/-- Whether every in-service ME and DV has advanced its heartbeat within mem.arb.heartbeat (R210); a gated engine is woken for a pass
of its service loop in time to do so (R221). -/
def heartbeatsFresh (s : State) : Bool :=
  (List.range 24).all (fun i => decide (s.now ≤ (engine s (i + 2)).beatAt + msC (par s 0x8805)))

/-- WDT_KICK (R78, R210). -/
def execWdtKick (dt : Nat) (core : Fin 2) (s : State) : Host.Outcome State Fault Refusal :=
  always dt s (fun s =>
    if s.wd.armed && engineRuns s core.val && heartbeatsFresh s then
      let k0 := s.wd.kick0 || core == 0
      let k1 := s.wd.kick1 || core == 1
      if k0 && k1 then { s with wd := { s.wd with since := s.now, kick0 := false, kick1 := false } }
      else { s with wd := { s.wd with kick0 := k0, kick1 := k1 } }
    else s)

/-- ENGINE_HEARTBEAT (R210): a pass of an engine's service loop, that of a gated or retained engine under Bellows' wake (R221). The
heartbeat word's place in local memory is the engine code's own: `Engine.heartbeat` holds it, and a read of local memory that the
engine keeps is a free value (log 46). -/
def execEngineHeartbeat (dt : Nat) (engine : Fin 26) (s : State) : Host.Outcome State Fault Refusal :=
  live dt s (fun s =>
    let e := tblAt s.engines engine.val {}
    if engineRuns s engine.val then
      { s with engines := tblPut s.engines engine.val { e with heartbeat := e.heartbeat + 1, beatAt := s.now } }
    else s)

/-! ### The TAP (R44, R45, R74) -/

/-- TAP_RESET (R74): TRST_N low resets the TAP, whose instruction becomes IDCODE (IEEE 1149.1; log 20). -/
def execTapReset (dt : Nat) (s : State) : Host.Outcome State Fault Refusal :=
  always dt s (fun s => { s with tap := {} })

/-- Whether ENG_DEBUG is offered: DEBUG_LOCK is zero (R45, R90), and the device is out of reset. DESIGN CHOICE: R45 does not say what an
operation does while the device is held in reset, when no engine runs; the model does nothing then (log 210). -/
def debugOpen (s : State) : Bool := fld s.otp 2322 2315 == 0 && refChecked s

/-- An ENG_DEBUG operation: the data register's fields, and its result at the next Capture-DR (R45). -/
def engDebug (dt op : Nat) (site : BitVec 5) (addr : BitVec 14) (data : Option Word) (s : State)
    (f : State → State × Option Word) : Host.Outcome State Fault Refusal :=
  always dt s (fun s =>
    if debugOpen s then
      let r := if site.toNat ≤ 28 then f s else (s, none)
      let d := match r.2 with | some d => d | none => data.getD r.1.tap.data
      { r.1 with tap := { r.1.tap with ir := 0x10, data := d, addr := addr, site := site, op := BitVec.ofNat 3 op, done := true,
                                       halted := tblAt r.1.halted site.toNat false } }
    else s)

/-- The engine of a site runs on: its registers are no longer what was written (R45; log 9). -/
def engineRan (s : State) (site : Nat) : State :=
  { s with engRegs := s.engRegs.filter (fun e => e.1 / 16384 != site),
           engEpoch := tblPut s.engEpoch site (tblAt s.engEpoch site 0 + 1) }

/-- ENG_DEBUG_STATUS (R45). -/
def execEngDebugStatus (dt : Nat) (site : BitVec 5) (s : State) : Host.Outcome State Fault Refusal :=
  engDebug dt 0 site 0 none s (fun s => (s, none))

/-- ENG_DEBUG_HALT (R45). -/
def execEngDebugHalt (dt : Nat) (site : BitVec 5) (s : State) : Host.Outcome State Fault Refusal :=
  engDebug dt 1 site 0 none s (fun s => ({ s with halted := tblPut s.halted site.toNat true }, none))

/-- ENG_DEBUG_RESUME (R45). -/
def execEngDebugResume (dt : Nat) (site : BitVec 5) (s : State) : Host.Outcome State Fault Refusal :=
  engDebug dt 2 site 0 none s (fun s => (engineRan { s with halted := tblErase s.halted site.toNat } site.toNat, none))

/-- ENG_DEBUG_SINGLE_STEP (R45): a halted site executes one instruction. -/
def execEngDebugSingleStep (dt : Nat) (site : BitVec 5) (s : State) : Host.Outcome State Fault Refusal :=
  engDebug dt 3 site 0 none s (fun s =>
    (if tblAt s.halted site.toNat false then engineRan s site.toNat else s, none))

/-- Address of a word of a site's local memory (R20). -/
def localAddr (site : Nat) (addr : Nat) : Nat := 0x400000 + 0x4000 * site + addr

/-- The debug port's read of a word of local memory. The port has no consumer code in R171 (log 200); what DATA shows of a poisoned or
uncorrectable word, and of a word that the engine keeps for itself (log 46), is a free value. -/
def debugRead (s : State) (a : Nat) : State × Option Word :=
  match decodePhys (memRaw s.mem a) with
  | .clean d => (s, some d)
  | .corrected d => (touchBlock s a, some d)
  | .invalid =>
    match deviceWord s a (drawFree s).2 with
    | some w => ((drawFree s).1, some w)
    | none => (s, some 0)
  | _ => (touchBlock (drawFree s).1 a, some (drawFree s).2)

/-- ENG_DEBUG_READ_LOCAL (R45). -/
def execEngDebugReadLocal (dt : Nat) (site : BitVec 5) (addr : BitVec 14) (s : State) :
    Host.Outcome State Fault Refusal :=
  engDebug dt 4 site addr none s (fun s => debugRead s (localAddr site.toNat addr.toNat))

/-- ENG_DEBUG_WRITE_LOCAL (R45). -/
def execEngDebugWriteLocal (dt : Nat) (site : BitVec 5) (addr : BitVec 14) (data : Word) (s : State) :
    Host.Outcome State Fault Refusal :=
  engDebug dt 5 site addr (some data) s (fun s => (writeWord s (localAddr site.toNat addr.toNat) data, none))

/-- ENG_DEBUG_READ_REGISTER (R45): the value written since the engine last ran, otherwise a free value (log 9). -/
def execEngDebugReadRegister (dt : Nat) (site : BitVec 5) (reg : BitVec 14) (s : State) :
    Host.Outcome State Fault Refusal :=
  engDebug dt 6 site reg none s (fun s =>
    let n := site.toNat
    if tblAt s.halted n false then
      (s, some ((tblGet s.engRegs (16384 * n + reg.toNat)).getD
        (Config.engineRegister n (tblAt s.engEpoch n 0) reg.toNat)))
    else
      let r := drawFree s
      (r.1, some r.2))

/-- ENG_DEBUG_WRITE_REGISTER (R45): what a running engine makes of its register since is not known (log 9). -/
def execEngDebugWriteRegister (dt : Nat) (site : BitVec 5) (reg : BitVec 14) (data : Word) (s : State) :
    Host.Outcome State Fault Refusal :=
  engDebug dt 7 site reg (some data) s (fun s =>
    (if tblAt s.halted site.toNat false then { s with engRegs := tblPut s.engRegs (16384 * site.toNat + reg.toNat) data }
      else engineRan s site.toNat, none))

end Sys2Proof.Machine
end

