-- ==== Sys2Proof/Machine/Scrub.lean ====
section
/-!
DEFINITION. The scrubber, the weak-word table and the spare rows (R172 to R189).
-/

namespace Sys2Proof.Machine

/-- Rows of a scrub pass (R179). -/
def scrubRows : Nat := 223232

/-- The in-service engine sites, ascending (R15, R179). -/
def inServiceSites (s : State) : List Nat :=
  (List.range 29).filter (fun site => (List.range 26).any (fun n => siteOf s n == site))

/-- First word of row n of a pass: SHM, TBM, then the local memory of the in-service sites (R179). -/
def scrubAddr (s : State) (n : Nat) : Nat :=
  if n < 196608 then 16 * n
  else localAddr ((inServiceSites s).getD ((n - 196608) / 1024) 0) (16 * ((n - 196608) % 1024))

/-! ### Repair records (R188) -/

/-- A repair record (R188). -/
def repairRecord (kind bank row spare : Nat) : BitVec 64 :=
  let low := 1 + 2 * spare + 16 * row + 65536 * bank + 2 ^ 24 * kind
  BitVec.ofNat 64 (low + 2 ^ 32 * (crc16 (leOctets 4 low)).toNat)

/-- Whether a record's CRC holds. -/
def recordGood (r : BitVec 64) : Bool := fld r 47 32 == (crc16 (leOctets 4 (fld r 31 0))).toNat

/-- The spare rows of a bank that are mapped or named by a record of this bank. -/
def spareTaken (s : State) (bank n : Nat) : Bool :=
  (tblGet s.scrub.spares (8 * bank + n)).isSome ||
    s.repairs.any (fun r => recordGood r && fld r 22 16 == bank && fld r 3 1 == n)

/-- The lowest-numbered free spare of a bank. -/
def freeSpare (s : State) (bank : Nat) : Option Nat := (List.range 8).find? (fun n => !spareTaken s bank n)

/-- A held error-log entry of an address and kind, as an index. -/
def logIndex (s : State) (a kind : Nat) : Nat := (logFind s.errLog a kind).getD 0

/-- Logs an entry of kinds 4, 5, 6 or 8 for the word that triggered a retirement (R177). -/
def logRepair (s : State) (a kind : Nat) : State := logError s a kind 0 0 (bankOf a)

/-- Writes a repair record, which takes 3 ms at most; the 256th is reported (R186 step 2, R188). -/
def putRepair (s : State) (r : BitVec 64) : State :=
  let s := { s with repairs := s.repairs ++ [r], scrub := { s.scrub with recordTill := s.now + msC 3 } }
  if s.repairs.length = 256 then raiseEv s 37 (at' 0 256) 0 else s

/-- Writes the repair record of a retirement, or reports that none is free (R186 step 2, R188). -/
def writeRecord (s : State) (a kind spare : Nat) : State :=
  if s.repairs.length < 256 then putRepair s (repairRecord kind (bankOf a) (rowOf a) spare)
  else logRepair (raiseEv s 37 (at' 0 256) 0) a 8

/-- A retirement finds no free spare (R187). -/
def noSpare (s : State) (a : Nat) : State :=
  let b := bankOf a
  let s := logRepair s a 6
  if s.scrub.exhausted.contains b then s
  else raiseEv { s with scrub := { s.scrub with exhausted := b :: s.scrub.exhausted } } 35 (at' 0 (b % 32)) 0

/-- A live move begins, or waits for the one that runs (R186 steps 1 and 2); one for want of a spare ends at once (R187). -/
def startMove (s : State) (a : Nat) : State :=
  match s.scrub.move with
  | some _ => { s with scrub := { s.scrub with waiting := s.scrub.waiting ++ [a] } }
  | none =>
    match freeSpare s (bankOf a) with
    | none => noSpare s a
    | some sp =>
      let s := writeRecord s a 1 sp
      { s with scrub := { s.scrub with move := some ⟨a, sp⟩ } }

/-- A row is retired: moved at once in SHM, recorded for the next start elsewhere (R185 to R187). -/
def retire (s : State) (a : Nat) : State :=
  if bankOf a < 32 then startMove s a
  else match freeSpare s (bankOf a) with
    | none => noSpare s a
    | some sp =>
      let room := decide (s.repairs.length < 256)
      let s := writeRecord s a 2 sp
      if room then bump (logRepair s a 5) 0x10C else s

/-! ### The weak-word table (R184) -/

/-- Whether an entry has expired in pass `p` for a window. -/
def weakExpired (p window : Nat) (e : Weak) : Bool := decide (e.first + window - 1 < p)

/-- Replaces the first entry that a test selects. -/
def replaceFirst (f : Weak → Bool) (x : Weak) : List Weak → List Weak
  | [] => []
  | e :: es => if f e then x :: es else e :: replaceFirst f x es

/-- The lowest count of a table. -/
def lowestCount (t : List Weak) : Nat := t.foldl (fun m e => min m e.count) 1000000

/-- The earliest first pass among the entries of a count. -/
def oldestOf (t : List Weak) (c : Nat) : Nat := t.foldl (fun m e => if e.count = c then min m e.first else m) (2 ^ 64)

/-- A correction of word `w` is counted; the word's row is retired at the threshold (R184). -/
def weakUpdate (s : State) (w : Nat) : State :=
  let p := s.scrub.pass
  let window := par s 0x8401
  let t := s.scrub.weak
  let fresh : Weak := ⟨w, p, 1⟩
  let set (s : State) (t : List Weak) : State := { s with scrub := { s.scrub with weak := t } }
  let s := match t.find? (fun e => e.word == w) with
    | some e =>
      set s (replaceFirst (fun x => x.word == w)
        (if weakExpired p window e then fresh else { e with count := e.count + 1 }) t)
    | none =>
      if t.length < 64 then set s (t ++ [fresh])
      else if t.any (weakExpired p window) then set s (replaceFirst (weakExpired p window) fresh t)
      else
        let c := lowestCount t
        let f := oldestOf t c
        set (bump s 0x10D) (replaceFirst (fun e => e.count == c && e.first == f) fresh t)
  match s.scrub.weak.find? (fun e => e.word == w) with
  | some e =>
    if par s 0x8400 ≤ e.count then retire (set s (s.scrub.weak.filter (fun x => x.word != w))) w else s
  | none => s

/-! ### Rows and passes (R172, R174, R175, R179, R180) -/

/-- The scrubber's treatment of one word (R172, R174, R175, R179). -/
def scrubWord (s : State) (a : Nat) : State :=
  match decodePhys (memRaw s.mem a) with
  | .invalid => s
  | .clean _ => s
  | .poisoned => { s with scrub := { s.scrub with poisonSeen := s.scrub.poisonSeen + 1 } }
  | .corrected d =>
    if [1, 2, 3].any (fun k => (logFind s.errLog a k).isSome) then poisonWord s a
    else weakUpdate (bump (writeWord s a d) 0x106) a
  | .bad =>
    let syn := syndrome (memRaw s.mem a)
    let s := logError (bump (poisonWord s a) 0x107) a 1 0 syn (bankOf a)
    raiseEv s 32 (at' 0 (a % 2 ^ 23)) (at' 0 (logIndex s a 1))

/-- The end of a pass: its counters, and EV_SCRUB_OVERRUN for one that lasted too long (R180, R195). -/
def endPass (s : State) : State :=
  let s := setCounter (bump s 0x109) 0x10A s.scrub.poisonSeen
  let took := s.now - s.scrub.passStart
  if secC s.scrub.period * (100 + par s 0x8002) < took * 100 then
    raiseEv s 36 (at' 0 s.scrub.pass) (at' 0 (took / msC 1))
  else s

/-- A pass begins (R180). -/
def beginPass (s : State) : State :=
  let s := applyKind s .scrubPass
  { s with scrub := { s.scrub with running := true, pass := s.scrub.pass + 1, passStart := s.now, nextRow := 0,
                                   period := par s 0x8001, poisonSeen := 0 } }

/-- SCRUB_PASS_START (R180). -/
def execScrubPassStart (dt : Nat) (s : State) : Host.Outcome State Fault Refusal :=
  live dt s (fun s =>
    if s.scrub.running && decide (scrubRows ≤ s.scrub.nextRow) && due s (s.scrub.passStart + secC s.scrub.period) then
      beginPass s
    else s)

/-- The scrubber's treatment of a row (R179). -/
def scrubRow (s : State) (a : Nat) : State := (List.range 16).foldl (fun s i => scrubWord s (a + i)) s

/-- First word of the row of its private memory that Anvil sweeps at the pace of row n of a pass (R179). DESIGN CHOICE: the spec does
not say which row; the model takes the 4,096 rows in ascending order over and over (log 213). -/
def anvilRow (n : Nat) : Nat := 0x800000 + 16 * (n % 4096)

/-- SCRUB_ROW (R179, R180): the next row of the pass, no earlier than its due time. -/
def execScrubRow (dt : Nat) (s : State) : Host.Outcome State Fault Refusal :=
  live dt s (fun s =>
    let n := s.scrub.nextRow
    if s.scrub.running && decide (n < scrubRows) &&
        due s (s.scrub.passStart + (n * secC s.scrub.period + scrubRows - 1) / scrubRows) then
      let s := scrubRow (scrubRow s (scrubAddr s n)) (anvilRow n)
      let s := { s with scrub := { s.scrub with nextRow := n + 1 } }
      if n + 1 = scrubRows then endPass s else s
    else s)

/-- The copy of one word to the spare: corrected, poison and invalid words kept (R186 step 4). -/
def copyWord (s : State) (a : Nat) : State :=
  match decodePhys (memRaw s.mem a) with
  | .corrected d => writeWord s a d
  | .bad => poisonWord s a
  | _ => s

/-- EV_ROW_RETIRED (R186 steps 3 to 6). Steps 3 to 5 are one step: no access falls between the moving mark and the switch, so no dirty
bit is ever set and the row's words in both places are those of `mem` (log 214). -/
def execEvRowRetired (dt : Nat) (s : State) : Host.Outcome State Fault Refusal :=
  live dt s (fun s =>
    match s.scrub.move with
    | none => s
    | some m =>
      let b := bankOf m.addr
      let first := m.addr - m.addr % 16
      let s := (List.range 16).foldl (fun s i => copyWord s (first + i)) s
      let s := { s with scrub := { s.scrub with move := none,
                                                spares := tblPut s.scrub.spares (8 * b + m.spare) (rowOf m.addr) } }
      let s := raiseEv s 34 (at' 0 b ||| at' 5 (rowOf m.addr) ||| at' 17 m.spare) (at' 0 (256 - s.repairs.length))
      let s := bump (logRepair s m.addr 4) 0x10B
      s.scrub.waiting.foldl startMove { s with scrub := { s.scrub with waiting := [] } })

end Sys2Proof.Machine
end

