-- ==== Sys2Proof/Machine/Anvil.lean ====
section
/-!
DEFINITION. Anvil (chapter 14): the KDF, loaded-key slots and epochs, the choice of keys, the derived-key cache, the
key store, and the key commands.
-/

namespace Sys2Proof.Machine

/-! ### Statuses (R483) -/

def stKeyOrphaned : Status := 0x500
def stKeyAbsent : Status := 0x501
def stKeyUsage : Status := 0x502
def stKeyUnwrap : Status := 0x503
def stKeyKcv : Status := 0x504
def stKeyMsgFormat : Status := 0x505
def stKeyMsgTarget : Status := 0x506
def stKeyMsgSignature : Status := 0x507
def stKeyMsgStale : Status := 0x508
def stKeyNoAuthority : Status := 0x509
def stKeySource : Status := 0x50A
def stNvsWrite : Status := 0x50B
def stEnrolled : Status := 0x50C
def stEntropy : Status := 0x50D

/-! ### HMAC and the KDF (R453, R454) -/

/-- The octets of a 256-bit digest, most significant first. -/
def digestOctets (d : BitVec 256) : Octets := beOctets 32 d.toNat

/-- HMAC-SHA-256 (FIPS 198-1). -/
def hmac (key msg : Octets) : Octets :=
  let k := key ++ List.replicate (64 - key.length) 0
  let inner := sha256 (k.map (· ^^^ 0x36) ++ msg)
  digestOctets (sha256 (k.map (· ^^^ 0x5C) ++ digestOctets inner))

/-- The SP 800-108 counter-mode KDF of R453. -/
def kdf (key label context : Octets) (bits : Nat) : Octets :=
  let out := (List.range ((bits + 255) / 256)).flatMap (fun i =>
    hmac key (beOctets 4 (i + 1) ++ label ++ [0] ++ context ++ beOctets 4 bits))
  out.take (bits / 8)

/-- An EUI-64, most significant octet first. -/
def euiOctets (e : Eui) : Octets := beOctets 8 e.toNat

/-- Domain and EUI-64 of a node key word (R381). -/
def keyDomain (w : Word) : BitVec 8 := (w >>> 64).setWidth 8
def keyEui (w : Word) : Eui := w.setWidth 64
def keyWord (d : BitVec 8) (e : Eui) : Word := (d ++ e : BitVec 72)

/-- The node key of a key word under a domain key (R454). -/
def nodeKey (key : Octets) (w : Word) : Octets :=
  kdf key [0x4E, 0x4F, 0x44, 0x45] (keyDomain w :: euiOctets (keyEui w)) 128

/-- The broadcast key of a domain (R454). -/
def broadcastKey (key : Octets) (d : BitVec 8) : Octets := kdf key [0x42, 0x43, 0x53, 0x54] [d] 128

/-- ROOT_KEY as octets (R90). -/
def rootKey (s : State) : Octets := leOctets 32 (fld s.otp 399 144)

/-- The key check value of an AES key (R451). -/
def kcvAes (key : Octets) : BitVec 16 := (aesBlock key (List.replicate 16 0) >>> 112).setWidth 16

/-- The key check value of a P-256 public key (R451). -/
def kcvPoint (xy : Octets) : BitVec 16 := (sha256 xy >>> 240).setWidth 16

/-- The identity private scalar from the 384-bit derivation (R454). -/
def identityScalar (k : Octets) : Nat := natOfBe k % (p256Order - 1) + 1

/-! ### Slots and epochs (R455 to R457) -/

def keySlot (s : State) (n : Nat) : KeySlot := tblAt s.anvil.slots n {}

/-- First word of a loaded-key slot and of a way of a cache set in Anvil private memory: 32 words for each of 1,024 slots and 4 for
each of 8,192 entries fill its 65,536 words (R448; the places are the model's own, log 215). -/
def slotBase (n : Nat) : Nat := 0x800000 + 32 * n
def wayBase (set way : Nat) : Nat := 0x808000 + 4 * (4 * set + way)

/-- The first `n` octets of an octet string, padded with zeros. -/
def padTo (n : Nat) (os : Octets) : Octets := (os ++ List.replicate n 0).take n

/-- The HMAC state of a key after its first block (R456). -/
def hmacState (key : Octets) (pad : Octet) : Octets :=
  (shaBlock shaH ((padTo 64 key).map (· ^^^ pad))).flatMap (beOctets 4)

/-- The code of a slot's state. -/
def slotCode : SlotSt → Nat
  | .empty => 0
  | .loading => 1
  | .loaded => 2
  | .orphaned => 3

/-- The words of a slot: what R456 says that it holds, in an order of the model's own (log 215). -/
def slotWords (k : KeySlot) : List Word :=
  let hmacs := if k.broadcast.isEmpty then [] else hmacState k.key 0x36 ++ hmacState k.key 0x5C
  [at' 0 (slotCode k.st) ||| at' 2 k.gen ||| at' 34 k.usage.toNat ||| at' 50 k.kcv.toNat ||| at' 66 k.revoked.toNat,
   at' 0 k.time ||| at' 40 k.kek.isSome.toNat ||| at' 41 (k.kek.getD (0, 0)).1, at' 0 (k.kek.getD (0, 0)).2] ++
    packWords 6 (padTo 54 k.key) ++ packWords 2 (padTo 18 k.broadcast) ++ packWords 8 (padTo 72 hmacs)

/-- Writes a slot: its words with their check bits, valid (R164, R456). -/
def setSlot (s : State) (n : Nat) (k : KeySlot) : State :=
  let s := writeWords s (slotBase n) (slotWords k)
  { s with anvil := { s.anvil with slots := tblPut s.anvil.slots n k } }

/-- Anvil's read of words for an operation, consumer code 12, and whether none of them is poisoned (R171). -/
def readKey (s : State) (a n : Nat) : State × Bool :=
  match readWords 12 n a s with
  | (s, .inl _) => (s, true)
  | (s, .inr _) => (s, false)

/-- The domain of a slot, when it is a domain's sub-slot. -/
def slotDomain (n : Nat) : Option Nat := if 16 ≤ n ∧ n < 528 then some ((n - 16) / 2) else none

def subSlot (d sub : Nat) : Nat := 16 + 2 * d + sub

/-- First word of the epoch table (R457). -/
def epochWord (n : Nat) : Nat := 0x72000 + n

/-- A slot's epoch, from the epoch table (R457). -/
def epoch (s : State) (n : Nat) : Nat := fld (peek s (epochWord n)) 31 0

/-- Removes cache entries, their words erased (R463). -/
def dropEntries (s : State) (p : CacheEntry → Bool) : State :=
  let s := (s.anvil.cache.filter p).foldl (fun s e => writeWords s (wayBase e.set e.way) [0, 0, 0, 0]) s
  { s with anvil := { s.anvil with cache := s.anvil.cache.filter (fun e => !p e) } }

/-- The epoch that a rise gives: one more than the table's, and where its word is poisoned a free value, the spec stating none
(R171, R457; log 216). -/
def nextEpoch (s : State) (n : Nat) : State × Nat :=
  match readWord s (epochWord n) 12 with
  | (s, some w) => (s, (fld w 31 0 + 1) % 2 ^ 32)
  | (s, none) => ((drawFree s).1, fld (drawFree s).2 31 0)

/-- An epoch rises: its table entry, the cache and, for a domain sub-slot, EV_KEY_ORPHANED (R457, R463). -/
def raiseEpoch (s : State) (n : Nat) : State :=
  let r := nextEpoch s n
  let e := r.2
  let s := bump (writeWord r.1 (epochWord n) (at' 0 e)) 0x142A
  let s := dropEntries s (fun c => c.slot == n)
  match slotDomain n with
  | some d => raiseEv s 224 (at' 0 d ||| at' 8 e) 0
  | none => s

/-- DEV_EUI64 as an EUI. -/
def ownEui (s : State) : Eui := BitVec.ofNat 64 (devEui s)

/-- Timebase seconds, 0 while UNSET. -/
def nowSeconds (s : State) : Nat := if s.tb.set then fld (time s) 71 32 else 0

/-- Derives the storage and identity keys into slots 529 and 528 (R452, R454). -/
def deriveRoots (s : State) : State :=
  let e := euiOctets (ownEui s)
  let stor := kdf (rootKey s) [0x53, 0x54, 0x4F, 0x52] e 256
  let idnt := kdf (rootKey s) [0x49, 0x44, 0x4E, 0x54] e 384
  setSlot (setSlot s 529 { st := .loaded, key := stor }) 528 { st := .loaded, key := idnt }

/-- A poisoned slot becomes EMPTY, to be loaded at its next demand (R171, R466); a key that only a start derives is derived anew
(DEDUCED, log 216). -/
def dropSlot (s : State) (n : Nat) : State := if n < 528 then setSlot s n {} else deriveRoots s

/-- Anvil reads a slot and its epochs for an operation: whether the key may be used; a poisoned slot is freed (R171, R464, R466). -/
def useSlot (s : State) (n : Nat) : State × Bool :=
  let e := readKey s (epochWord n) 1
  let q := match (keySlot s n).kek with
    | some (k, _) => readKey e.1 (epochWord k) 1
    | none => (e.1, true)
  let r := readKey q.1 (slotBase n) 19
  (if r.2 then r.1 else dropSlot r.1 n, e.2 && q.2 && r.2)

/-! ### The key store (R467, R469) -/

/-- The 128 octets of a key-store slot; an erased octet reads 0xFF. -/
def storeSlot (s : State) (r i : Nat) : Octets := tblAt s.anvil.store (2 * r + i) (List.replicate 128 0xFF)

/-- `n` octets from `o`, as a number, most significant octet first. -/
def beField (os : Octets) (o n : Nat) : Nat := natOfBe ((os.drop o).take n)

/-- Whether a key-store slot is committed: its MARK stands. -/
def slotCommitted (os : Octets) : Bool := beField os 112 1 == 0xC3

/-- The key of a slot, where its GCM tag verifies under the storage key. -/
def slotKey (s : State) (os : Octets) : Option Octets :=
  (gcmOpen (keySlot s 529).key ((os.drop 20).take 12) (os.take 32) ((os.drop 32).take 80)).map (fun p =>
    p.take (if beField os 3 1 = 1 then 16 else if beField os 3 1 = 2 then 32 else 64))

/-- Whether a slot is good (R469). -/
def slotGood (s : State) (os : Octets) : Bool :=
  slotCommitted os && beField os 114 4 == beField os 4 4 && beField os 118 2 == (crc16 (os.take 112)).toNat &&
    (slotKey s os).isSome

def slotGen (os : Octets) : Nat := beField os 4 4
def slotRevoked (os : Octets) : Bool := (os.drop 120).any (· != 0xFF)

/-- The current slot of a record: the good slot of the higher generation (R469). -/
def recCurrent (s : State) (r : Nat) : Option Nat :=
  let a := storeSlot s r 0
  let b := storeSlot s r 1
  if slotGood s a then (if slotGood s b && decide (slotGen a < slotGen b) then some 1 else some 0)
  else if slotGood s b then some 1 else none

/-- Generation of a record's current slot. -/
def recGen (s : State) (r : Nat) : Option Nat := (recCurrent s r).map (fun i => slotGen (storeSlot s r i))

/-! ### Blob store (R477, R478) -/

/-- First word of a blob-store entry. -/
def blobBase (d sub : Nat) : Nat := 0x70000 + 32 * d + 16 * sub

/-- The blob of an entry, or nothing in an empty one. -/
def blobOf (s : State) (d sub : Nat) : Option Octets :=
  let os := unpackWords ((List.range 8).map (fun i => peek s (blobBase d sub + i)))
  if beField os 0 1 = 1 then some (os.take (if beField os 3 1 = 1 then 56 else 72)) else none

def blobOrphaned (s : State) (d sub : Nat) : Bool := (peek s (blobBase d sub + 9)).getLsbD 0

/-- Whether a domain takes its keys from blobs. -/
def blobSourced (s : State) (d : Nat) : Bool := parB s (0x5400 + d)

/-- Generation of the key that a sub-slot mirrors. -/
def subGen (s : State) (d sub : Nat) : Option Nat :=
  if blobSourced s d then (blobOf s d sub).map (fun b => beField b 4 4)
  else if slotGood s (storeSlot s (17 + d) sub) then some (slotGen (storeSlot s (17 + d) sub)) else none

/-- The current sub-slot of a domain: the one of the higher generation (R459). -/
def currentSub (s : State) (d : Nat) : Option Nat :=
  match subGen s d 0, subGen s d 1 with
  | none, none => none
  | some _, none => some 0
  | none, some _ => some 1
  | some a, some b => if a < b then some 1 else some 0

/-- Commit or load time of the key that a sub-slot mirrors. -/
def subTime (s : State) (d sub : Nat) : Nat :=
  if blobSourced s d then fld (peek s (blobBase d sub + 8)) 71 32 else beField (storeSlot s (17 + d) sub) 12 5

/-- Whether the grace of a previous sub-slot still runs (R459). -/
def inGrace (s : State) (d cur : Nat) : Bool :=
  s.tb.set && decide (fld (time s) 71 32 < subTime s d cur + par s 0x5500)

/-! ### Loading a slot (R456) -/

/-- A usage flag (R458). -/
def hasFlag (k : KeySlot) (f : Nat) : Bool := k.usage.getLsbD f

/-- Whether a KEK may be used for a purpose, and otherwise the refusal (R474, R479). -/
def kekUsable (s : State) (k flag : Nat) : Option Status :=
  let slot := keySlot s k
  if slot.st = .orphaned then some stKeyOrphaned
  else if slot.st ≠ .loaded ∨ slot.revoked then some stKeyAbsent
  else if hasFlag slot flag = false then some stKeyUsage
  else none

/-- A slot's contents from a good key-store slot. -/
def slotFromStore (s : State) (os : Octets) (d : Option Nat) : KeySlot :=
  let key := (slotKey s os).getD []
  { st := .loaded, key := key, gen := slotGen os, usage := BitVec.ofNat 16 (beField os 8 2),
    kcv := BitVec.ofNat 16 (beField os 10 2), time := beField os 12 5,
    broadcast := (d.map (fun d => broadcastKey key (BitVec.ofNat 8 d))).getD [], revoked := slotRevoked os }

/-- Loads a KEK slot from the current slot of its record; nothing to load leaves it EMPTY. -/
def loadKek (s : State) (k : Nat) : State :=
  match recCurrent s (1 + k) with
  | some i =>
    let r := useSlot s 529
    if r.2 then bump (setSlot r.1 k (slotFromStore r.1 (storeSlot r.1 (1 + k) i) none)) 0x1423 else r.1
  | none => setSlot s k {}

/-- Takes a KEK for a purpose: the refusal, if it may not be used or is poisoned (R171, R474, R479). -/
def takeKek (s : State) (k flag : Nat) : State × Option Status :=
  match kekUsable s k flag with
  | some st => (s, some st)
  | none => ((useSlot s k).1, if (useSlot s k).2 then none else some stPoisoned)

/-- What a blob unwraps to under its KEK, the copy of its header compared (R477). -/
def slotFromBlob (s : State) (b : Octets) (d : Nat) (t : Nat) : Except Status KeySlot :=
  let k := beField b 10 1
  match aesUnwrap (keySlot s k).key (b.drop 16) with
  | none => .error stKeyUnwrap
  | some u =>
    if u.take 16 ≠ b.take 16 then .error stKeyUnwrap
    else
      let key := u.drop 16
      .ok { st := .loaded, key := key, gen := beField b 4 4, usage := BitVec.ofNat 16 (beField b 8 2),
            kcv := BitVec.ofNat 16 (beField b 12 2), time := t, broadcast := broadcastKey key (BitVec.ofNat 8 d),
            kek := some (k, epoch s k) }

/-- Unwraps a blob under its KEK, or says why not (R477, R479 checks 5 and 6). -/
def openBlob (s : State) (b : Octets) (d : Nat) (t : Nat) : State × Except Status KeySlot :=
  match takeKek s (beField b 10 1) 2 with
  | (s', some st) => (s', .error st)
  | (s', none) => (s', slotFromBlob s b d t)

/-- Ensures that a KEK slot is loaded, where its record has a key. -/
def ensureKek (s : State) (k : Nat) : State := if (keySlot s k).st = .empty then loadKek s k else s

/-- Loads a domain's sub-slot from the key store or the blob store, and whether a poisoned word refused the key; a previous key whose
grace has ended is not loaded (R171, R456, R459). -/
def loadSub (s : State) (d sub : Nat) : State × Bool :=
  let n := subSlot d sub
  let stale := match currentSub s d with
    | some c => c != sub && s.tb.set && !inGrace s d c
    | none => false
  if stale then (s, false)
  else if blobSourced s d then
    let r := readKey s (blobBase d sub) 10
    if r.2 = false then (r.1, true)
    else if blobOrphaned s d sub then (setSlot r.1 n { st := .orphaned }, false)
    else match blobOf s d sub with
      | none => (r.1, false)
      | some b =>
        let q := openBlob (ensureKek r.1 (beField b 10 1 % 16)) b d (subTime s d sub)
        match q.2 with
        | .ok k => (bump (setSlot q.1 n k) 0x1423, false)
        | .error st => (q.1, st == stPoisoned)
  else if slotGood s (storeSlot s (17 + d) sub) then
    let r := useSlot s 529
    if r.2 then (bump (setSlot r.1 n (slotFromStore r.1 (storeSlot r.1 (17 + d) sub) (some d))) 0x1423, false) else (r.1, true)
  else (s, false)

/-- A request that names an EMPTY slot loads it (R456); whether a poisoned word refused the key. -/
def ensureSub (s : State) (d sub : Nat) : State × Bool :=
  if (keySlot s (subSlot d sub)).st = .empty then loadSub s d sub else (s, false)

def ensureDomain (s : State) (d : Nat) : State × Bool :=
  let a := ensureSub s d 0
  let b := ensureSub a.1 d 1
  (b.1, a.2 || b.2)

/-- The refusal of a request whose domain's keys were ensured: ST_POISONED where only a poisoned word kept the key away (R171). -/
def refusalOf (poison : Bool) (st : Status) : Status := if poison ∧ st = stKeyAbsent then stPoisoned else st

/-- SLOT_LOAD (R456): the preload reaches a slot that is EMPTY. -/
def execSlotLoad (dt : Nat) (slot : Fin 528) (s : State) : Host.Outcome State Fault Refusal :=
  live dt s (fun s =>
    if (keySlot s slot.val).st = .empty then
      match slotDomain slot.val with
      | some d => (loadSub s d ((slot.val - 16) % 2)).1
      | none => if slot.val < 16 then loadKek s slot.val else s
    else s)

/-! ### Choosing a key (R459 to R466) -/

/-- A purpose: RX or TX, and node or broadcast key (R458). -/
structure Purpose where
  tx : Bool
  broadcast : Bool

def Purpose.flags (p : Purpose) : List Nat := [if p.tx then 5 else 4, if p.broadcast then 1 else 0]

/-- Why a sub-slot is not usable for a purpose, if it is not (R459, R464, R466; ST_KEY_USAGE where the flags alone
forbid it: DEDUCED, log 31). -/
def subRefusal (s : State) (p : Purpose) (d sub : Nat) : Option Status :=
  let k := keySlot s (subSlot d sub)
  let old : Bool := match currentSub s d with
    | some c => c != sub && !inGrace s d c
    | none => false
  if k.st = .orphaned then some stKeyOrphaned
  else if k.st ≠ .loaded ∨ k.revoked ∨ old then some stKeyAbsent
  else if p.flags.all (hasFlag k) = false then some stKeyUsage
  else match k.kek with
    | some (q, e) => if epoch s q = e then none else some stKeyOrphaned
    | none => none

/-- The sub-slots a receive ME tries, in order, or the refusal (R460). -/
def rxSubs (s : State) (broadcast : Bool) (d : Nat) : List Nat ⊕ Status :=
  let p : Purpose := ⟨false, broadcast⟩
  match currentSub s d with
  | none =>
    match subRefusal s p d 0, subRefusal s p d 1 with
    | some st, some st' => .inr (if st = stKeyOrphaned then st else st')
    | _, _ => .inr stKeyAbsent
  | some c =>
    let prev := 1 - c
    let second := if (subRefusal s p d prev).isNone && subGen s d prev != subGen s d c then [prev] else []
    match subRefusal s p d c with
    | none => .inl (c :: second)
    | some st => if second.isEmpty then .inr st else .inl second

/-- The sub-slot a transmit ME uses, or the refusal (R461). `gen` is KEY_GEN of the destination's entry. -/
def txSub (s : State) (broadcast : Bool) (d : Nat) (gen : Option (BitVec 8)) (forced : Option Nat) : Nat ⊕ Status :=
  let p : Purpose := ⟨true, broadcast⟩
  let use (sub : Nat) : Nat ⊕ Status := match subRefusal s p d sub with | none => .inl sub | some st => .inr st
  match forced with
  | some sub => use sub
  | none =>
    match currentSub s d with
    | none => (match use 0 with | .inl x => .inl x | .inr st => if st = stKeyOrphaned then .inr st else use 1)
    | some c =>
      let low (i : Nat) : BitVec 8 := BitVec.ofNat 8 ((subGen s d i).getD 0)
      let older := match gen with
        | some g => (subGen s d (1 - c)).isSome && g == low (1 - c) && g != low c && (subRefusal s p d (1 - c)).isNone
        | none => false
      use (if !broadcast && older then 1 - c else c)

/-- The reference that a request to use a sub-slot resolves to (R464). -/
def refOf (s : State) (d sub : Nat) : KeyRef := ⟨subSlot d sub, epoch s (subSlot d sub), (keySlot s (subSlot d sub)).kek⟩

/-- Whether an epoch of a reference differs from the present one at the grant (R464). -/
def refStale (s : State) (r : KeyRef) : Bool :=
  epoch s r.slot != r.epoch || (match r.kek with | some (q, e) => epoch s q != e | none => false)

/-- CRC-32 of R383 over the nine octets of a key word. -/
def keyCrc (init : BitVec 32) (w : Word) : BitVec 32 := ~~~ (crc32From init (octetsOfWord w))

/-- The cache set of a key word (R462). -/
def cacheSet (w : Word) : Nat := fld (keyCrc 0xFFFFFFFF w) 18 8

/-- The least recently used entry of a set. -/
def lruOf (es : List CacheEntry) : Option CacheEntry :=
  es.foldl (fun m e => match m with | none => some e | some x => some (if e.used < x.used then e else x)) none

/-- A node key is derived and written to its set of the cache, in place of a stale entry or of the least recently used one (R462). -/
def deriveKey (s : State) (n : Nat) (w : Word) : State × Octets :=
  let a := s.anvil
  let set := cacheSet w
  let key := nodeKey (keySlot s n).key w
  let mine := a.cache.filter (fun e => e.set == set)
  let stale := mine.find? (fun e => e.epoch != epoch s e.slot)
  let victim := if mine.length < 4 then none else match stale with | some e => some e | none => lruOf mine
  let way := match victim with
    | some v => v.way
    | none => ([0, 1, 2, 3].find? (fun k => !mine.any (fun e => e.way == k))).getD 0
  let rest := match victim with | some v => a.cache.filter (fun e => e != v) | none => a.cache
  let entry : CacheEntry := ⟨set, way, w, n, epoch s n, key, a.cacheUse⟩
  let s := writeWords s (wayBase set way) ([w, at' 0 n ||| at' 10 (epoch s n)] ++ packWords 2 (padTo 18 key))
  let s := { s with anvil := { a with cache := entry :: rest, cacheUse := a.cacheUse + 1 } }
  (bump (if victim.isSome && stale.isNone then bump s 0x1422 else s) 0x1421, key)

/-- The node key of a word under a sub-slot, through the derived-key cache; none where a poisoned word refuses it, and a poisoned
entry is removed (R171, R462, R466). -/
def cachedKey (s : State) (d sub : Nat) (w : Word) : State × Option Octets :=
  let n := subSlot d sub
  match s.anvil.cache.find? (fun e => e.word == w && e.slot == n && e.epoch == epoch s n) with
  | some e =>
    let t := readKey s (epochWord n) 1
    let r := readKey t.1 (wayBase e.set e.way) 4
    if r.2 = false then (dropEntries r.1 (· == e), none)
    else
      let a := r.1.anvil
      let cache := a.cache.map (fun x => if x = e then { x with used := a.cacheUse } else x)
      (bump { r.1 with anvil := { a with cache := cache, cacheUse := a.cacheUse + 1 } } 0x1420, if t.2 then some e.key else none)
  | none =>
    let r := useSlot s n
    if r.2 = false then (r.1, none)
    else
      let q := deriveKey r.1 n w
      (q.1, some q.2)

/-- The key that secures or verifies a frame: the broadcast key beside the domain key, or the node key; none where a poisoned word
refuses it. -/
def frameKey (s : State) (d sub : Nat) (node : Option Word) : State × Option Octets :=
  match node with
  | some w => cachedKey s d sub w
  | none =>
    let n := subSlot d sub
    ((useSlot s n).1, if (useSlot s n).2 then some (keySlot s n).broadcast else none)

/-! ### Grace, KEK invalidation (R459, R465) -/

/-- GRACE_END (R459). -/
def execGraceEnd (dt : Nat) (domain : BitVec 8) (s : State) : Host.Outcome State Fault Refusal :=
  live dt s (fun s =>
    let d := domain.toNat
    match currentSub s d with
    | some c =>
      let n := subSlot d (1 - c)
      if (subGen s d (1 - c)).isSome && s.tb.set && !inGrace s d c && (keySlot s n).st != .empty then
        setSlot (raiseEpoch s n) n {}
      else s
    | none => s)

/-- A KEK's invalidation orphans the domain slots loaded under it (R457, R465). -/
def orphanUnder (k : Nat) (s : State) (n : Nat) : State :=
  match (keySlot s n).kek with
  | some (q, _) =>
    if q = k then
      let d := (n - 16) / 2
      let s := setSlot (raiseEpoch s n) n { keySlot s n with st := .orphaned }
      writeWord s (blobBase d ((n - 16) % 2) + 9) 1
    else s
  | none => s

/-- A KEK's invalidation, for every domain slot (R465). -/
def orphanBlobs (k : Nat) (s : State) : State :=
  (List.range 512).foldl (fun s i => orphanUnder k s (16 + i)) s

/-! ### Writing the key store (R468, R470) -/

/-- The secret number k of an ECDSA signature, from the DRBG (R482): a free value. -/
def drbgScalar (s : State) : State × Nat :=
  let a := drawFree s
  let b := drawFree a.1
  let c := drawFree b.1
  let d := drawFree c.1
  (d.1, natOfBe (octetsOfWord a.2 ++ octetsOfWord b.2 ++ octetsOfWord c.2 ++ octetsOfWord d.2) % (p256Order - 1) + 1)

/-- Twelve octets from the DRBG (R482): a value nobody can predict, taken as a free one. -/
def drbg (s : State) : State × Octets :=
  let a := drawFree s
  let b := drawFree a.1
  (b.1, (octetsOfWord a.2 ++ octetsOfWord b.2).take 12)

/-- A slot's 128 octets as committed (R467). -/
def storeImage (stor nonce : Octets) (type index alg gen usage kcv seconds : Nat) (key : Octets) : Octets :=
  let head := [BitVec.ofNat 8 1] ++ beOctets 1 type ++ beOctets 1 index ++ beOctets 1 alg ++ beOctets 4 gen ++ beOctets 2 usage ++
    beOctets 2 kcv ++ beOctets 5 seconds ++ [0, 0, 0] ++ nonce
  let body := head ++ gcmSeal stor nonce head (key ++ List.replicate (64 - key.length) 0)
  body ++ [0xC3, 0] ++ beOctets 4 gen ++ beOctets 2 (crc16 body).toNat ++ List.replicate 8 0xFF

/-- The slot of a record that a write takes (R468 step 1). -/
def storeTarget (s : State) (r : Nat) : Nat := match recCurrent s r with | some i => 1 - i | none => 0

/-- A write into a record (R468), and its refusal: it needs the storage key, and nothing is written where that is refused as poisoned
(R171); where the program fails (`ok` false), the target's sub-slot stands EMPTY and the target erased, as after a power failure in
step 3 (R471). A commit is counted (R476). -/
def storeWrite (ok : Bool) (s : State) (r type index alg gen usage kcv : Nat) (key : Octets) : State × Option Status :=
  let u := useSlot s 529
  if u.2 = false then (u.1, some stPoisoned)
  else
  let s := u.1
  let i := storeTarget s r
  let sub := if 17 ≤ r then some (subSlot (r - 17) i) else none
  let mirrored := 17 ≤ r && !blobSourced s (r - 17)
  let s := match sub with
    | some n => if mirrored then setSlot (raiseEpoch s n) n {} else s
    | none => s
  let d := drbg s
  let s := d.1
  if ok = false then ({ s with anvil := { s.anvil with store := tblErase s.anvil.store (2 * r + i) } }, some stNvsWrite)
  else
    let os := storeImage (keySlot s 529).key d.2 type index alg gen usage kcv (nowSeconds s) key
    let s := bump { s with anvil := { s.anvil with store := tblPut s.anvil.store (2 * r + i) os } } 0x1426
    (if mirrored then (loadSub s (r - 17) i).1 else if 1 ≤ r && decide (r ≤ 16) then loadKek s (r - 1) else s, none)

/-- The slot that a committed key-store slot fills: a domain's sub-slot, or the KEK's slot for the current slot of its record (R455,
R456). -/
def mirrorSlot (s : State) (r i : Nat) : Option Nat :=
  if 17 ≤ r then some (subSlot (r - 17) i) else if 1 ≤ r ∧ recCurrent s r = some i then some (r - 1) else none

/-- What a revocation does before its program: the epoch of the slot rises and its key is revoked; a KEK's blobs are orphaned (R465,
R470). -/
def revokeSlot (s : State) (r i : Nat) : State :=
  match mirrorSlot s r i with
  | some n =>
    let s := raiseEpoch s n
    let s := setSlot s n { keySlot s n with revoked := true }
    if r ≤ 16 then orphanBlobs n s else s
  | none => s

/-- Revokes a committed slot: what it fills becomes unusable, then the REVOKE field is programmed (R470). -/
def storeRevoke (s : State) (r i : Nat) : State :=
  let s := revokeSlot s r i
  let os := (storeSlot s r i).take 120 ++ List.replicate 8 0
  { s with anvil := { s.anvil with store := tblPut s.anvil.store (2 * r + i) os, revoking := some (2 * r + i, s.now + usC 500) } }

/-! ### KEY_UPDATE (R472 to R476) -/

/-- The message of a KEY_UPDATE packet. -/
def updateMessage (ws : List Word) : Octets := (unpackWords (ws.drop 1)).take (fld (ws.getD 0 0) 9 0)

/-- Record that a message names. -/
def messageRecord (type index : Nat) : Nat :=
  if type = 1 ∨ type = 4 then 1 + index else if type = 2 ∨ type = 5 then 17 + index else 0

/-- Check 1 of R474. -/
def messageWellFormed (m : Octets) : Bool :=
  let type := beField m 1 1
  let alg := beField m 3 1
  let len := beField m 22 2
  let algOk := if type = 1 then alg == 2 else if type = 2 then alg == 1 || alg == 2 else if type = 3 ∨ type = 0x80 then alg == 3
    else alg == 0
  let lenOk := if type = 1 ∨ type = 2 then len == (if alg = 1 then 24 else 40) else if type = 3 then len == 64
    else if type = 0x80 then len == 96 else len == 0
  let idxOk := if type = 1 ∨ type = 4 then decide (beField m 2 1 < 16) else if type = 3 ∨ type = 0x80 then beField m 2 1 == 0
    else true
  decide (24 ≤ m.length) && beField m 0 1 == 1 && (decide (1 ≤ type ∧ type ≤ 5) || type == 0x80) && idxOk && algOk && lenOk &&
    m.length == 24 + len + (if type = 0x80 then 0 else 64) && beField m 19 1 == 0

/-- The outcome of a message: a status, and for ST_OK the generation, KCV and whether a write took place. -/
structure UpdateOut where
  s : State
  status : Status
  gen : Nat := 0
  kcv : Nat := 0
  wrote : Bool := false

/-- The authority's public key, from the current slot of record 0. -/
def authorityKey (s : State) : Option Octets := (recCurrent s 0).bind (fun i => slotKey s (storeSlot s 0 i))

/-- The committed generations of a record. -/
def committedGens (s : State) (r : Nat) : List Nat :=
  ([0, 1].filter (fun i => slotGood s (storeSlot s r i))).map (fun i => slotGen (storeSlot s r i))

/-- The slot of a record that holds a committed generation. -/
def slotOfGen (s : State) (r gen : Nat) : Option Nat :=
  [0, 1].find? (fun i => slotGood s (storeSlot s r i) && slotGen (storeSlot s r i) == gen)

/-- The new key of a message of types 0x01 to 0x03, or the refusal (R474 check 6). -/
def messageKey (s : State) (m : Octets) : State × (Octets ⊕ Status) :=
  let body := (m.drop 24).take (beField m 22 2)
  if beField m 1 1 = 3 then
    (s, if p256Valid body && kcvPoint body == BitVec.ofNat 16 (beField m 20 2) then .inl body else .inr stKeyKcv)
  else
    let k := beField m 18 1
    if 16 ≤ k then (s, .inr stKeyAbsent)
    else match takeKek s k 3 with
      | (s', some st) => (s', .inr st)
      | (s', none) =>
        match aesUnwrap (keySlot s k).key body with
        | none => (s', .inr stKeyUnwrap)
        | some key => (s', if kcvAes key == BitVec.ofNat 16 (beField m 20 2) then .inl key else .inr stKeyKcv)

/-- A new key or authority after checks 1 to 4 (R474 checks 5 to 7). -/
def applyNewKey (ok : Bool) (s : State) (m : Octets) : UpdateOut :=
  let type := beField m 1 1
  let r := messageRecord type (beField m 2 1)
  let gen := beField m 12 4
  let kcv := beField m 20 2
  let top := (recGen s r).getD 0
  let same := match slotOfGen s r gen with
    | some i => beField (storeSlot s r i) 10 2 == kcv
    | none => false
  if gen = top && same then ⟨s, stOk, gen, kcv, false⟩
  else if gen ≤ top then ⟨s, stKeyMsgStale, 0, 0, false⟩
  else
    let s := if type = 3 then s else ensureKek s (beField m 18 1 % 16)
    match messageKey s m with
    | (s, .inr st) => ⟨s, st, 0, 0, false⟩
    | (s, .inl key) =>
      if s.anvil.entropy = false then ⟨s, stEntropy, 0, 0, false⟩
      else
        match storeWrite ok s r type (beField m 2 1) (beField m 3 1) gen (beField m 16 2) kcv key with
        | (s, none) => ⟨s, stOk, gen, kcv, true⟩
        | (s, some st) => ⟨s, st, 0, 0, false⟩

/-- A revocation after checks 1 to 4 (R470, R474 checks 5 and 7); a failed program leaves the REVOKE field as it was (DEDUCED, log
233). -/
def applyRevocation (ok : Bool) (s : State) (m : Octets) : UpdateOut :=
  let r := messageRecord (beField m 1 1) (beField m 2 1)
  let gen := beField m 12 4
  match slotOfGen s r gen with
  | none => ⟨s, stKeyAbsent, 0, 0, false⟩
  | some i =>
    let kcv := beField (storeSlot s r i) 10 2
    if slotRevoked (storeSlot s r i) then ⟨s, stOk, gen, kcv, false⟩
    else if ok = false then ⟨revokeSlot s r i, stNvsWrite, 0, 0, false⟩
    else ⟨storeRevoke s r i, stOk, gen, kcv, true⟩

/-- An enrolment (R475): with an authority present every failure is ST_ENROLLED. -/
def applyEnrolment (ok : Bool) (s : State) (m : Octets) : UpdateOut :=
  let point := (m.drop 24).take 64
  let kek := (m.drop 88).take 32
  let kcv := beField m 20 2
  let refuse (s : State) (st : Status) : UpdateOut := ⟨s, st, 0, 0, false⟩
  if (recCurrent s 0).isSome then refuse s stEnrolled
  else if messageWellFormed m = false then refuse s stKeyMsgFormat
  else if par s 0x5800 = 0 then refuse s stEnrolled
  else if beField m 4 8 ≠ devEui s then refuse s stKeyMsgTarget
  else if beField m 12 4 ≠ 1 then refuse s stKeyMsgStale
  else if p256Valid point = false ∨ (kcvAes kek).toNat ≠ kcv then refuse s stKeyKcv
  else if s.anvil.entropy = false then refuse s stEntropy
  else
    let have1 := match slotOfGen s 1 1 with | some i => beField (storeSlot s 1 i) 10 2 == kcv | none => false
    match if have1 then (s, none) else storeWrite ok s 1 1 0 2 1 (beField m 16 2) kcv kek with
    | (s, some st) => refuse s st
    | (s, none) =>
      match storeWrite ok s 0 3 0 3 1 0 (kcvPoint point).toNat point with
      | (s, some st) => refuse s st
      | (s, none) => ⟨s, stOk, 1, kcv, true⟩

/-- The whole judgement of a message (R474, R475); `ok` is whether its programs of the key store succeed. -/
def judgeMessage (ok : Bool) (s : State) (m : Octets) : UpdateOut :=
  let refuse (st : Status) : UpdateOut := ⟨s, st, 0, 0, false⟩
  if beField m 1 1 = 0x80 then applyEnrolment ok s m
  else if messageWellFormed m = false then refuse stKeyMsgFormat
  else if beField m 4 8 ≠ devEui s then refuse stKeyMsgTarget
  else match authorityKey s with
    | none => refuse stKeyNoAuthority
    | some key =>
      let n := 24 + beField m 22 2
      let s := bump s 0x1429
      if ecdsaVerify key (sha256 (m.take n)) (m.drop n) = false then ⟨s, stKeyMsgSignature, 0, 0, false⟩
      else if beField m 1 1 ≤ 3 then applyNewKey ok s m else applyRevocation ok s m

/-- KEY_UPDATE's work: the message is judged and its result and events given (R476). -/
def keyUpdateWork (ok : Bool) (s : State) (ws : List Word) : State × Status × List Word :=
  let m := updateMessage ws
  let o := judgeMessage ok s m
  let d := if m.length < 3 then 0 else beField m 2 1
  if o.status = stOk then
    let s := o.s
    let s := if o.wrote && (beField m 1 1 == 2 || beField m 1 1 == 5) then
        raiseEv s 225 (at' 0 d) (BitVec.ofNat 72 o.gen) else s
    (s, stOk, [at' 0 o.gen ||| at' 32 o.kcv ||| at' 48 o.wrote.toNat])
  else (raiseEv (bump o.s 0x1427) 226 (at' 0 d ||| at' 8 o.status.toNat) 0, o.status, [])

/-- KEY_UPDATE (R473): consumed and judged in consumption order at the end of its work. -/
def execKeyUpdate (dt : Nat) (hc : Hc) (s : State) : Host.Outcome State Fault Refusal :=
  command dt hc 0x502 4 1 s (fun p s =>
    let m := updateMessage p.payload
    let n := fld (p.word 1) 9 0
    if reservedSet (p.word 1) (bits 9 0) then .undef 8
    else if p.payload.length < 1 + (n + 8) / 9 then .done s stLength []
    else if (beField m 1 1 = 2 ∨ beField m 1 1 = 5) ∧ owns s hc 1 (beField m 2 1) = false then .done s stNotOwner []
    else .work s .keyUpdate)

/-! ### KEY_LOAD and KEY_INVALIDATE (R479, R480) -/

/-- Format of a blob (R477, R479 check 3). -/
def blobWellFormed (b : Octets) : Bool :=
  beField b 0 1 == 1 && beField b 1 1 == 2 && (beField b 3 1 == 1 || beField b 3 1 == 2) &&
    b.length == (if beField b 3 1 = 1 then 56 else 72) && decide (beField b 10 1 < 16) && beField b 11 1 == 0 && beField b 14 2 == 0

/-- The completion word of KEY_LOAD. -/
def loadWord (slot gen kcv : Nat) : Word := at' 0 slot ||| at' 10 gen ||| at' 42 kcv

/-- KEY_LOAD's checks from the second on, and the load (R479). -/
def keyLoadWork (s : State) (ws : List Word) : State × Status × List Word :=
  let b := (unpackWords (ws.drop 1)).take (fld (ws.getD 0 0) 7 0)
  let d := beField b 2 1
  if blobSourced s d = false then (s, stKeySource, [])
  else if blobWellFormed b = false then (s, stKeyMsgFormat, [])
  else
    let a0 := readKey s (blobBase d 0) 10
    let a1 := readKey a0.1 (blobBase d 1) 10
    let s := a1.1
    if (a0.2 && a1.2) = false then (s, stPoisoned, [])
    else
      let gen := beField b 4 4
      let cur := currentSub s d
      let top := (cur.bind (subGen s d)).getD 0
      let same : Bool := match cur.bind (blobOf s d) with | some o => beField o 12 2 == beField b 12 2 | none => false
      if cur.isSome ∧ gen = top ∧ same then (s, stOk, [loadWord (subSlot d (cur.getD 0)) gen (beField b 12 2)])
      else if cur.isSome ∧ gen ≤ top then (s, stKeyMsgStale, [])
      else
        let s := ensureKek s (beField b 10 1 % 16)
        match openBlob s b d (nowSeconds s) with
        | (s, .error st) => (s, st, [])
        | (s, .ok k) =>
          if kcvAes k.key ≠ k.kcv then (s, stKeyKcv, [])
          else
            let sub := match cur with | some c => 1 - c | none => 0
            let slot := subSlot d sub
            let s := setSlot (raiseEpoch s slot) slot {}
            let s := writeWords s (blobBase d sub) (packWords 8 b ++ List.replicate (8 - (packWords 8 b).length) 0)
            let s := writeWords s (blobBase d sub + 8) [if s.tb.set then time s else 0, 0]
            (bump (setSlot s slot k) 0x1423, stOk, [loadWord slot gen (beField b 12 2)])

/-- The KEY_UPDATE or KEY_LOAD that Anvil has in hand: it takes them from all contexts one at a time, in consumption order (R473). -/
def keyInWork (s : State) : Option JRec :=
  let rs := allHc.flatMap (fun hc => (ctx s hc).journal.filter (fun r => (r.work == .keyUpdate || r.work == .keyLoad) && !r.done))
  rs.foldl (fun m r => match m with | none => some r | some x => some (if r.id < x.id then r else x)) none

/-- Whether it is the turn of a record's work: always, but for a KEY_UPDATE or KEY_LOAD behind an earlier one (R473). -/
def keyTurn (s : State) (r : JRec) : Bool :=
  if r.work = .keyUpdate ∨ r.work = .keyLoad then (keyInWork s).map (·.id) == some r.id else true

/-- KEY_LOAD (R473, R479): behind a KEY_UPDATE or KEY_LOAD in hand it waits for its turn. -/
def execKeyLoad (dt : Nat) (hc : Hc) (s : State) : Host.Outcome State Fault Refusal :=
  command dt hc 0x500 2 1 s (fun p s =>
    let n := fld (p.word 1) 7 0
    let d := beField ((unpackWords (p.payload.drop 1)).take n) 2 1
    if reservedSet (p.word 1) (bits 7 0) then .undef 8
    else if p.payload.length < 1 + (n + 8) / 9 then .done s stLength []
    else if owns s hc 1 d = false then .done s stNotOwner []
    else if (keyInWork s).isSome then .work s .keyLoad
    else
      let r := keyLoadWork s p.payload
      .done r.1 r.2.1 r.2.2)

/-- Makes a domain's sub-slot unusable for good (R480). -/
def invalidateSub (s : State) (d sub : Nat) : State :=
  let n := subSlot d sub
  let held := (subGen s d sub).isSome
  if blobSourced s d then
    writeWords (setSlot (raiseEpoch s n) n {}) (blobBase d sub) (List.replicate 10 0)
  else if held then storeRevoke s (17 + d) sub
  else raiseEpoch s n

/-- The sub-slots that a scope names. -/
def scopeSubs (s : State) (d scope : Nat) : List Nat :=
  let c := (currentSub s d).getD 0
  if scope = 0 then [c] else if scope = 1 then [1 - c] else [c, 1 - c]

/-- KEY_INVALIDATE (R480). -/
def execKeyInvalidate (dt : Nat) (hc : Hc) (s : State) : Host.Outcome State Fault Refusal :=
  command dt hc 0x501 1 1 s (fun p s =>
    let w := p.word 1
    let i := fld w 8 1
    if reservedSet w (bits 10 0) then .undef 8
    else if w.getLsbD 0 then
      if 16 ≤ i then .undef 7
      else match recCurrent s (1 + i) with
        | some slot =>
          let s := storeRevoke s (1 + i) slot
          .done s stOk [at' 0 (epoch s i)]
        | none =>
          let s := orphanBlobs i (raiseEpoch s i)
          .done s stKeyAbsent [at' 0 (epoch s i)]
    else if owns s hc 1 i = false then .done s stNotOwner []
    else
      let subs := scopeSubs s i (fld w 10 9)
      let held := subs.any (fun sub => (subGen s i sub).isSome)
      let s := subs.foldl (fun s sub => invalidateSub s i sub) s
      .done s (if held then stOk else stKeyAbsent) [at' 0 (epoch s (subSlot i 0)) ||| at' 32 (epoch s (subSlot i 1))])

/-! ### Attestation (R481) -/

/-- A version as 36 bits in five octets. -/
def versionOctets (v : Nat) : Octets := beOctets 5 (v % 2 ^ 36)

/-- The 8 octets of a record in the key-state digest (R481). -/
def recordState (s : State) (r : Nat) : Octets :=
  let type := if r = 0 then 3 else if r ≤ 16 then 1 else 2
  let index := if r = 0 then 0 else if r ≤ 16 then r - 1 else r - 17
  let gs : Nat × Nat :=
    if 17 ≤ r ∧ blobSourced s (r - 17) then
      (((currentSub s (r - 17)).bind (subGen s (r - 17))).getD 0, 3)
    else match recCurrent s r with
      | none => (0, 0)
      | some i => (slotGen (storeSlot s r i), if slotRevoked (storeSlot s r i) then 2 else 1)
  beOctets 1 type ++ beOctets 1 index ++ beOctets 4 gs.1 ++ beOctets 1 gs.2 ++ [0]

/-- The version of the loaded regulatory profile (R243). -/
def profileVersion (s : State) : Nat := if s.quench.valid then fld (s.quench.profile.getD 0 0) 51 16 else 0

/-- Whether the payload's octets 33 to 35 and the packing's tail are zero, and only PUBKEY is set. -/
def attestReserved (ws : List Word) : Bool :=
  let os := unpackWords (ws.take 4)
  natOfLe (os.drop 33) != 0 || decide (2 ≤ beField os 32 1)

/-- ATTEST (R481): answered at the end of its work. -/
def execAttest (dt : Nat) (hc : Hc) (s : State) : Host.Outcome State Fault Refusal :=
  command dt hc 0x503 4 24 s (fun p s => if attestReserved p.payload then .undef 8 else .work s .attest)

/-! ### Entropy (R482) -/

/-- ENTROPY_FAILURE (R482). -/
def execEntropyFailure (dt : Nat) (s : State) : Host.Outcome State Fault Refusal :=
  live dt s (fun s => if s.anvil.entropy then
    bump { s with anvil := { s.anvil with entropy := false, failedAt := s.now } } 0x1428 else s)

/-- ENTROPY_RESTART (R482): one second after a failure the start-up test runs again. -/
def execEntropyRestart (dt : Nat) (passed : Bool) (s : State) : Host.Outcome State Fault Refusal :=
  live dt s (fun s =>
    if s.anvil.entropy = false ∧ due s (s.anvil.failedAt + secC 1) then
      if passed then { s with anvil := { s.anvil with entropy := true } }
      else bump { s with anvil := { s.anvil with failedAt := s.now } } 0x1428
    else s)

end Sys2Proof.Machine
end

