-- ==== Sys2Proof/Machine/Ip6.lean ====
section
/-!
DEFINITION. Octet formats that the pipelines and ports read and write: IPv6 headers and their extension headers, the
RFC 6554 source routing header (R404), and 6LoWPAN compression (RFC 6282, RFC 4944; R405, R408, R409).
-/

namespace Sys2Proof.Machine

/-! ### IPv6 -/

/-- An octet of a run, as a number. -/
def oct (os : Octets) (i : Nat) : Nat := (os.getD i 0).toNat

def ip6Version (p : Octets) : Nat := oct p 0 / 16
def ip6Class (p : Octets) : Nat := beField p 0 2 / 16 % 256
def ip6Label (p : Octets) : Nat := beField p 0 4 % 2 ^ 20
def ip6Length (p : Octets) : Nat := beField p 4 2
def ip6Hop (p : Octets) : Nat := oct p 7
def ip6Src (p : Octets) : Nat := beField p 8 16
def ip6Dst (p : Octets) : Nat := beField p 24 16
def isMulticast (a : Nat) : Bool := a / 2 ^ 120 == 0xFF
def isLinkLocal (a : Nat) : Bool := a / 2 ^ 118 == 0x3FA

/-- A packet with its hop limit one less. -/
def decHop (p : Octets) : Octets := p.take 7 ++ [BitVec.ofNat 8 (ip6Hop p - 1)] ++ p.drop 8

/-- Interface identifier of an EUI-64: bit 57 inverted (R399, R404). -/
def iidOf (e : Nat) : Nat := e ^^^ 2 ^ 57

/-- A node's address under a domain prefix (R404). -/
def nodeAddress (pfx e : Nat) : Nat := pfx * 2 ^ 64 + iidOf e

/-- Where a header chain ends: upper-layer protocol and offset, whether the chain is complete, whether a fragment after
the first hides the upper-layer header, and whether a routing header of type 3 stands in it. -/
structure Chain6 where
  proto : Nat
  off : Nat
  whole : Bool
  hidden : Bool
  rh3 : Bool

/-- Octets that an upper-layer header needs: UDP, TCP, ICMPv6. -/
def upperLen (proto : Nat) : Nat := if proto = 17 then 8 else if proto = 6 then 20 else if proto = 58 then 4 else 0

/-- Walks hop-by-hop, routing, destination options and fragment headers (R425, R544 step 9). -/
def chain6From (p : Octets) : Nat → Nat → Nat → Bool → Chain6
  | 0, proto, off, rh3 => ⟨proto, off, false, false, rh3⟩
  | fuel + 1, proto, off, rh3 =>
    if proto = 0 ∨ proto = 43 ∨ proto = 60 then
      let n := 8 * (oct p (off + 1) + 1)
      if p.length < off + 2 ∨ p.length < off + n then ⟨proto, off, false, false, rh3⟩
      else chain6From p fuel (oct p off) (off + n) (rh3 || (proto == 43 && oct p (off + 2) == 3))
    else if proto = 44 then
      if p.length < off + 8 then ⟨proto, off, false, false, rh3⟩
      else if 8 ≤ beField p (off + 2) 2 then ⟨oct p off, off + 8, true, true, rh3⟩
      else chain6From p fuel (oct p off) (off + 8) rh3
    else ⟨proto, off, decide (off + upperLen proto ≤ p.length), false, rh3⟩

/-- The header chain of a packet. -/
def chain6 (p : Octets) : Chain6 := chain6From p 32 (oct p 6) 40 false

/-- Version 6, a payload length no greater than the frame carries, and a complete header chain (R544 step 9). -/
def ip6Ok (p : Octets) : Bool :=
  decide (40 ≤ p.length) && ip6Version p == 6 && decide (40 + ip6Length p ≤ p.length) &&
    (chain6 (p.take (40 + ip6Length p))).whole

/-- The packet within the octets of a frame. -/
def ip6Trim (p : Octets) : Octets := p.take (40 + ip6Length p)

/-- ICMPv6 type of a packet. -/
def icmpType (p : Octets) : Option Nat :=
  let c := chain6 p
  if c.proto = 58 ∧ c.hidden = false then some (oct p c.off) else none

/-- The sum of 16-bit groups. -/
def sum16 : Octets → Nat
  | [] => 0
  | [a] => a.toNat * 256
  | a :: b :: os => a.toNat * 256 + b.toNat + sum16 os

/-- Folds a sum into the one's complement sum. -/
def fold16 (n : Nat) : Nat :=
  let m := n % 65536 + n / 65536
  let m := m % 65536 + m / 65536
  m % 65536 + m / 65536

/-- One's complement sum of a UDP segment with its IPv6 pseudo-header. -/
def udpSum (src dst : Nat) (seg : Octets) : Nat :=
  fold16 (sum16 (beOctets 16 src) + sum16 (beOctets 16 dst) + seg.length + 17 + sum16 seg)

/-- Writes the checksum of the UDP header at an offset of a packet. -/
def setUdpChecksum (p : Octets) (off : Nat) : Octets :=
  let clear := p.take (off + 6) ++ [0, 0] ++ p.drop (off + 8)
  let c := 65535 - udpSum (ip6Src p) (ip6Dst p) (clear.drop off)
  p.take (off + 6) ++ beOctets 2 (if c = 0 then 65535 else c) ++ p.drop (off + 8)

/-- The source routing header of R404 over the listed addresses, the packet addressed to `first`. -/
def insertRoute (p : Octets) (first : Nat) (listed : List Nat) : Octets :=
  let hbh := if oct p 6 = 0 then 8 * (oct p 41 + 1) else 0
  let at_ := 40 + hbh
  let next := if oct p 6 = 0 then oct p 40 else oct p 6
  let same := listed.all (fun a => a / 2 ^ 64 == first / 2 ^ 64)
  let n := if same then 8 else 16
  let body := listed.flatMap (fun a => beOctets n (a % 2 ^ (8 * n)))
  let c := if same then 0x88 else 0
  let rh := [BitVec.ofNat 8 next, BitVec.ofNat 8 (body.length / 8), 3, BitVec.ofNat 8 listed.length, BitVec.ofNat 8 c, 0, 0, 0] ++ body
  let p := if oct p 6 = 0 then p.take 40 ++ [43] ++ p.drop 41 else p.take 6 ++ [43] ++ p.drop 7
  p.take 4 ++ beOctets 2 (ip6Length p + rh.length) ++ (p.take 24).drop 6 ++ beOctets 16 first ++ (p.take at_).drop 40 ++ rh ++
    p.drop at_

/-! ### Compression (R408) -/

/-- A compressed packet: its headers, the octets they stand for, and the rest. -/
structure Packed where
  hdr : Octets
  extent : Nat
  rest : Octets

/-- NHC extension header ID of a protocol; R408 gives the routing header EID 3. -/
def eidOf (proto : Nat) : Option Nat :=
  if proto = 0 then some 0 else if proto = 43 then some 3 else if proto = 44 then some 2 else if proto = 60 then some 3
  else if proto = 135 then some 4 else none

/-- UDP by NHC (R408). -/
def packUdp (h : Octets) : Octets :=
  let s := beField h 0 2
  let d := beField h 2 2
  let ports : Octets :=
    if s / 16 = 0xF0B ∧ d / 16 = 0xF0B then [0xF3, BitVec.ofNat 8 (s % 16 * 16 + d % 16)]
    else if d / 256 = 0xF0 then [0xF1] ++ beOctets 2 s ++ [BitVec.ofNat 8 d]
    else if s / 256 = 0xF0 then [0xF2] ++ [BitVec.ofNat 8 s] ++ beOctets 2 d
    else [0xF0] ++ beOctets 2 s ++ beOctets 2 d
  ports ++ (h.drop 6).take 2

/-- Octets of the extension header of a protocol at the front of octets. -/
def extLen (proto : Nat) (os : Octets) : Nat := if proto = 44 then 8 else 8 * (oct os 1 + 1)

/-- Whether the header of a protocol at the front of octets is carried by NHC, whose length octet holds at most 255 (RFC 6282). -/
def packable (proto : Nat) (os : Octets) : Bool :=
  if proto = 17 then decide (8 ≤ os.length)
  else (eidOf proto).isSome && decide (2 ≤ os.length ∧ extLen proto os ≤ os.length ∧ extLen proto os ≤ 257)

/-- The headers after the IPv6 header, by NHC (R408): what they become, the octets they take, and the rest. -/
def packNext : Nat → Nat → Octets → Octets × Nat × Octets
  | 0, _, os => ([], 0, os)
  | fuel + 1, proto, os =>
    if packable proto os = false then ([], 0, os)
    else if proto = 17 then (packUdp os, 8, os.drop 8)
    else
      let n := extLen proto os
      let next := oct os 0
      let rest := os.drop n
      let hides := proto == 44 && decide (8 ≤ beField os 2 2)
      let more := !hides && packable next rest
      let head : Octets := [BitVec.ofNat 8 (0xE0 + 2 * (eidOf proto).getD 0 + more.toNat)] ++
        (if more then [] else [BitVec.ofNat 8 next]) ++ [BitVec.ofNat 8 (n - 2)] ++ (os.take n).drop 2
      if more then
        let r := packNext fuel next rest
        (head ++ r.1, n + r.2.1, r.2.2)
      else (head, n, rest)

/-- An address: context 0 with its lower 64 bits, or whole. -/
def packAddress (pfx a : Nat) : Nat × Nat × Octets :=
  if pfx ≠ 0 ∧ a / 2 ^ 64 = pfx then (1, 1, beOctets 8 (a % 2 ^ 64)) else (0, 0, beOctets 16 a)

/-- A packet by IPHC (R408); `hop` is the first hop's EUI-64. -/
def pack6 (p : Octets) (pfx hop : Nat) : Packed :=
  let tc := ip6Class p
  let fl := ip6Label p
  let ecn := BitVec.ofNat 8 (tc % 4 * 64 + tc / 4)
  let tf : Nat × Octets := if tc = 0 ∧ fl = 0 then (3, []) else if fl = 0 then (2, [ecn])
    else (0, [ecn, BitVec.ofNat 8 (fl / 65536)] ++ beOctets 2 (fl % 65536))
  let nhc := packable (oct p 6) (p.drop 40)
  let hl : Nat × Octets := if ip6Hop p = 1 then (1, []) else if ip6Hop p = 64 then (2, []) else if ip6Hop p = 255 then (3, [])
    else (0, [BitVec.ofNat 8 (ip6Hop p)])
  let src := packAddress pfx (ip6Src p)
  let dst : Nat × Nat × Octets := if pfx ≠ 0 ∧ ip6Dst p = nodeAddress pfx hop then (1, 3, []) else packAddress pfx (ip6Dst p)
  let r := packNext 32 (oct p 6) (p.drop 40)
  { hdr := [BitVec.ofNat 8 (0x60 + 8 * tf.1 + 4 * nhc.toNat + hl.1), BitVec.ofNat 8 (64 * src.1 + 16 * src.2.1 + 4 * dst.1 + dst.2.1)] ++
      tf.2 ++ (if nhc then [] else [BitVec.ofNat 8 (oct p 6)]) ++ hl.2 ++ src.2.2 ++ dst.2.2 ++ r.1,
    extent := 40 + r.2.1, rest := r.2.2 }

/-! ### Fragmentation (R409) -/

/-- The payloads of the frames that carry a packet within a capacity; none where it cannot be cut. -/
def fragments (cap tag : Nat) (k : Packed) : Option (List Octets) :=
  let size := k.extent + k.rest.length
  if k.hdr.length + k.rest.length ≤ cap then some [k.hdr ++ k.rest]
  else if cap < 4 + k.hdr.length ∨ cap < 13 ∨ 2048 ≤ size then none
  else
    let n := (k.extent + (cap - 4 - k.hdr.length)) / 8 * 8 - k.extent
    let each := (cap - 5) / 8 * 8
    let left := k.rest.drop n
    let count := (left.length + each - 1) / each
    let first := beOctets 2 (0xC000 + size) ++ beOctets 2 tag ++ k.hdr ++ k.rest.take n
    let later := (List.range count).map (fun i =>
      beOctets 2 (0xE000 + size) ++ beOctets 2 tag ++ [BitVec.ofNat 8 ((k.extent + n + each * i) / 8)] ++
        (left.drop (each * i)).take each)
    some (first :: later)

/-! ### Decompression (R405) -/

/-- What a decompression comes to: the packet so far with the UDP header whose checksum is still to be computed, an
unsupported encoding, or a reference to an undefined context. -/
inductive Unpacked where
  | ok (p : Octets) (udp : Option Nat)
  | dispatch
  | context

/-- An interface identifier from a MAC address of a length. -/
def macIid (len a : Nat) : Nat := if len = 8 then iidOf a else 0x000000FFFE000000 + a % 65536

/-- A unicast address by its mode bits, with the octets it takes; `pfx` is the upper half it stands under. -/
def unpackAddress (mode : Nat) (pfx mac : Nat) (os : Octets) : Nat × Nat :=
  if mode = 1 then (pfx * 2 ^ 64 + beField os 0 8, 8)
  else if mode = 2 then (pfx * 2 ^ 64 + 0x000000FFFE000000 + beField os 0 2, 2)
  else (pfx * 2 ^ 64 + mac, 0)

/-- Pads an options header to a multiple of 8 octets (RFC 6282). -/
def padOptions (os : Octets) : Octets :=
  let n := (8 - (os.length + 2) % 8) % 8
  if n = 0 then os else if n = 1 then os ++ [0] else os ++ [1, BitVec.ofNat 8 (n - 2)] ++ List.replicate (n - 2) 0

/-- Headers by NHC, from the position `at_` of the uncompressed packet of `size` octets: the octets they stand for, the
UDP header whose checksum was elided, and the rest. -/
def unpackNext : Nat → Nat → Nat → Octets → Option (Nat × Octets × Option Nat × Octets)
  | 0, _, _, _ => none
  | fuel + 1, at_, size, os =>
    let b := oct os 0
    if os.isEmpty then none
    else if b / 8 = 0x1E then
      let pp := b % 4
      let n := if pp = 0 then 4 else if pp = 3 then 1 else 3
      let s := if pp = 0 ∨ pp = 1 then beField os 1 2 else if pp = 2 then 0xF000 + oct os 1 else 0xF0B0 + oct os 1 / 16
      let d := if pp = 0 then beField os 3 2 else if pp = 1 then 0xF000 + oct os 3 else if pp = 2 then beField os 2 2
        else 0xF0B0 + oct os 1 % 16
      let elided := b / 4 % 2 == 1
      let used := 1 + n + (if elided then 0 else 2)
      if os.length < used then none
      else
        let h := beOctets 2 s ++ beOctets 2 d ++ beOctets 2 (size - at_) ++ (if elided then [0, 0] else (os.drop (1 + n)).take 2)
        some (17, h, if elided then some at_ else none, os.drop used)
    else if b / 16 = 0xE then
      let eid := b / 2 % 8
      let more := b % 2 == 1
      let o := if more then 1 else 2
      let n := oct os o
      let data := (os.drop (o + 1)).take n
      let proto : Option Nat := if eid = 0 then some 0 else if eid = 1 then some 43 else if eid = 2 then some 44
        else if eid = 3 then some 60 else if eid = 4 then some 135 else none
      match proto with
      | none => none
      | some proto =>
        let body := if eid = 0 ∨ eid = 3 then padOptions data else data
        if os.length < o + 1 + n ∨ (body.length + 2) % 8 ≠ 0 then none
        else
          let len := if eid = 2 then 0 else (body.length + 2) / 8 - 1
          if more then
            (unpackNext fuel (at_ + 2 + body.length) size (os.drop (o + 1 + n))).map (fun r =>
              (proto, [BitVec.ofNat 8 r.1, BitVec.ofNat 8 len] ++ body ++ r.2.1, r.2.2.1, r.2.2.2))
          else some (proto, [BitVec.ofNat 8 (oct os 1), BitVec.ofNat 8 len] ++ body, none, os.drop (o + 1 + n))
    else none

/-- IPHC (R405): `ctx` gives a context's prefix, 0 where it is undefined; `src` and `dst` are the interface identifiers of
the MAC addresses; `total` is the datagram's size where a fragment names it. -/
def unpackIphc (ctx : Nat → Nat) (src dst : Nat) (total : Option Nat) (os : Octets) : Unpacked :=
  let b0 := oct os 0
  let b1 := oct os 1
  let cid := b1 / 128
  let sci := if cid = 1 then oct os 2 / 16 else 0
  let dci := if cid = 1 then oct os 2 % 16 else 0
  let os := os.drop (2 + cid)
  let tf := b0 / 8 % 4
  let tfLen := if tf = 0 then 4 else if tf = 1 then 3 else if tf = 2 then 1 else 0
  let tc := if tf = 0 ∨ tf = 2 then oct os 0 % 64 * 4 + oct os 0 / 64 else if tf = 1 then oct os 0 / 64 else 0
  let fl := if tf = 0 then beField os 1 3 % 2 ^ 20 else if tf = 1 then beField os 0 3 % 2 ^ 20 else 0
  let os := os.drop tfLen
  let nhc := b0 / 4 % 2 == 1
  let next := oct os 0
  let os := if nhc then os else os.drop 1
  let hlim := b0 % 4
  let hop := if hlim = 1 then 1 else if hlim = 2 then 64 else if hlim = 3 then 255 else oct os 0
  let os := if hlim = 0 then os.drop 1 else os
  let sac := b1 / 64 % 2
  let sam := b1 / 16 % 4
  let m := b1 / 8 % 2
  let dac := b1 / 4 % 2
  let dam := b1 % 4
  if (m = 1 ∧ dac = 1) ∨ (sac = 1 ∧ sam ≠ 0 ∧ ctx sci = 0) ∨ (m = 0 ∧ dac = 1 ∧ dam ≠ 0 ∧ ctx dci = 0) then .context
  else if m = 0 ∧ dac = 1 ∧ dam = 0 then .dispatch
  else
    let s : Nat × Nat := if sam = 0 then (if sac = 1 then (0, 0) else (beField os 0 16, 16))
      else unpackAddress sam (if sac = 1 then ctx sci else 0xFE80 * 2 ^ 48) src os
    let os := os.drop s.2
    let d : Nat × Nat :=
      if m = 1 then
        if dam = 0 then (beField os 0 16, 16)
        else if dam = 1 then (0xFF * 2 ^ 120 + oct os 0 * 2 ^ 112 + beField os 1 5, 6)
        else if dam = 2 then (0xFF * 2 ^ 120 + oct os 0 * 2 ^ 112 + beField os 1 3, 4)
        else (0xFF02 * 2 ^ 112 + oct os 0, 1)
      else if dam = 0 then (beField os 0 16, 16)
      else unpackAddress dam (if dac = 1 then ctx dci else 0xFE80 * 2 ^ 48) dst os
    if os.length < d.2 then .dispatch
    else
      let os := os.drop d.2
      let build (size next : Nat) (rest : Octets) (udp : Option Nat) : Unpacked :=
        .ok (beOctets 4 (6 * 2 ^ 28 + tc * 2 ^ 20 + fl) ++ beOctets 2 (size - 40) ++ [BitVec.ofNat 8 next, BitVec.ofNat 8 hop] ++
          beOctets 16 s.1 ++ beOctets 16 d.1 ++ rest) udp
      if nhc then
        match unpackNext 32 40 0 os with
        | none => .dispatch
        | some probe =>
          let size := total.getD (40 + probe.2.1.length + probe.2.2.2.length)
          (match unpackNext 32 40 size os with
           | some (proto, h, udp, rest) => build size proto (h ++ rest) udp
           | none => .dispatch)
      else build (total.getD (40 + os.length)) next os none

/-- A frame's payload after any fragment header: uncompressed IPv6, IPHC, or neither (R405). -/
def unpack6 (ctx : Nat → Nat) (src dst : Nat) (total : Option Nat) (os : Octets) : Unpacked :=
  if oct os 0 = 0x41 then .ok (os.drop 1) none
  else if oct os 0 / 32 = 3 ∧ 2 ≤ os.length then unpackIphc ctx src dst total os
  else .dispatch

/-- Computes an elided UDP checksum over a whole packet (R405). -/
def finishUdp (p : Octets) (udp : Option Nat) : Octets :=
  match udp with
  | some off => setUdpChecksum p off
  | none => p

end Sys2Proof.Machine
end

