-- ==== Sys2Proof/Machine/Nodes.lean ====
section
/-!
DEFINITION. The node tables (R380 to R398): entries in TBM, the hash, lookup, insertion with relocation, the victim
register, the live rehash, ageing, learning, node timing, and the node commands.
-/

namespace Sys2Proof.Machine

/-! ### Entries (R380 to R382) -/

def fwd (s : State) (p : Nat) : Fwd := tblAt s.fwds p {}
def setFwd (s : State) (p : Nat) (f : Fwd) : State := { s with fwds := tblPut s.fwds p f }

/-- Counter k of a pipeline (R421). -/
def fwdCounter (p k : Nat) : Nat := 0x1000 + 0x40 * p + k
def fwdBump (s : State) (p k : Nat) : State := bump s (fwdCounter p k)

/-- The key word of an entry (R381). -/
def Node.key (n : Node) : Word := keyWord n.domain n.eui

/-- Word 1 of an entry. -/
def Node.word1 (n : Node) : Word :=
  at' 0 n.parentSlot.toNat ||| at' 17 n.parentPipe.toNat ||| at' 18 n.parentKind.toNat ||| at' 20 n.parentTag.toNat |||
    at' 28 n.rank.toNat ||| at' 44 n.learned.toNat ||| at' 45 n.static.toNat ||| at' 46 n.desync.toNat |||
    at' 47 n.pinned.toNat ||| at' 48 n.seedGen.toNat ||| at' 49 n.refGen.toNat ||| at' 50 n.lastBand.toNat |||
    at' 52 n.antMask.toNat ||| at' 56 n.rssi.toNat ||| at' 64 n.lq.toNat

/-- Word 2 of an entry. -/
def Node.word2 (n : Node) : Word := at' 0 n.tc.toNat ||| at' 33 n.drift.toNat ||| at' 52 n.offset.toNat

/-- Word 3 of an entry. -/
def Node.word3 (n : Node) : Word :=
  at' 0 n.keyGen.toNat ||| at' 8 n.cls.toNat ||| at' 11 n.flow.toNat ||| at' 23 n.learnPort.toNat ||| at' 25 n.age.toNat |||
    at' 37 n.children.toNat ||| at' 55 n.uplinks.toNat

/-- The four words of an entry (R381). -/
def Node.words (n : Node) : List Word := [n.key, n.word1, n.word2, n.word3]

/-- The entry that four words hold (R381). -/
def nodeOf (w0 w1 w2 w3 : Word) : Node :=
  { eui := keyEui w0, domain := keyDomain w0,
    parentSlot := w1.extractLsb' 0 17, parentPipe := w1.extractLsb' 17 1, parentKind := w1.extractLsb' 18 2,
    parentTag := w1.extractLsb' 20 8, rank := w1.extractLsb' 28 16, learned := w1.getLsbD 44, static := w1.getLsbD 45,
    desync := w1.getLsbD 46, pinned := w1.getLsbD 47, seedGen := w1.getLsbD 48, refGen := w1.getLsbD 49,
    lastBand := w1.extractLsb' 50 2, antMask := w1.extractLsb' 52 4, rssi := w1.extractLsb' 56 8,
    lq := w1.extractLsb' 64 8,
    tc := w2.extractLsb' 0 33, drift := w2.extractLsb' 33 19, offset := w2.extractLsb' 52 20,
    keyGen := w3.extractLsb' 0 8, cls := w3.extractLsb' 8 3, flow := w3.extractLsb' 11 12,
    learnPort := w3.extractLsb' 23 2, age := w3.extractLsb' 25 12, children := w3.extractLsb' 37 18,
    uplinks := w3.extractLsb' 55 16 }

/-- Whether an entry is one: exactly one of LEARNED and STATIC (R382). -/
def Node.occupied (n : Node) : Bool := n.learned != n.static
def Node.anchored (n : Node) : Bool := n.children != 0

/-- Where an entry can be held (R384). -/
inductive Place where
  | slot (p n : Nat)
  | victim (p : Nat)
  | overflow (p i : Nat)
deriving DecidableEq, Repr

def tableBase (p : Nat) : Nat := 0x200000 + 0x80000 * p
def overflowBase (p : Nat) : Nat := 0x4C000 + 0x4000 * p

/-- The entry in a table slot, its words as stored. -/
def slotNode (s : State) (p n : Nat) : Node :=
  let a := tableBase p + 4 * n
  nodeOf (peek s a) (peek s (a + 1)) (peek s (a + 2)) (peek s (a + 3))

/-- The entry at an overflow index (R391). -/
def overNode (s : State) (p i : Nat) : Node :=
  let a := overflowBase p
  let b := a + 4096 + 3 * i
  nodeOf (peek s (a + i)) (peek s b) (peek s (b + 1)) (peek s (b + 2))

def placeNode (s : State) : Place → Node
  | .slot p n => slotNode s p n
  | .victim p => ((fwd s p).victim).getD {}
  | .overflow p i => overNode s p i

/-- Writes an entry where it is held; an emptied place is written as zeros (R382). -/
def putNode (s : State) (at_ : Place) (n : Option Node) : State :=
  let ws := match n with | some n => n.words | none => [0, 0, 0, 0]
  match at_ with
  | .slot p k => writeWords s (tableBase p + 4 * k) ws
  | .victim p => setFwd s p { fwd s p with victim := n }
  | .overflow p i =>
    writeWords (writeWord s (overflowBase p + i) (ws.getD 0 0)) (overflowBase p + 4096 + 3 * i) (ws.drop 1)

/-! ### The hash (R383) -/

/-- bucket under a seed. -/
def bucketOf (seed : BitVec 32) (w : Word) : Nat :=
  let c := keyCrc seed w
  let m := (c ^^^ (c >>> 15)) * 0x2C1B3C6D
  fld (m ^^^ (m >>> 12)) 31 17

/-- tag() of a key. -/
def tagOf (w : Word) : BitVec 8 := (keyCrc 0xFFFFFFFF w).setWidth 8

/-- A pipeline's seeds. -/
def seedOf (s : State) (p way : Nat) : BitVec 32 := (parV s (0x3401 + 2 * p + way)).setWidth 32

/-- Slot of a position in a way's bucket (R380). -/
def slotAt (way bucket q : Nat) : Nat := 65536 * way + 2 * bucket + q

/-- The slots of a key's two buckets under two seeds. -/
def bucketSlots (s0 s1 : BitVec 32) (w : Word) : List Nat :=
  [slotAt 0 (bucketOf s0 w) 0, slotAt 0 (bucketOf s0 w) 1, slotAt 1 (bucketOf s1 w) 0, slotAt 1 (bucketOf s1 w) 1]

/-- The slots that can hold a key in a pipeline's table, in lookup order (R384). -/
def candidateSlots (s : State) (p : Nat) (w : Word) : List Nat :=
  bucketSlots (seedOf s p 0) (seedOf s p 1) w ++
    (match (fwd s p).rehash with | some r => bucketSlots r.old0 r.old1 w | none => [])

/-! ### Lookup (R384) -/

/-- The places that can hold a key in one table, in lookup order. -/
def candidates (s : State) (p : Nat) (w : Word) : List Place :=
  (candidateSlots s p w).map (Place.slot p) ++ [Place.victim p] ++ (fwd s p).overflow.map (Place.overflow p)

/-- Where a key is held in one table. -/
def findIn (s : State) (p : Nat) (w : Word) : Option Place :=
  (candidates s p w).find? (fun c => (placeNode s c).occupied && (placeNode s c).key == w)

/-- Where a key is held, its own table first (R400). -/
def findNode (s : State) (p : Nat) (w : Word) : Option Place :=
  match findIn s p w with
  | some c => some c
  | none => findIn s (1 - p) w

/-- The entry that supplies a node's timing: of two, the one of the later T_C (R362, R365; DEDUCED, log 32). -/
def timingPlace (s : State) (w : Word) : Option Place :=
  match findIn s 0 w, findIn s 1 w with
  | some a, some b => if (placeNode s a).tc.toNat < (placeNode s b).tc.toNat then some b else some a
  | some a, none => some a
  | none, b => b

/-- The overflow bins that a lookup of a key reads: its own, and each further one while the spill flag of the bin just read is set
(R391). -/
def overBins (f : Fwd) : Nat → Nat → List Nat
  | 0, _ => []
  | fuel + 1, b => b :: (if tblAt f.spill b false then overBins f fuel ((b + 1) % 256) else [])

/-- The overflow indices in use that a lookup of a key reads. -/
def overReads (s : State) (p : Nat) (w : Word) : List Nat :=
  let f := fwd s p
  let seeds := seedOf s p 0 :: (match f.rehash with | some r => [r.old0] | none => [])
  ((seeds.flatMap (fun x => overBins f 256 (bucketOf x w % 256))).flatMap (fun b => (List.range 16).map (fun i => 16 * b + i))).filter
    (fun i => f.overflow.contains i)

/-- A lookup among overflow entries (R391): the key words read one by one, then the other words of the one found. -/
def lookupOver (own p : Nat) (w : Word) : List Nat → State → State × Option (Option Place)
  | [], s => (s, some none)
  | i :: is, s =>
    match readWord s (overflowBase p + i) (5 + own) with
    | (s, none) => (s, none)
    | (s, some k) => if k = w then (s, some (some (.overflow p i))) else lookupOver own p w is s

/-- A pipeline's lookup in one table, reading through its port: a poisoned word drops the frame in process, and in
the own table empties the slot (R171 codes 5 and 6, R384). -/
def lookupIn (own p : Nat) (w : Word) (s : State) : List Nat → State × Option (Option Place)
  | [] =>
    let v := placeNode s (.victim p)
    if v.occupied && v.key == w then (s, some (some (.victim p))) else lookupOver own p w (overReads s p w) s
  | k :: ks =>
    match readWords (5 + own) 4 (tableBase p + 4 * k) s with
    | (s, .inr _) => (if own = p then putNode s (.slot p k) none else s, none)
    | (s, .inl [a, b, c, d]) =>
      let n := nodeOf a b c d
      if n.occupied && n.key == w then (s, some (some (.slot p k))) else lookupIn own p w s ks
    | (s, .inl _) => (s, none)

/-- The learning unit reads a slot through its pipeline's port: a poisoned one is written as empty (R171 codes 5 and 6). -/
def meetSlot (p : Nat) (s : State) (k : Nat) : State :=
  match readWords (5 + p) 4 (tableBase p + 4 * k) s with
  | (s, .inl _) => s
  | (s, .inr _) => putNode s (.slot p k) none

/-- The reads of a key's slots in one table. -/
def meetSlots (s : State) (p : Nat) (w : Word) : State := (candidateSlots s p w).foldl (meetSlot p) s

/-! ### Parents and CHILDREN -/

/-- Word of the move map that holds a position's element, and the element's lowest bit (R390). -/
def mapWord (pos : Nat) : Nat × Nat := (0x40000 + pos / 4, 18 * (pos % 4))

/-- Position that a parent reference of kind 2 or 3 names (R390). -/
def parentPos (n : Node) : Nat := if n.parentKind = 2 then n.parentSlot.toNat else 131072 + n.parentSlot.toNat % 4096

/-- Whether a parent reference resolves through the move map (R390). -/
def viaMap (s : State) (n : Node) : Bool :=
  (n.parentKind == 2 || n.parentKind == 3) && n.refGen != (fwd s n.parentPipe.toNat).seedGen

/-- The place that a parent reference names directly; a reference whose REFGEN differs from its table's SEEDGEN goes
through the move map (R390). -/
def parentPlace (s : State) (n : Node) : Option Place :=
  let p := n.parentPipe.toNat
  if n.parentKind = 2 ∨ n.parentKind = 3 then
    let pos := parentPos n
    let e := mapWord pos
    let v := if viaMap s n then fld (peek s e.1) (e.2 + 17) e.2 else 0
    let pos := if v = 0 then pos else v - 1
    if pos < 131072 then some (.slot p pos) else if pos < 135168 then some (.overflow p (pos - 131072)) else none
  else none

/-- Adds to the CHILDREN of a place. -/
def addChild (s : State) (c : Place) (up : Bool) : State :=
  let n := placeNode s c
  if n.occupied then putNode s c (some { n with children := if up then n.children + 1 else n.children - 1 }) else s

/-- An entry loses its parent: one child less there. -/
def dropParent (s : State) (n : Node) : State :=
  match parentPlace s n with
  | some c => if (placeNode s c).occupied && tagOf (placeNode s c).key == n.parentTag then addChild s c false else s
  | none => s

/-- Removes an entry (R394, R415). -/
def removeNode (s : State) (c : Place) : State :=
  let s := putNode (dropParent s (placeNode s c)) c none
  match c with
  | .overflow p i => setFwd s p { fwd s p with overflow := (fwd s p).overflow.filter (· != i) }
  | _ => s

/-! ### Insertion (R385 to R388) -/

/-- The lower empty slot of a bucket. -/
def emptyIn (s : State) (p way bucket : Nat) : Option Nat :=
  [slotAt way bucket 0, slotAt way bucket 1].find? (fun k => !(slotNode s p k).occupied)

/-- The movable slot of a bucket, position `q` first. -/
def movableIn (s : State) (p way bucket q : Nat) : Option Nat :=
  [slotAt way bucket q, slotAt way bucket (1 - q)].find? (fun k => !(slotNode s p k).anchored)

/-- Writes an entry into a slot, as placed under the seeds in force (R381, R389). -/
def seat (s : State) (p k : Nat) (n : Node) : State := putNode s (.slot p k) (some { n with seedGen := (fwd s p).seedGen })

/-- The relocation loop of R385, `left` swaps remaining: the state, and the entry that found no place. In a rehash an unprocessed entry
that is displaced leaves the loop at once, to be inserted in turn (R389 phase 1). -/
def relocate (p : Nat) (rehash : Bool) : Nat → Nat → Nat → Node → State → State × Option Node
  | 0, _, _, cur, s => (s, some cur)
  | left + 1, n, way, cur, s =>
    let b (w : Nat) : Nat := bucketOf (seedOf s p w) cur.key
    let pick : Option (Nat × Nat) := match movableIn s p way (b way) (n % 2) with
      | some k => some (way, k)
      | none => (movableIn s p (1 - way) (b (1 - way)) (n % 2)).map (fun k => (1 - way, k))
    match pick with
    | none => (s, some cur)
    | some (w, k) =>
      let out := slotNode s p k
      let s := meetSlots (fwdBump (seat s p k cur) p 15) p out.key
      let w' := 1 - w
      if rehash && out.seedGen != (fwd s p).seedGen then (s, some out)
      else match emptyIn s p w' (bucketOf (seedOf s p w') out.key) with
      | some e => (seat s p e out, none)
      | none => relocate p rehash left (n + 1) w' out s

/-- An empty slot of a key's buckets, way 0 first. -/
def emptyFor (s : State) (p : Nat) (w : Word) : Option Nat :=
  match emptyIn s p 0 (bucketOf (seedOf s p 0) w) with
  | some k => some k
  | none => emptyIn s p 1 (bucketOf (seedOf s p 1) w)

/-- R385: places an entry, or hands back the one that found no place. -/
def place (s : State) (p : Nat) (rehash : Bool) (x : Node) : State × Option Node :=
  match emptyFor s p x.key with
  | some k => (seat s p k x, none)
  | none => relocate p rehash (par s 0x3400) 0 0 x s

/-- failed(cur) of R388. -/
def toVictim (s : State) (p : Nat) (cur : Node) : State :=
  let s := fwdBump (setFwd s p { fwd s p with victim := some cur }) p 16
  raiseEv s 192 (at' 0 p) cur.key

/-- Creates an entry: only into an empty slot while the victim register is held (R388). -/
def createNode (s : State) (p : Nat) (x : Node) : Option State :=
  if (fwd s p).victim.isSome then (emptyFor s p x.key).map (fun k => seat s p k x)
  else match place s p false x with
    | (s, none) => some s
    | (s, some cur) => some (toVictim s p cur)

/-- Whether learning on a pipeline is stopped (R388, R389). -/
def learningStopped (s : State) (p : Nat) : Bool := (fwd s p).victim.isSome || (fwd s p).rehash.isSome

/-! ### Node timing (R360 to R363) -/

/-- Timebase bits [54:22] of a time (R381). -/
def tcOf (t : Nat) : BitVec 33 := BitVec.ofNat 33 (t / 2 ^ 22)

/-- δ(S) in units of 2^-32 s (R362). -/
def predicted (n : Node) (t : Nat) : Int :=
  let d : Int := ((t + 2 ^ 55 - n.tc.toNat * 2 ^ 22) % 2 ^ 55 : Nat)
  (n.offset.toInt * (256 * 2 ^ 32) + n.drift.toInt * d) / 256000000

/-- The guard g(S) in 1/256 µs (R363). -/
def guard256 (s : State) (n : Node) (t : Nat) : Nat :=
  let d := (t + 2 ^ 55 - n.tc.toNat * 2 ^ 22) % 2 ^ 55
  let c := n.cls.toNat
  256 * par s (0x2C18 + c) + 2 * par s (0x2C10 + c) * d / 2 ^ 32

/-- Division rounded to the nearest integer. -/
def roundDiv (a : Int) (b : Int) : Int := (2 * a + b) / (2 * b)

/-- A contact with measured offset `e` in µs at time `t` (R361, R395); out of range it changes nothing and is
counted by the caller. -/
def contact (s : State) (n : Node) (e : Int) (t : Nat) (first : Bool) : Node :=
  if first then { n with offset := BitVec.ofInt 20 e, drift := 0, tc := tcOf t, desync := false }
  else
    let d : Int := ((tcOf t - n.tc).toNat : Int)
    let r : Int := (e - n.offset.toInt) * 262144 - n.drift.toInt * d
    let dr : Int := if (1024 * par s 0x2C04 : Nat) ≤ d ∧ 0 < d then n.drift.toInt + roundDiv r (d * 2 ^ par s 0x2C03)
      else n.drift.toInt
    let dr := max (-256000) (min 256000 dr)
    { n with offset := BitVec.ofInt 20 e, drift := BitVec.ofInt 19 dr, tc := tcOf t, desync := false }

/-- Whether an entry has had no contact yet (R361). -/
def Node.untimed (n : Node) : Bool := n.tc == 0 && n.offset == 0 && n.drift == 0

/-- Whether an offset fits the OFFSET field. -/
def offsetFits (e : Int) : Bool := decide (-(2 ^ 19 : Int) ≤ e ∧ e < 2 ^ 19)

/-- Makes the HELD items of a node QUEUED again (R363, R366). -/
def wakeHeld (s : State) (w : Word) : State :=
  { s with mac := { s.mac with items := s.mac.items.map (fun i =>
      if i.st = .held ∧ i.node = some w then { i with st := .queued } else i) } }

/-- Marks an entry DESYNC (R363). -/
def markDesync (s : State) (c : Place) : State :=
  let n := placeNode s c
  if n.desync then s
  else
    let s := putNode s c (some { n with desync := true })
    bump (raiseEv s 160 (at' 0 n.domain.toNat) (n.eui.setWidth 72)) 0xE81

/-- Writes a contact into the entry at a place; clearing DESYNC raises EV_NODE_RESYNC (R361, R363, R395). -/
def contactAt (s : State) (p : Nat) (c : Place) (e : Int) (t : Nat) : State :=
  let n := placeNode s c
  if offsetFits e then
    let s' := putNode s c (some (contact s n e t n.untimed))
    if n.desync then wakeHeld (raiseEv s' 161 (at' 0 n.domain.toNat) (n.eui.setWidth 72)) n.key else s'
  else fwdBump s p 28

/-! ### Learning (R395 to R398) -/

/-- What a frame gives its origin's entry (R395). -/
structure Seen where
  key : Word
  band : Band
  keyGen : BitVec 8
  direct : Bool
  ants : BitVec 4
  rssi : BitVec 8
  lq : BitVec 8
  timing : Option (Int × Nat)

/-- The fields a frame writes apart from the timing. -/
def seenFields (n : Node) (f : Seen) : Node :=
  let n := { n with lastBand := BitVec.ofNat 2 f.band.val, keyGen := f.keyGen, age := 0,
                    uplinks := if n.uplinks = BitVec.allOnes 16 then n.uplinks else n.uplinks + 1 }
  if f.direct then
    let n := { n with antMask := f.ants, rssi := f.rssi, lq := f.lq }
    if n.pinned then n else { n with parentKind := 1 }
  else n

/-- A direct frame of an entry that is not PINNED takes it from its former parent. -/
def refreshParent (s : State) (n : Node) (f : Seen) : State :=
  if f.direct && !n.pinned && (n.parentKind == 2 || n.parentKind == 3) then dropParent s n else s

/-- A refresh of an existing entry (R395). -/
def refreshAt (s : State) (p : Nat) (c : Place) (f : Seen) : State :=
  let s := refreshParent s (placeNode s c) f
  let s := fwdBump (putNode s c (some (seenFields (placeNode s c) f))) p 9
  match f.timing with
  | some (e, t) => if f.direct then contactAt s p c e t else s
  | none => s

/-- The timing that a direct frame gives an entry still to be created (R361, R395). -/
def pendingContact (s : State) (n : Node) (f : Seen) : Node :=
  match f.timing with
  | some (e, t) => if f.direct && offsetFits e then contact s n e t n.untimed else n
  | none => n

/-- A new entry's fields (R395). -/
def newEntry (s : State) (p : Nat) (f : Seen) : Node :=
  let n : Node := { eui := keyEui f.key, domain := keyDomain f.key, learned := true, seedGen := (fwd s p).seedGen,
                    desync := !f.direct, learnPort := BitVec.ofNat 2 f.band.val }
  pendingContact s (seenFields n f) f

/-- Counts a measured offset beyond the range of OFFSET (R395). -/
def countRange (s : State) (p : Nat) (f : Seen) : State :=
  match f.timing with
  | some (e, _) => if f.direct && !offsetFits e then fwdBump s p 28 else s
  | none => s

/-- LEARNED entries of a pipeline with a LEARN_PORT (R396, R421). -/
def occupiedSlots (s : State) (p : Nat) : List Nat :=
  let b := tableBase p
  ((s.mem.filter (fun e => decide (b ≤ e.1 ∧ e.1 < b + 0x80000) && e.1 % 4 == 1)).map (fun e => (e.1 - b) / 4)).filter
    (fun k => (slotNode s p k).occupied)

/-- Every entry a pipeline holds. -/
def entriesOf (s : State) (p : Nat) : List (Place × Node) :=
  let at_ (c : Place) : Place × Node := (c, placeNode s c)
  (occupiedSlots s p).map (fun k => at_ (.slot p k)) ++
    (match (fwd s p).victim with | some n => [(.victim p, n)] | none => []) ++
    ((fwd s p).overflow).map (fun i => at_ (.overflow p i))

def learnCount (s : State) (p b : Nat) : Nat :=
  ((entriesOf s p).filter (fun e => e.2.learned && e.2.learnPort.toNat == b)).length

/-- Fills a token bucket of `rate` per second up to `burst` (R396, R410). -/
def refill (now rate burst : Nat) (b : Option Bucket) : Bucket :=
  match b with
  | none => ⟨burst * 1000000, now⟩
  | some b => ⟨min (burst * 1000000) (b.level + rate * (now - b.at_) * 10 / 4096), now⟩

/-- The learning bucket of a band, filled to now. -/
def learnBucket (s : State) (p b : Nat) : Bucket :=
  refill s.now (par s (0x3800 + 3 * p + b)) (par s (0x3808 + 3 * p + b)) (tblGet (fwd s p).buckets b)

/-- LEARN_BUCKET_REFILL (R396). -/
def execLearnBucketRefill (dt : Nat) (pipe : Pipe) (band : Band) (s : State) : Host.Outcome State Fault Refusal :=
  live dt s (fun s =>
    let f := fwd s pipe.val
    setFwd s pipe.val { f with buckets := tblPut f.buckets band.val (learnBucket s pipe.val band.val) })

/-- Raises EV_LEARN_RATE or EV_LEARN_CAP for the first excess of its cause in a second (R396). -/
def learnEvent (s : State) (p b : Nat) (cap : Bool) : State :=
  let f := fwd s p
  let k := b + (if cap then 4 else 0)
  let recent := match tblGet f.learnEv k with | some t => decide (s.now < t + secC 1) | none => false
  if recent then s
  else raiseEv (setFwd s p { f with learnEv := tblPut f.learnEv k s.now }) (if cap then 195 else 194)
    (at' 0 p ||| at' 1 b) 0

/-- Why a new entry is excess, in the order of R396 (the first counts: DEDUCED, log 33): 10 rate, 11 cap, 12 stopped
or queue full. -/
def excessCause (s : State) (p b : Nat) : Option Nat :=
  if (learnBucket s p b).level < 1000000 then some 10
  else if par s (0x3810 + 3 * p + b) ≤ learnCount s p b then some 11
  else if learningStopped s p ∨ 64 ≤ (fwd s p).learnQ.length then some 12
  else none

/-- Counts an excess (R396). -/
def countExcess (s : State) (p b cause : Nat) : State :=
  let s := fwdBump s p cause
  if cause = 10 then learnEvent s p b false else if cause = 11 then learnEvent s p b true else s

/-- Passes an origin to the learning unit (R378 step 5); answers whether its frame goes on (R397). -/
def learn (s : State) (p : Nat) (f : Seen) : State × Bool :=
  match findIn s p f.key with
  | some c => (refreshAt s p c f, true)
  | none =>
    let q := (fwd s p).learnQ
    if q.any (fun l => l.node.key == f.key) then
      let q := q.map (fun l => if l.node.key == f.key then
        { l with node := pendingContact s { seenFields l.node f with desync := l.node.desync && !f.direct } f } else l)
      (fwdBump (countRange (setFwd s p { fwd s p with learnQ := q }) p f) p 9, true)
    else match excessCause s p f.band.val with
      | some cause =>
        let s := countExcess s p f.band.val cause
        if parB s (0x3818 + f.band.val) then (fwdBump s p 14, true) else (fwdBump s p 13, false)
      | none =>
        let b := learnBucket s p f.band.val
        let s := countRange s p f
        let w := fwd s p
        (setFwd s p { w with learnQ := w.learnQ ++ [⟨f.band, newEntry s p f⟩],
                             buckets := tblPut w.buckets f.band.val { b with level := b.level - 1000000 } }, true)

/-- LEARN_CREATE (R395): the learning unit creates the entry of the oldest pending key. -/
def execLearnCreate (dt : Nat) (pipe : Pipe) (s : State) : Host.Outcome State Fault Refusal :=
  live dt s (fun s =>
    let p := pipe.val
    let f := fwd s p
    match f.learnQ with
    | [] => s
    | l :: ls =>
      let s := meetSlots (setFwd s p { f with learnQ := ls }) p l.node.key
      if f.rehash.isSome || (findIn s p l.node.key).isSome then s
      else match createNode s p l.node with
        | some s => fwdBump s p 8
        | none => s)

/-! ### Ageing (R394) -/

/-- The sweep's treatment of the entry at a place. -/
def agePlace (p : Nat) (s : State) (c : Place) : State :=
  let n := placeNode s c
  if !n.occupied then s else
  let age := if n.learned && n.age != BitVec.allOnes 12 then n.age + 1 else n.age
  if n.learned && decide (par s 0x381D ≤ age.toNat) && !n.anchored then fwdBump (removeNode s c) p 17
  else
    let since := (tcOf (time s).toNat - n.tc).toNat
    putNode s c (some { n with age := age, desync := n.desync || decide (2 ^ 32 < since) })

/-- The sweep's treatment of one slot; a slot found poisoned is written as empty. -/
def ageOne (p : Nat) (s : State) (k : Nat) : State := agePlace p (meetSlot p s k) (.slot p k)

/-- AGEING_SWEEP (R394): one pass over a pipeline's table, its overflow entries among them; the victim register's entry leaves it only
as R388 says (DEDUCED, log 232). -/
def execAgeingSweep (dt : Nat) (pipe : Pipe) (s : State) : Host.Outcome State Fault Refusal :=
  live dt s (fun s =>
    let p := pipe.val
    if due s ((fwd s p).sweepAt + secC (par s 0x381C)) then
      let s := applyKind s .sweepPass
      let s := (occupiedSlots s p).foldl (ageOne p) s
      let s := ((fwd s p).overflow.map (Place.overflow p)).foldl (agePlace p) s
      setFwd s p { fwd s p with sweepAt := s.now }
    else s)

/-! ### NODE_ADD, NODE_DELETE, NODE_READ (R414 to R416) -/

def stTableFull : Status := 0x300
def stTableBusy : Status := 0x301
def stParentUnknown : Status := 0x302
def stRehashLoss : Status := 0x303
def stBufSpace : Status := 0x304
def stInjectDropped : Status := 0x305
def stRouteFailed : Status := 0x306
def stNodeHasChildren : Status := 0x307
def stNodeUnknown : Status := 0x207

/-- Whether a rehash runs. -/
def rehashing (s : State) : Bool := (fwd s 0).rehash.isSome || (fwd s 1).rehash.isSome

/-- A reference to a place: pipeline, PARENT_KIND, PARENT_SLOT. -/
def placeRef : Place → Option (Nat × Nat × Nat)
  | .slot p k => some (p, 2, k)
  | .victim _ => none
  | .overflow p i => some (p, 3, i)

/-- The parent that a NODE_ADD names, for an entry in a table: UNKNOWN, DIRECT, or a named place (R414). -/
def namedParent (s : State) (p : Nat) (key : Word) (parent : Eui) (kind : Nat) : Option (Option Place) :=
  if kind = 2 then
    let w := keyWord (keyDomain key) parent
    match findNode s p w with
    | some c => if w = key ∨ (placeRef c).isNone then none else some (some c)
    | none => none
  else some none

/-- Sets the parent fields of an entry (R414). -/
def withParent (s : State) (n : Node) (kind : Nat) (c : Option Place) : Node :=
  match c.bind placeRef with
  | some (p, k, i) =>
    { n with parentKind := BitVec.ofNat 2 k, parentSlot := BitVec.ofNat 17 i, parentPipe := BitVec.ofNat 1 p,
             parentTag := tagOf (placeNode s (c.getD (.victim p))).key, refGen := (fwd s p).seedGen }
  | none => { n with parentKind := if kind = 1 then 1 else 0, parentSlot := 0, parentPipe := 0, parentTag := 0 }

/-- Moves an entry at a place to a new parent, with RANK and PINNED (R414). -/
def setRoute (s : State) (at_ : Place) (kind : Nat) (parent : Option Place) (rank : BitVec 16) (pin : Bool) : State :=
  let s := dropParent s (placeNode s at_)
  let n := withParent s { placeNode s at_ with rank := rank, pinned := pin } kind parent
  let s := putNode s at_ (some n)
  match parent with | some c => addChild s c true | none => s

/-- The completion word of NODE_ADD. -/
def addWord (s : State) (p : Nat) (key : Word) (created : Bool) : Word :=
  match findIn s p key with
  | some (.overflow _ i) => at' 0 i ||| at' 17 p ||| at' 18 created.toNat ||| at' 19 1
  | some (.slot _ k) => at' 0 k ||| at' 17 p ||| at' 18 created.toNat
  | _ => at' 17 p ||| at' 18 created.toNat

/-- NODE_ADD mode 0 (R414). -/
def addStatic (s : State) (ps : List Word) : State × Status × List Word :=
  let key := ps.getD 0 0
  let w3 := ps.getD 2 0
  let p := fld w3 1 1
  let kind := if fld (ps.getD 1 0) 65 64 = 3 then 0 else fld (ps.getD 1 0) 65 64
  match namedParent s p key ((ps.getD 1 0).setWidth 64) kind with
  | none => (s, stParentUnknown, [])
  | some parent =>
    let band := if fld w3 35 34 = 3 then 0 else fld w3 35 34
    let fields (n : Node) : Node :=
      { n with learned := false, static := true, learnPort := 3, cls := w3.extractLsb' 3 3, flow := w3.extractLsb' 22 12,
               lastBand := BitVec.ofNat 2 band, keyGen := (ps.getD 3 0).setWidth 8 }
    let route (s : State) : State := match findIn s p key with
      | some c =>
        let parent' := match parent with
          | some q => findNode s p (placeNode s q).key
          | none => none
        setRoute s c kind parent' (w3.extractLsb' 6 16) (w3.getLsbD 2)
      | none => s
    match findIn s p key with
    | some c =>
      let s := route (putNode s c (some (fields (placeNode s c))))
      (s, stOk, [addWord s p key false])
    | none =>
      let n := fields { eui := keyEui key, domain := keyDomain key, desync := true, seedGen := (fwd s p).seedGen }
      match createNode s p n with
      | none => (s, stTableFull, [])
      | some s' =>
        let s := route s'
        (s, stOk, [addWord s p key true])

/-- NODE_ADD mode 1 (R414): an unknown key is judged before its parent (DEDUCED, log 34). -/
def addRoute (s : State) (ps : List Word) : State × Status × List Word :=
  let key := ps.getD 0 0
  let w3 := ps.getD 2 0
  let kind := if fld (ps.getD 1 0) 65 64 = 3 then 0 else fld (ps.getD 1 0) 65 64
  let tables := [0, 1].filter (fun p => (findIn s p key).isSome)
  match tables with
  | [] => (s, stNodeUnknown, [])
  | p :: _ =>
    let named (p : Nat) : Option (Option Place) := namedParent s p key ((ps.getD 1 0).setWidth 64) kind
    if tables.any (fun p => (named p).isNone) then (s, stParentUnknown, [])
    else
      let s := tables.foldl (fun s p => match findIn s p key, named p with
        | some c, some parent => setRoute s c kind parent (w3.extractLsb' 6 16) (w3.getLsbD 2)
        | _, _ => s) s
      (s, stOk, [addWord s p key false])

/-- NODE_ADD (R389, R414). -/
def execNodeAdd (dt : Nat) (hc : Hc) (s : State) : Host.Outcome State Fault Refusal :=
  command dt hc 0x302 5 1 s (fun p s =>
    if reservedSet (p.word 2) (bits 65 0) ∨ reservedSet (p.word 3) (bits 35 0) ∨ reservedSet (p.word 4) (bits 7 0) ∨
        p.word 5 ≠ 0 then .undef 8
    else if owns s hc 1 (fld (p.word 1) 71 64) = false then .done s stNotOwner []
    else if rehashing s then .done s stTableBusy []
    else
      let s := meetSlots (meetSlots s 0 (p.word 1)) 1 (p.word 1)
      let r := if (p.word 3).getLsbD 0 then addRoute s p.payload else addStatic s p.payload
      .done r.1 r.2.1 r.2.2)

/-- NODE_DELETE (R388, R389, R415). -/
def execNodeDelete (dt : Nat) (hc : Hc) (s : State) : Host.Outcome State Fault Refusal :=
  command dt hc 0x303 1 0 s (fun p s =>
    let key := p.word 1
    if owns s hc 1 (fld key 71 64) = false then .done s stNotOwner []
    else if rehashing s then .done s stTableBusy []
    else
      let s := meetSlots (meetSlots s 0 key) 1 key
      let held := [findIn s 0 key, findIn s 1 key].filterMap id
      if held.isEmpty then .done s stNodeUnknown []
      else if held.any (fun c => (placeNode s c).anchored) then .done s stNodeHasChildren []
      else .done (held.foldl removeNode s) stOk [])

/-- NODE_READ (R416). -/
def execNodeRead (dt : Nat) (hc : Hc) (s : State) : Host.Outcome State Fault Refusal :=
  command dt hc 0x304 1 8 s (fun p s =>
    let key := p.word 1
    let s := meetSlots (meetSlots s 0 key) 1 key
    let ws (t : Nat) : List Word := match findIn s t key with
      | some c => (placeNode s c).words
      | none => [0, 0, 0, 0]
    if (findIn s 0 key).isNone ∧ (findIn s 1 key).isNone then .done s stNodeUnknown []
    else .done s stOk (ws 0 ++ ws 1))

/-! ### Live rehash (R389 to R393, R417) -/

/-- Writes an element of the move map (R390). -/
def putMap (s : State) (pos v : Nat) : State :=
  let e := mapWord pos
  let w := (peek s e.1).toNat
  writeWord s e.1 (BitVec.ofNat 72 (w - fld (peek s e.1) (e.2 + 17) e.2 * 2 ^ e.2 + v * 2 ^ e.2))

/-- Clears the move map (R389 phase 4). -/
def clearMap (s : State) : State :=
  ((s.mem.filter (fun e => decide (0x40000 ≤ e.1 ∧ e.1 < 0x48400))).map (·.1)).foldl (fun s a => writeWord s a 0) s

/-- TABLE_REHASH (R389, R417): the seeds take effect, and the entries stand unprocessed under the previous ones. -/
def execTableRehash (dt : Nat) (hc : Hc) (s : State) : Host.Outcome State Fault Refusal :=
  command dt hc 0x305 2 2 s (fun p s =>
    let t := fld (p.word 1) 0 0
    if reservedSet (p.word 1) (bits 0 0) ∨ reservedSet (p.word 2) (bits 63 0) then .undef 8
    else if rehashing s then .done s stTableBusy []
    else
      let f := fwd s t
      let r : Rehash := ⟨hc, p.id, s.now, seedOf s t 0, seedOf s t 1⟩
      let set (s : State) (id v : Nat) : State :=
        noteDirty { s with params := tblPut s.params id (BitVec.ofNat 64 v), inForce := tblPut s.inForce id (BitVec.ofNat 64 v) }
      let s := set (set s (0x3401 + 2 * t) (fld (p.word 2) 31 0)) (0x3402 + 2 * t) (fld (p.word 2) 63 32)
      .work (setFwd s t { f with rehash := some r, seedGen := !f.seedGen }) .elsewhere)

/-- A rehash under way over the entries taken out of the table: where each stood before, by position, and where it
stands now. -/
structure Rework where
  s : State
  /-- old position of a key, by key word -/
  was : List (Word × Nat)
  discarded : List (Node × Nat)

/-- Whether an overflow entry may be discarded (R391). -/
def discardable (n : Node) : Bool := n.learned && !n.anchored

/-- First index of a bin with room, from a bin on, ascending and wrapping (R391). -/
def overflowIndex (used : List Nat) (bin : Nat) : Option Nat :=
  ((List.range 4096).map (fun i => (16 * bin + i) % 4096)).find? (fun i => !used.contains i)

/-- Discards an entry in a rehash: its parent in the other table has one child less; the counts of the rehashed table are made anew in
phase 3 (R389, R391, R394). -/
def discardNode (p : Nat) (r : Rework) (n : Node) : Rework :=
  let pos := ((r.was.find? (fun e => e.1 == n.key)).map (·.2)).getD 135168
  let s := if n.parentPipe.toNat = p then r.s else dropParent r.s n
  { r with s := fwdBump s p 19, discarded := (n, pos) :: r.discarded }

/-- Puts an entry into the overflow (R391). -/
def toOverflow (p : Nat) (r : Rework) (n : Node) : Rework :=
  let f := fwd r.s p
  let enter (s : State) : State :=
    let f := fwd s p
    let bin := bucketOf (seedOf s p 0) n.key % 256
    match overflowIndex f.overflow bin with
    | some i =>
      let past := (List.range 256).filter (fun d => d < (i / 16 + 256 - bin) % 256)
      let spill := past.foldl (fun m d => tblPut m ((bin + d) % 256) true) f.spill
      putNode (setFwd s p { f with overflow := f.overflow ++ [i], spill := spill }) (.overflow p i) (some n)
    | none => s
  if f.overflow.length < 4096 then { r with s := enter r.s }
  else match f.overflow.find? (fun i => discardable (overNode r.s p i)) with
    | some i =>
      let out := overNode r.s p i
      let s := putNode (setFwd r.s p { f with overflow := f.overflow.filter (· != i) }) (.overflow p i) none
      let r := discardNode p { r with s := s } out
      { r with s := enter r.s }
    | none => discardNode p r n

/-- Inserts an entry, then each unprocessed entry that it displaces, in turn (R389 phase 1). -/
def insertChain (p : Nat) (gen : Bool) : Nat → Rework → Node → Rework
  | 0, r, n => toOverflow p r n
  | fuel + 1, r, n =>
    match place (meetSlots r.s p n.key) p true { n with seedGen := gen } with
    | (s, none) => { r with s := s }
    | (s, some cur) =>
      if cur.seedGen = gen then toOverflow p { r with s := s } cur else insertChain p gen fuel { r with s := s } cur

/-- Phase 1 at one slot: an unprocessed entry is taken out and inserted under the new seeds. -/
def rehashSlot (p : Nat) (gen : Bool) (r : Rework) (k : Nat) : Rework :=
  let r := { r with s := meetSlot p r.s k }
  let n := slotNode r.s p k
  if n.occupied && n.seedGen != gen then insertChain p gen 131072 { r with s := putNode r.s (.slot p k) none } n else r

/-- Phase 2 at one overflow entry: tried again, or back in the overflow. -/
def rehashOver (p : Nat) (gen : Bool) (r : Rework) (i : Nat) : Rework :=
  let n := overNode r.s p i
  let s := putNode (setFwd r.s p { fwd r.s p with overflow := (fwd r.s p).overflow.filter (· != i) }) (.overflow p i) none
  match place (meetSlots s p n.key) p false { n with seedGen := gen } with
  | (s, none) => { r with s := s }
  | (s, some cur) => toOverflow p { r with s := s } { cur with seedGen := gen }

/-- Position of a place: slots, then overflow indices. -/
def position : Place → Nat
  | .slot _ k => k
  | .victim _ => 135168
  | .overflow _ i => 131072 + i

/-- Phase 3 at one entry: a reference into the rehashed table is rewritten from the move map (R389, R391). -/
def rewriteRef (p : Nat) (gen : Bool) (s : State) (e : Place × Node) : State :=
  let n := e.2
  if n.parentPipe.toNat = p ∧ viaMap s n then
    let n' := match (parentPlace s n).bind placeRef with
      | some (_, k, i) => { n with parentKind := BitVec.ofNat 2 k, parentSlot := BitVec.ofNat 17 i, refGen := gen }
      | none => { n with parentKind := 0, parentSlot := 0, refGen := gen }
    putNode s e.1 (some n')
  else s

/-- CHILDREN counts of the rehashed table, counted anew. -/
def recount (s : State) (e : Place × Node) : State :=
  let c := ((entriesOf s 0 ++ entriesOf s 1).filter (fun x => parentPlace s x.2 == some e.1)).length
  if (position e.1) = 135168 then s else putNode s e.1 (some { placeNode s e.1 with children := BitVec.ofNat 18 c })

/-- The whole work of a rehash, phases 1 to 3: the state, the entries moved, and those discarded. -/
def rehashWork (s : State) (p : Nat) : State × Nat × List Node :=
  let gen := (fwd s p).seedGen
  let old := entriesOf s p
  let was := old.map (fun e => (e.2.key, position e.1))
  let held := (fwd s p).overflow
  let slots := occupiedSlots s p
  let start : Rework := ⟨setFwd s p { fwd s p with victim := none, spill := [] }, was, []⟩
  let r := match (fwd s p).victim with | some v => insertChain p gen 131072 start v | none => start
  let r := slots.foldl (rehashSlot p gen) r
  let waiting := held ++ (fwd r.s p).overflow.filter (fun i => !held.contains i)
  let r := waiting.foldl (rehashOver p gen) r
  let now := (entriesOf r.s p).filterMap (fun e => (was.find? (fun w => w.1 == e.2.key)).map (fun w => (w.2, e.1)))
  let moved := (now.filter (fun e => e.1 != position e.2)).length
  let s := (now.filter (fun e => e.1 != position e.2 && decide (e.1 < 135168))).foldl (fun s e => putMap s e.1 (position e.2 + 1)) r.s
  let s := (r.discarded.filter (fun e => decide (e.2 < 135168))).foldl (fun s e => putMap s e.2 135169) s
  let s := (entriesOf s 0 ++ entriesOf s 1).foldl (rewriteRef p gen) s
  let s := clearMap ((entriesOf s p).foldl recount s)
  (s, moved, r.discarded.map (·.1))

/-- EV_TABLE_REHASH_DONE (R389, R392, R417): the rehash's work stands complete (log 35), and TABLE_REHASH ends. -/
def execEvTableRehashDone (dt : Nat) (pipe : Pipe) (s : State) : Host.Outcome State Fault Refusal :=
  live dt s (fun s =>
    let p := pipe.val
    match (fwd s p).rehash with
    | none => s
    | some j =>
      let r := rehashWork s p
      let s := setFwd r.1 p { fwd r.1 p with rehash := none }
      let s := raiseEv (bumpBy s (fwdCounter p 18) r.2.1) 193 (at' 0 p) (BitVec.ofNat 72 r.2.1)
      let loss := r.2.2.any (fun n => n.static || n.anchored)
      finishJob s j.hc j.job (if loss then stRehashLoss else stOk)
        [at' 0 r.2.1 ||| at' 18 (fwd s p).overflow.length,
         at' 0 r.2.2.length ||| at' 18 ((s.now - j.startedAt) / msC 1)] false)

end Sys2Proof.Machine
end

