-- ==== Sys2Proof/Machine/Phy.lean ====
section
/-!
DEFINITION. PHY modes and channel coding (chapter 10): mode records, the Astarid long-reach chirp from PSDU octets to
chirps, airtimes and occupied bandwidths.
-/

namespace Sys2Proof.Machine

/-! ### Mode records (R298, R299) -/

/-- A transmit mode's word. -/
def txMode (s : State) (band mode : Nat) : Word := tblAt s.image.txModes (32 * band + mode) 0

def modePhy (m : Word) : Nat := fld m 1 0
def modeRate (m : Word) : Nat := fld m 9 2
def modePreamble (m : Word) : Nat := fld m 17 10
def modeSync (m : Word) : Nat := fld m 25 18
def modeFcs4 (m : Word) : Bool := m.getLsbD 27
def modeFec (m : Word) : Nat := fld m 30 29
def modeInterleave (m : Word) : Bool := m.getLsbD 31
def modeCh0 (m : Word) : Bool := m.getLsbD 34
def modeMask (m : Word) : Nat := fld m 41 39
def modeSwitch (m : Word) : Bool := m.getLsbD 42
def modeTarget (m : Word) : Nat := fld m 47 43

/-- Whitening and chain-0 filter slot of a mode (R299). -/
def modeWhiten (m : Word) : Bool := m.getLsbD 28
def modeFilter (m : Word) : Nat := fld m 38 35

/-- The mode whose packet carries the PSDU: the target of a mode switch (R322). -/
def packetMode (s : State) (band mode : Nat) : Word :=
  let m := txMode s band mode
  if modeSwitch m then txMode s band (modeTarget m) else m

/-- FCS octets that the PSDU carries; LRC appends its CRC outside the PSDU (R308, R320, R324). -/
def fcsOctets (m : Word) : Nat := if modePhy m = 0 then 0 else if modePhy m ≠ 3 ∧ modeFcs4 m then 4 else 2

/-- SF, bandwidth in kHz and code rate code of an LRC rate code (R298). -/
def lrcSf (rate : Nat) : Nat := rate % 16
def lrcBw (rate : Nat) : Nat := 125 * 2 ^ (rate / 64)
def lrcCr (rate : Nat) : Nat := rate / 16 % 4

/-- Bit rate of a SUN-FSK rate index in units of 1/6 µs per bit: sixths of a µs that one bit takes (R319). -/
def fskBit6 (index : Nat) : Nat :=
  if index = 0 then 120 else if index = 1 then 60 else if index = 2 then 40 else if index = 3 then 30
  else if index = 4 then 30 else if index = 5 then 20 else 15

/-- Whether PHY and RATE form a supported combination for a band (R298, R300, R323, R324). -/
def rateSupported (band phy rate : Nat) : Bool :=
  if phy = 0 then decide (6 ≤ lrcSf rate ∧ lrcSf rate ≤ 12 ∧ rate / 64 ≤ 2 ∧ lrcCr rate ≤ 2)
  else if phy = 1 then decide (rate ≤ 6)
  else if phy = 2 then
    let o := rate / 16
    let m := rate % 16
    decide (o ≤ 3) && (if o = 0 then decide (m ≤ 3) else if o = 1 then decide (m ≤ 5) else if o = 2 then decide (1 ≤ m ∧ m ≤ 6)
      else decide (2 ≤ m ∧ m ≤ 6))
  else decide (rate = 0 ∧ band = 2)

/-! ### LDPC (R309 to R314) -/

/-- A base-graph row: entries column and V (R311). -/
abbrev BaseRow := List (Nat × Nat)

def graphThird : List BaseRow :=
  [[(0, 13), (1, 46), (2, 7), (3, 61), (5, 30), (6, 52), (8, 1), (9, 0)],
   [(0, 68), (2, 25), (3, 9), (4, 40), (5, 3), (7, 57), (9, 0), (10, 0)],
   [(1, 33), (2, 70), (4, 18), (5, 49), (6, 11), (7, 2), (8, 0), (10, 0), (11, 0)],
   [(0, 5), (1, 27), (3, 44), (4, 66), (6, 20), (7, 38), (8, 1), (11, 0)],
   [(0, 21), (4, 59), (9, 8), (12, 0)], [(1, 64), (3, 16), (6, 35), (13, 0)], [(2, 41), (7, 23), (10, 50), (14, 0)],
   [(0, 9), (5, 71), (11, 29), (15, 0)], [(1, 55), (4, 37), (7, 6), (16, 0)], [(3, 48), (6, 14), (8, 62), (17, 0)]] ++
  [[(2, 19), (5, 42), (9, 67), (18, 0)], [(0, 36), (6, 58), (10, 4), (19, 0)], [(1, 10), (5, 26), (11, 53), (20, 0)],
   [(3, 69), (7, 31), (8, 15), (21, 0)], [(2, 51), (4, 12), (9, 45), (22, 0)], [(4, 28), (7, 60), (11, 39), (23, 0)]]

def graphHalf : List BaseRow :=
  [[(0, 17), (1, 52), (3, 6), (4, 39), (6, 63), (8, 28), (10, 45), (11, 11), (12, 1), (13, 0)],
   [(0, 40), (2, 3), (3, 57), (5, 22), (7, 66), (9, 14), (11, 31), (13, 0), (14, 0)],
   [(1, 8), (2, 47), (4, 70), (6, 19), (7, 35), (8, 54), (10, 2), (12, 0), (14, 0), (15, 0)],
   [(0, 61), (1, 24), (5, 43), (6, 9), (8, 37), (9, 68), (11, 20), (12, 1), (15, 0)],
   [(2, 30), (4, 5), (9, 50), (13, 16), (16, 0)], [(1, 65), (7, 12), (10, 34), (17, 0)],
   [(0, 27), (5, 58), (11, 49), (18, 0)], [(3, 13), (6, 44), (9, 1), (19, 0)], [(2, 60), (8, 21), (14, 36), (20, 0)],
   [(4, 48), (7, 4), (10, 67), (21, 0)], [(1, 18), (5, 33), (15, 55), (22, 0)], [(3, 71), (6, 26), (11, 7), (23, 0)]]

def graphTwoThirds : List BaseRow :=
  [[(0, 22), (1, 7), (2, 49), (4, 63), (5, 15), (7, 38), (8, 2), (10, 56), (12, 31), (13, 70), (15, 44), (16, 1), (17, 0)],
   [(0, 53), (2, 11), (3, 36), (5, 67), (6, 24), (8, 45), (9, 8), (11, 60), (13, 19), (14, 3), (17, 0), (18, 0)],
   [(1, 41), (3, 66), (4, 28), (6, 5), (7, 59), (9, 33), (10, 14), (11, 47), (12, 68), (14, 25), (15, 9), (16, 0), (18, 0),
    (19, 0)],
   [(0, 35), (1, 18), (2, 64), (3, 4), (5, 51), (6, 40), (8, 27), (9, 62), (10, 13), (12, 6), (15, 57), (16, 1), (19, 0)],
   [(4, 20), (7, 46), (11, 3), (14, 54), (17, 32), (20, 0)], [(0, 10), (6, 69), (9, 42), (13, 26), (21, 0)],
   [(2, 58), (5, 34), (8, 17), (12, 50), (18, 61), (22, 0)], [(1, 29), (3, 52), (10, 39), (15, 23), (19, 12), (23, 0)]]

/-- The base graph of a code-rate code, and K_b (R309, R311). -/
def baseGraph (cr : Nat) : List BaseRow := if cr = 0 then graphThird else if cr = 1 then graphHalf else graphTwoThirds
def infoColumns (cr : Nat) : Nat := if cr = 0 then 8 else if cr = 1 then 12 else 16

/-- A block column of Z bits. -/
abbrev Block := List Bool

def xorBlock (a b : Block) : Block := List.zipWith (· != ·) a b

/-- shift(x, s) of R312. -/
def shiftBlock (z : Nat) (x : Block) (v : Nat) : Block :=
  let s := (if z = 72 then v else v % 24) % z
  x.drop s ++ x.take s

/-- The exclusive OR over a row's entries in selected columns (R312). -/
def rowSum (z : Nat) (cols : List Block) (row : BaseRow) (sel : Nat → Bool) : Block :=
  row.foldl (fun acc e => if sel e.1 then xorBlock acc (shiftBlock z (cols.getD e.1 []) e.2) else acc)
    (List.replicate z false)

/-- Parity columns of the core, p[0] to p[3] (R312). -/
def coreParity (z kb : Nat) (g : List BaseRow) (u : List Block) : List Block :=
  let lam (r : Nat) : Block := rowSum z u (g.getD r []) (fun c => decide (c < kb))
  let p0 := xorBlock (xorBlock (lam 0) (lam 1)) (xorBlock (lam 2) (lam 3))
  let p1 := xorBlock (lam 0) (shiftBlock z p0 1)
  let p2 := xorBlock (lam 1) p1
  let p3 := xorBlock (xorBlock (lam 2) p0) p2
  [p0, p1, p2, p3]

/-- All block columns of a codeword (R312). -/
def encodeBlocks (z cr : Nat) (u : List Block) : List Block :=
  let kb := infoColumns cr
  let g := baseGraph cr
  let core := u ++ coreParity z kb g u
  (List.range (g.length - 4)).foldl (fun x i => x ++ [rowSum z x (g.getD (i + 4) []) (fun c => c != kb + 4 + i)]) core

/-- Cuts bits into blocks of Z. -/
def toBlocks (z : Nat) : Nat → List Bool → List Block
  | 0, _ => []
  | n + 1, bs => bs.take z :: toBlocks z n (bs.drop z)

/-- The sent bits of a codeword whose information is `info`, filler making up K (R309, R315). -/
def codewordBits (z cr : Nat) (info : List Bool) : List Bool :=
  let kb := infoColumns cr
  let u := toBlocks z kb (info ++ List.replicate (kb * z - info.length) false)
  info ++ ((encodeBlocks z cr u).drop kb).flatten

/-- The 144 sent bits of the header block (R313). -/
def headerBits (h : List Bool) : List Bool :=
  let u := toBlocks 24 8 (h ++ List.replicate (192 - h.length) false)
  h ++ (coreParity 24 8 graphThird u).flatten

/-! ### Symbols (R303, R305, R308, R315, R316) -/

/-- The value of bits, first bit most significant. -/
def bitsValue (bs : List Bool) : Nat := bs.foldl (fun v b => 2 * v + b.toNat) 0

/-- The symbol value of SF bits (R305). -/
def grayValue (bs : List Bool) : Nat :=
  let v := bitsValue bs
  v ^^^ (v / 2)

/-- The symbols of one block's sent bits (R315). -/
def interleave (sf : Nat) (bs : List Bool) : List Nat :=
  let n := (bs.length + sf - 1) / sf
  (List.range n).map (fun j => grayValue ((List.range sf).map (fun k => bs.getD (k * n + (j + k) % n) false)))

/-- One step of the PN9 generator of SUN-FSK data whitening, x^9 + x^5 + 1: the next state and the output bit. -/
def pn9Step (st : BitVec 9) : BitVec 9 × Bool :=
  let b := st.getLsbD 0 != st.getLsbD 5
  ((st >>> 1) ||| (if b then 0x100 else 0), b)

/-- The PN9 sequence from the all-ones seed. -/
def pn9 : Nat → BitVec 9 → List Bool
  | 0, _ => []
  | n + 1, st => (pn9Step st).2 :: pn9 n (pn9Step st).1

/-- Bits of an octet, least significant first. -/
def bitsLsb (o : Octet) : List Bool := (List.range 8).map (fun i => o.getLsbD i)

/-- Octets of bits, least significant bit first. -/
def octetsOfBits (bs : List Bool) : Octets :=
  (List.range (bs.length / 8)).map (fun i => (List.range 8).foldl (fun (o : Octet) k =>
    if bs.getD (8 * i + k) false then o ||| (1#8 <<< k) else o) 0)

/-- Octets with data whitening put on or taken off: the exclusive OR with PN9, restarted at the first PSDU octet, of which `before`
octets have passed (R308; IEEE 802.15.4-2020, log 53). -/
def whiten (before : Nat) (os : Octets) : Octets :=
  let bs := os.flatMap bitsLsb
  octetsOfBits (List.zipWith (· != ·) bs ((pn9 (8 * before + bs.length) 0x1FF).drop (8 * before)))

/-- A PSDU as a mode modulates it: whitened for SUN-FSK under WHITEN (R299). -/
def psduOnAir (m : Word) (psdu : Octets) : Octets := if modePhy m = 1 ∧ modeWhiten m then whiten 0 psdu else psdu

/-- The whitened payload bits: PSDU, then its CRC-32 (R308). -/
def payloadBits (psdu : Octets) : List Bool :=
  (whiten 0 (psdu ++ leOctets 4 (crc32 psdu).toNat)).flatMap bitsLsb

/-- The lifting and the number of codewords of B payload bits (R309). -/
def lifting (b cr : Nat) : Nat := if b ≤ 72 * infoColumns cr then 24 else 72
def codewordCount (b cr : Nat) : Nat :=
  let k := infoColumns cr * lifting b cr
  (b + k - 1) / k

/-- Cuts payload bits into the information of each codeword. -/
def codewords (k : Nat) : Nat → List Bool → List (List Bool)
  | 0, _ => []
  | n + 1, bs => bs.take k :: codewords k n (bs.drop k)

/-- Pilots after payload symbols 16, 32, … (R316). -/
def withPilots (syms : List Nat) : List Nat :=
  if syms.length ≤ 48 then syms
  else (List.range syms.length).flatMap (fun i =>
    let m := syms.getD i 0
    if (i + 1) % 16 = 0 ∧ i + 1 < syms.length then [m, 0] else [m])

/-- Phase of chip `n` of a chirp at spreading factor `sf`, in units of π ÷ 2^SF and modulo 2π: k × k − k × M of R304, and its negative
for a down-chirp, the conjugate of the up-chirp of value 0. -/
def chipPhase (sf : Nat) (c : Chirp) (n : Nat) : Nat :=
  let m := 2 ^ sf
  let up (v : Nat) : Nat :=
    let k := (n + v) % m
    (k * k + (2 * m - k) * m) % (2 * m)
  match c with
  | .up v => up v
  | .down => (2 * m - up 0) % (2 * m)

/-- The LRC header of a frame (R306). -/
def lrcHeader (length cr sync : Nat) : BitVec 48 :=
  let low := length % 4096 + 4096 * cr
  BitVec.ofNat 48 (low + 2 ^ 32 * (crc16 (leOctets 4 low ++ [BitVec.ofNat 8 sync])).toNat)

/-- The chirps of an LRC frame (R303). -/
def lrcChirps (m : Word) (psdu : Octets) : List Chirp :=
  let rate := modeRate m
  let sf := lrcSf rate
  let cr := lrcCr rate
  let sync := modeSync m
  let ma := 2 ^ sf * (2 * sync + 1) / 512
  let bits := payloadBits psdu
  let z := lifting bits.length cr
  let header := interleave sf (headerBits ((List.range 48).map (fun i => (lrcHeader psdu.length cr sync).getLsbD i)))
  let cws := codewords (infoColumns cr * z) (codewordCount bits.length cr) bits
  let payload := withPilots (cws.flatMap (fun c => interleave sf (codewordBits z cr c)))
  List.replicate (modePreamble m) (.up 0) ++ [.down, .down] ++ [.up ma, .up ((ma + 2 ^ (sf - 1)) % 2 ^ sf)] ++
    (header ++ payload).map Chirp.up

/-! ### Airtime (R317, R325) -/

/-- Sent bits of codeword i of C over B payload bits (R309, R315). -/
def sentBits (b cr i : Nat) : Nat :=
  let k := infoColumns cr * lifting b cr
  let info := if i + 1 < codewordCount b cr then k else b - i * k
  info + (24 - infoColumns cr) * lifting b cr

/-- Symbols of an LRC frame of L octets (R317). -/
def lrcSymbols (pre sf cr length : Nat) : Nat :=
  let b := 8 * (length + 4)
  let pay := (List.range (codewordCount b cr)).foldl (fun n i => n + (sentBits b cr i + sf - 1) / sf) 0
  pre + 4 + (144 + sf - 1) / sf + pay + (if 48 < pay then (pay - 1) / 16 else 0)

/-- Coded bits of a SUN-FSK PHR and PSDU with FEC: three tail bits, padding to whole blocks of 16 bits, code rate 1/2
(IEEE 802.15.4-2020; R320, R325; log 53). -/
def fskCodedBits (length : Nat) : Nat := 2 * (16 * ((16 + 8 * length + 3 + 15) / 16))

/-- Data bits of a SUN-OFDM symbol by option and MCS, without the MCS that R323 excludes (IEEE 802.15.4-2020; log 53). -/
def ofdmBits (option mcs : Nat) : Nat :=
  (([[12, 24, 48, 96], [6, 12, 24, 48, 72, 96], [0, 6, 12, 24, 36, 48, 72], [0, 0, 6, 12, 18, 24, 36]] : List (List Nat)).getD (option - 1)
    []).getD mcs 0

/-- Sixths of a µs from the start of a SUN-OFDM PPDU to the end of its LTF: STF and LTF are six symbols of 120 µs (R327; log 53). -/
def ofdmReference6 : Nat := 6 * 120 * 6

/-- Duration of a SUN-OFDM PPDU in sixths of a µs: STF and LTF, the PHR's 36 bits at the option's lowest MCS, and the PSDU with six
tail bits (R325; log 53). -/
def ofdmDuration6 (option mcs length : Nat) (interleaved : Bool) : Nat :=
  let phr := if option = 1 then 3 else 6
  let bits := ofdmBits option mcs
  let payload := if interleaved then Config.ofdmInterleavedSymbols option mcs length else (8 * length + 6 + bits - 1) / bits
  ofdmReference6 + (phr + payload) * 120 * 6

/-- PPDU duration in sixths of a µs of a PSDU of `length` octets in a mode, without mode switch (R317, R325). -/
def ppdu6 (m : Word) (length : Nat) : Nat :=
  let rate := modeRate m
  if modePhy m = 0 then lrcSymbols (modePreamble m) (lrcSf rate) (lrcCr rate) length * 2 ^ lrcSf rate * 6000 / lrcBw rate
  else if modePhy m = 1 then
    let body := if modeFec m = 0 then 16 + 8 * length
      else fskCodedBits length
    (8 * modePreamble m + 16 + body) * fskBit6 rate
  else if modePhy m = 2 then ofdmDuration6 (rate / 16 + 1) (rate % 16) length (modeInterleave m)
  else (6 + length) * 32 * 6

/-- Duration in sixths of a µs of the mode-switch PPDU: preamble, SFD and PHR (R322). -/
def switch6 (m : Word) : Nat := (8 * modePreamble m + 32) * fskBit6 (modeRate m)

/-- Airtime in sixths of a µs: the PPDUs, the gap of a mode switch, and both ramps (R317, R322, R325). -/
def airtime6 (s : State) (band mode length ramp : Nat) : Nat :=
  let m := txMode s band mode
  (if modeSwitch m then switch6 m + 600 + ppdu6 (txMode s band (modeTarget m)) length else ppdu6 m length) + 12 * ramp

/-- Sixths of a µs in whole µs, rounded up. -/
def us6 (n : Nat) : Nat := (n + 5) / 6
/-- Sixths of a µs in TIME cycles, rounded up. -/
def cycles6 (n : Nat) : Nat := (n * 4096 + 59) / 60
/-- Sixths of a µs in units of 1/4,096 µs, rounded up. -/
def ticks6 (n : Nat) : Nat := (n * 4096 + 5) / 6

/-! ### Occupied bandwidth (R329) -/

/-- Occupied bandwidth of one mode record, kHz. -/
def occupied1 (m : Word) : Nat :=
  let rate := modeRate m
  if modePhy m = 0 then (if rate / 64 = 0 then 140 else if rate / 64 = 1 then 275 else 540)
  else if modePhy m = 1 then
    (if rate = 0 then 100 else if rate = 1 then 200 else if rate = 2 then 225 else if rate = 3 then 300
     else if rate = 4 then 200 else if rate = 5 then 450 else 400)
  else if modePhy m = 2 then
    (if rate / 16 = 0 then 1200 else if rate / 16 = 1 then 800 else if rate / 16 = 2 then 400 else 200)
  else 2000

/-- Occupied bandwidth of a transmission in a mode, kHz: the wider of the two of a mode switch (R322, R329). -/
def occupied (s : State) (band mode : Nat) : Nat :=
  let m := txMode s band mode
  if modeSwitch m then max (occupied1 m) (occupied1 (txMode s band (modeTarget m))) else occupied1 m

/-! ### Table image check of the transmit modes (R300) -/

/-- Whether a transmit mode record keeps the rules of R300. -/
def txModeOk (s : State) (band : Nat) (m : Word) : Bool :=
  let phy := modePhy m
  let pre := modePreamble m
  let preOk := if phy = 0 then decide (6 ≤ pre ∧ pre ≤ 64) else if phy = 1 then decide (4 ≤ pre) else pre == 0
  let filter := fld m 38 35
  let filterOk := filter == 0 || (tblGet s.image.filters (15 * band + filter - 1)).isSome
  let target := txMode s band (modeTarget m)
  let switchOk := !modeSwitch m || (phy == 1 && modePhy target == 1 && !modeSwitch target)
  rateSupported band phy (modeRate m) && preOk && modeFec m != 3 && (phy != 2 || modeCh0 m) && filterOk && switchOk &&
    fld m 71 48 == 0

end Sys2Proof.Machine
end

