-- ==== Sys2Proof/Machine/Items.lean ====
section
/-!
DEFINITION. What chains, MAC engines and pipelines share about transmit items: the ASN and the cell table, the
transmit pool, IEEE 802.15.4 frames and their security, and the end of an item (chapters 11 and 13).
-/

namespace Sys2Proof.Machine

/-! ### Statuses (R257, R369, R445) -/

def stChainDisabled : Status := 0x100
def stTxLate : Status := 0x101
def stTxAbortMismatch : Status := 0x102
def stRegRefused : Status := 0x103
def stRegCut : Status := 0x104
def stTxTimeout : Status := 0x105
def stTxTooLong : Status := 0x106
def stRefHoldover : Status := 0x107
def stSynthUnlock : Status := 0x108
def stCalFailed : Status := 0x109
def stTxHalted : Status := 0x10A
def stTuneNoSlot : Status := 0x10B
def stNodeDesync : Status := 0x200
def stNoAck : Status := 0x201
def stExpired : Status := 0x202
def stCancelled : Status := 0x203
def stTxLength : Status := 0x204
def stAsnUnset : Status := 0x205
def stNoCell : Status := 0x206
def stShadowPruned : Status := 0x208
def stNotFound : Status := 0x209
def stFlowDisabled : Status := 0x400
def stFlowRange : Status := 0x401
def stTxPoolEmpty : Status := 0x402
def stMeterDrop : Status := 0x403
def stFlowQueueFull : Status := 0x404

/-! ### The ASN (R338, R339) -/

/-- The ASN epoch as a 72-bit time. -/
def asnEpoch (s : State) : Nat := timeSec (par s 0x2C01)

/-- The ASN of a time, while it is set. -/
def asnOf (s : State) (t : Nat) : Option Nat :=
  if s.tb.set && decide (asnEpoch s ≤ t) then some ((t - asnEpoch s) * 1000000 / (par s 0x2C00 * 2 ^ 32) % 2 ^ 40) else none

/-- The ASN now. -/
def asnNow (s : State) : Option Nat := asnOf s (time s).toNat

/-- The time at which a base slot begins. -/
def slotStart (s : State) (a : Nat) : Nat := asnEpoch s + (a * par s 0x2C00 * 2 ^ 32 + 999999) / 1000000

/-- The instant, in TIME cycles, at which the timebase reaches a time. -/
def cyclesAt (s : State) (t : Nat) : Nat :=
  let d := t - (time s).toNat
  let inc := (increment s.tb.rate).toNat
  if d = 0 ∨ inc = 0 then s.now else s.now + (d * 2 ^ 48 + inc - 1) / inc

/-! ### Slotframes and cells (R341 to R349) -/

/-- A cell of the cell table with its number (R343). -/
structure Cell where
  idx : Nat
  w0 : Word
  w1 : Word

def Cell.use (c : Cell) : Nat := fld c.w0 2 0
def Cell.sf (c : Cell) : Nat := fld c.w0 6 3
def Cell.slot (c : Cell) : Nat := fld c.w0 22 7
def Cell.choff (c : Cell) : Nat := fld c.w0 30 23
def Cell.band (c : Cell) : Nat := fld c.w0 32 31
def Cell.mode (c : Cell) : Nat := fld c.w0 37 33
def Cell.domain (c : Cell) : Nat := fld c.w1 7 0

/-- Whether a cell is one: a use of 1 to 6 and a band (R343). -/
def Cell.full (c : Cell) : Bool := decide (1 ≤ c.use ∧ c.use ≤ 6) && c.band != 3

/-- The words of a cell that are in effect (R344). -/
def cellAt (s : State) (i : Nat) : Cell :=
  match tblGet s.mac.oldCells i with
  | some (a, b) => ⟨i, a, b⟩
  | none => ⟨i, peek s (0x20000 + 2 * i), peek s (0x20001 + 2 * i)⟩

/-- Every cell in effect, ascending. -/
def cells (s : State) : List Cell :=
  let written := (s.mem.filter (fun e => decide (0x20000 ≤ e.1 ∧ e.1 < 0x40000) && e.1 % 2 == 0)).map (fun e => (e.1 - 0x20000) / 2)
  let old := (s.mac.oldCells.map (·.1)).filter (fun i => !written.contains i)
  ((written ++ old).mergeSort.map (cellAt s)).filter Cell.full

def sfMult (s : State) (f : Nat) : Nat := par s (0x2040 + f)
def sfLen (s : State) (f : Nat) : Nat := par s (0x2100 + f)

/-- The slot of a slotframe that begins at base slot `a` (R341). -/
def sfSlot (s : State) (f a : Nat) : Option Nat :=
  let m := sfMult s f
  if m ≠ 0 ∧ a % m = 0 ∧ sfLen s f ≠ 0 then some (a / m % sfLen s f) else none

/-- Whether a base slot is a start of a slotframe. -/
def sfStart (s : State) (f a : Nat) : Bool := sfSlot s f a == some 0

def sfRuns (s : State) (f : Nat) : Bool := tblAt s.mac.running f false

/-- Whether a cell falls at a base slot. -/
def cellFalls (s : State) (c : Cell) (a : Nat) : Bool := sfRuns s c.sf && sfSlot s c.sf a == some c.slot

/-- Centre frequency of a channel offset at a base slot, in a slotframe and band; none in an absent cell (R347). -/
def cellFreq (s : State) (sf band choff a : Nat) : Option Nat :=
  match tblGet s.image.hops (8 * band + par s (0x2080 + sf)) with
  | some hop => if hop.isEmpty then none else (hop[(a + choff) % hop.length]?).bind (fun ch => tblGet s.image.plan (256 * band + ch))
  | none => none

/-- h_tx and h_rx of a node (R348). -/
def autoHash (s : State) (e : Eui) (rx : Bool) : Nat :=
  let x := (e.toNat / 2 ^ 32) ^^^ (e.toNat % 2 ^ 32)
  (x ^^^ par s (if rx then 0x2404 else 0x2403)) * 0x9E3779B1 % 2 ^ 32

/-- Slot and channel offset of an autonomous cell (R348). -/
def autoCell (s : State) (h : Nat) : Nat × Nat :=
  let f := par s 0x2401
  let l := sfLen s (par s 0x2400)
  (f + h * (l - f) / 2 ^ 32, h % 65536 * par s 0x2402 / 65536)

/-- The channel offset of a node's autonomous receive cell, where it falls at base slot `a`. -/
def autoFalls (s : State) (e : Eui) (a : Nat) : Option Nat :=
  let f := par s 0x2400
  if f < 16 ∧ sfRuns s f then
    let c := autoCell s (autoHash s e true)
    if sfSlot s f a = some c.1 ∧ par s 0x2401 ≤ c.1 then some c.2 else none
  else none

/-! ### The transmit pool (R434) -/

/-- Blocks of 32 words that a frame of n octets takes. -/
def blocksFor (n : Nat) : Nat := ((n + 8) / 9 + 4 + 31) / 32

def usedBlocks (s : State) : List Nat := s.mac.items.flatMap (·.blocks)
def poolFree (s : State) : Nat := 7168 - (usedBlocks s).length

/-- The lowest-numbered free blocks (DESIGN CHOICE, log 37). -/
def takeBlocks (s : State) (n : Nat) : List Nat :=
  let used := usedBlocks s
  ((List.range 7168).filter (fun b => !used.contains b)).take n

/-- Address of word `i` of a frame's blocks. -/
def blockWord (blocks : List Nat) (i : Nat) : Nat := 0xC8000 + 32 * blocks.getD (i / 32) 0 + i % 32

/-- Writes a frame into its blocks: a header of 4 words whose contents the spec leaves open, then the data (R434). -/
def writeFrame (s : State) (blocks : List Nat) (octets : Octets) : State :=
  let s := (List.range 4).foldl (fun s i =>
    let r := drawFree s
    writeWord r.1 (blockWord blocks i) r.2) s
  let ws := packWords 256 octets
  (List.range ws.length).foldl (fun s i => writeWord s (blockWord blocks (4 + i)) (ws.getD i 0)) s

/-- The transmit ME's read of a whole frame from the pool (R171 code 4, R229). -/
def readFrame (s : State) (i : Item) : State × Option Octets :=
  let r := (List.range ((i.length + 8) / 9)).foldl (fun (r : State × Option (List Word)) k =>
    match readWord r.1 (blockWord i.blocks (4 + k)) 4, r.2 with
    | (s, some w), some ws => (s, some (ws ++ [w]))
    | (s, _), _ => (s, none)) (s, some [])
  (r.1, r.2.map (fun ws => (unpackWords ws).take i.length))

/-! ### IEEE 802.15.4 frames (R350 to R352, R357 to R358) -/

/-- Frame control fields of a frame of version 0b10. -/
structure Fcf where
  type : Nat
  secured : Bool
  ackReq : Bool
  panComp : Bool
  seqSup : Bool
  ies : Bool
  dstMode : Nat
  version : Nat
  srcMode : Nat

def fcfOf (v : Nat) : Fcf :=
  { type := v % 8, secured := v.testBit 3, ackReq := v.testBit 5, panComp := v.testBit 6, seqSup := v.testBit 8,
    ies := v.testBit 9, dstMode := v / 1024 % 4, version := v / 4096 % 4, srcMode := v / 16384 % 4 }

/-- Octets of an address mode. -/
def addrLen (m : Nat) : Nat := if m = 2 then 2 else if m = 3 then 8 else 0

/-- Whether the destination and the source PAN identifier are present in a frame of version 0b10 (IEEE 802.15.4-2020). -/
def panFields (f : Fcf) : Bool × Bool :=
  let d := decide (2 ≤ f.dstMode)
  let r := decide (2 ≤ f.srcMode)
  if d && r && f.dstMode == 3 && f.srcMode == 3 then (!f.panComp, false)
  else if d && r then (true, !f.panComp)
  else if d then (!f.panComp, false)
  else if r then (false, !f.panComp)
  else (f.panComp, false)

/-- Octets of a MAC header through its addressing fields. -/
def addressingLen (f : Fcf) : Nat :=
  let p := panFields f
  2 + (if f.seqSup then 0 else 1) + 2 * p.1.toNat + addrLen f.dstMode + 2 * p.2.toNat + addrLen f.srcMode

/-- A number of `n` octets at `o`, least significant octet first. -/
def leField (os : Octets) (o n : Nat) : Nat := natOfLe ((os.drop o).take n)

/-- A parsed MAC header. -/
structure MacHdr where
  fcf : Fcf
  seq : BitVec 8
  dst : Nat
  src : Nat
  /-- octets through the addressing fields -/
  len : Nat

/-- Parses a MAC header through its addressing fields; none where it runs past the frame (R351). -/
def parseHdr (os : Octets) : Option MacHdr :=
  let f := fcfOf (leField os 0 2)
  let n := addressingLen f
  if os.length < 2 ∨ os.length < n ∨ f.version ≠ 2 ∨ f.dstMode = 1 ∨ f.srcMode = 1 ∨ 3 < f.type then none
  else
    let p := panFields f
    let o1 := 2 + (if f.seqSup then 0 else 1)
    let o2 := o1 + 2 * p.1.toNat
    let o3 := o2 + addrLen f.dstMode + 2 * p.2.toNat
    some { fcf := f, seq := if f.seqSup then 0 else os.getD 2 0, dst := leField os o2 (addrLen f.dstMode),
           src := leField os o3 (addrLen f.srcMode), len := n }

/-- Header IEs from an offset: element ID and content of each, and the octets they take through the termination IE;
none where they run past the frame. -/
def headerIes : Nat → Octets → Option (List (Nat × Octets) × Nat)
  | 0, _ => none
  | fuel + 1, os =>
    if os.isEmpty then some ([], 0)
    else if os.length < 2 then none
    else
      let h := leField os 0 2
      let n := h % 128
      let id := h / 128 % 256
      if os.length < 2 + n then none
      else if id = 0x7E ∨ id = 0x7F then some ([], 2 + n)
      else (headerIes fuel (os.drop (2 + n))).map (fun r => ((id, (os.drop 2).take n) :: r.1, r.2 + 2 + n))

/-- A header IE of an element ID. -/
def headerIe (id : Nat) (content : Octets) : Octets := leOctets 2 (content.length + 128 * id) ++ content

/-- The Origin IE's content (R352). -/
def originIe (domain : BitVec 8) (e : Eui) (asn : Nat) : Octets := [domain] ++ euiOctets e ++ beOctets 5 asn

/-- The auxiliary security header of a level (R352): key identifier mode 0, frame counter suppression and ASN in nonce. -/
def auxHeader (level : Nat) : Octet := BitVec.ofNat 8 (level % 8 + 0x60)

/-- Octets of the MIC of a level. -/
def micLen (level : Nat) : Nat := if level % 4 = 0 then 0 else 2 ^ (level % 4 + 1)

/-- A format descriptor of the table image (R350). -/
def descriptor (s : State) (k : Nat) : Word × Word := tblAt s.image.descriptors k (0, 0)

/-- The descriptor that governs a frame control field (R350). -/
def descriptorOf (s : State) (fcf : Nat) : Option (Word × Word) :=
  (List.range 64).findSome? (fun k =>
    let d := descriptor s k
    let mask := fld d.1 16 1
    if d.1.getLsbD 0 ∧ (fcf &&& mask) = (fld d.1 32 17 &&& mask) then some d else none)

/-- ORIGIN_IE, PAIR_IE and GACK_IE for a frame the device sends: those of the descriptor that governs its frame
control field (DEDUCED, log 38). -/
def ieIds (s : State) (fcf : Nat) : Nat × Nat × Nat :=
  match descriptorOf s fcf with
  | some d => (fld d.2 7 0, fld d.2 15 8, fld d.2 19 16)
  | none => (0, 0, 0)

/-- The CCM* nonce (R352). -/
def nonceOf (e : Eui) (asn : Nat) : Octets := euiOctets e ++ beOctets 5 asn

/-- Secures a frame (R352): header through addressing fields, header IEs after the Origin IE through the termination
IE, and the m_data. -/
def secureFrame (key : Octets) (level originId : Nat) (domain : BitVec 8) (origin : Eui) (asn : Nat)
    (hdr ies mData : Octets) : Octets :=
  let aData := [auxHeader level] ++ headerIe originId (originIe domain origin asn) ++ ies
  hdr ++ aData ++ ccmSeal key (nonceOf origin asn) aData mData level

/-- Appends the FCS that a mode's PSDU carries: the 16-bit CRC of IEEE 802.15.4, or its 32-bit CRC. -/
def fcs16 (os : Octets) : BitVec 16 :=
  os.foldl (fun c o => (List.range 8).foldl (fun c i =>
    let x := c.getLsbD 0 != o.getLsbD i
    if x then (c >>> 1) ^^^ 0x8408 else c >>> 1) c) 0

def withFcs (m : Word) (os : Octets) : Octets :=
  match fcsOctets m with
  | 0 => os
  | 4 => os ++ leOctets 4 (crc32 os).toNat
  | _ => os ++ leOctets 2 (fcs16 os).toNat

/-- Pair mode (R555). -/
def paired (s : State) : Bool := s.pairRole != 0
def standby (s : State) : Bool := s.pairRole == 2

/-! ### Items -/

def findItem (s : State) (id : Nat) : Option Item := s.mac.items.find? (fun i => i.id == id)

def setItems (s : State) (f : List Item → List Item) : State := { s with mac := { s.mac with items := f s.mac.items } }

/-- Changes one item. -/
def setItem (s : State) (i : Item) : State := setItems s (fun is => is.map (fun x => if x.id = i.id then i else x))

/-- Adds an item under the next number. -/
def addItem (s : State) (i : Item) : State :=
  let i := { i with id := s.mac.itemId }
  { s with mac := { s.mac with items := s.mac.items ++ [i], itemId := s.mac.itemId + 1 } }

/-- A flow's default record: flow 1 is enabled as R426 gives it. -/
def flowDefault (f : Nat) : Flow :=
  if f = 1 then { w1 := at' 0 1 ||| at' 12 1 ||| at' 13 1 ||| at' 21 1 ||| at' 22 3 ||| at' 25 30000 ||| at' 41 4095 } else {}

def flow (s : State) (f : Nat) : Flow := tblAt s.shape.flows f (flowDefault f)
def setFlow (s : State) (f : Nat) (x : Flow) : State := { s with shape := { s.shape with flows := tblPut s.shape.flows f x } }

/-- Adds one to a 64-bit saturating count. -/
def sat64 (n : Nat) : Nat := min (2 ^ 64 - 1) (n + 1)

/-- The three result words of an item (R367). -/
def itemWords (i : Item) (ackWord : Word) : List Word :=
  [at' 0 (match i.lastChain with | some c => c.val | none => 15) ||| at' 4 (min 15 i.attempts) ||| at' 8 i.lastAsn, i.txTime, ackWord]

/-- A FRAME_INJECT's completion words (R418). -/
def injectWords (frames reason flow : Nat) (hop : Word) : List Word := [at' 0 frames ||| at' 6 reason ||| at' 14 flow, hop]

/-- One frame of an injected packet has ended; the last one completes the command (R367). -/
def injectEnd (s : State) (hc : Hc) (job : Nat) (ok : Bool) (status : Status) (air : Bool) : State :=
  match s.injections.find? (fun j => j.hc == hc && j.job == job) with
  | none => s
  | some j =>
    let j := if ok ∨ j.failed then j else { j with failed := true, status := status, air := air }
    let left := s.mac.items.any (fun i => match i.src with | .flow _ _ (some (h, k)) => h == hc && k == job | _ => false)
    let rest := s.injections.filter (fun x => !(x.hc == hc && x.job == job))
    if left then { s with injections := rest ++ [j] }
    else finishJob { s with injections := rest } hc job j.status (injectWords j.frames 0 j.flow j.firstHop) (j.failed && j.air)

/-- An item reaches a final state (R366, R367, R444): its blocks return to the pool. AIR is for an item that failed (R117). -/
def endItem (s : State) (i : Item) (status : Status) (ackWord : Word) : State :=
  let s := setItems s (fun is => is.filter (fun x => x.id != i.id))
  let s := if status = stOk ∧ i.shadow then bump s 0xE86 else s
  match i.src with
  | .host hc job _ => finishJob s hc job status (itemWords i ackWord) (i.aired && status != stOk)
  | .flow f _ inject =>
    let x := flow s f
    let x := if status = stOk then { x with sent := sat64 x.sent }
      else if status = stExpired ∨ status = stNodeDesync then { x with expired := sat64 x.expired }
      else { x with failed := sat64 x.failed }
    let s := setFlow s f x
    (match inject with
     | some (hc, job) => injectEnd s hc job (status == stOk) status i.aired
     | none => s)
  | _ => s

/-! ### Weighted fair queueing tags (R436, R438) -/

def vNow (s : State) (b : Nat) : Nat := tblAt s.shape.v b 0

/-- WEIGHT of a flow; 0 is taken as 1. -/
def flowWeight (x : Flow) : Nat := max 1 (fld x.w1 20 13)

/-- Tags a frame of a flow as newly enqueued on a band (R436). -/
def tagItem (s : State) (f : Nat) (i : Item) : State × Item :=
  let x := flow s f
  let start := max (tblAt x.finish i.band.val 0) (vNow s i.band.val)
  let fin := start + i.cost * 256 / flowWeight x
  (setFlow s f { x with finish := tblPut x.finish i.band.val fin }, { i with tag := fin })

/-- An item returns to QUEUED for a further attempt, at the front of its destination's order (R438). -/
def requeue (s : State) (i : Item) : State :=
  let i := { i with st := .queued, retries := i.retries - 1, frame := [] }
  match i.src with
  | .flow f _ _ =>
    let r := tagItem s f i
    setItems r.1 (fun is => r.2 :: is.filter (fun x => x.id != i.id))
  | _ => setItem s i

end Sys2Proof.Machine
end

