-- ==== Sys2Proof/Machine/Frames.lean ====
section
/-!
DEFINITION. What a transmit ME does to an item's frame at its commit point: the octets, the fields filled at
transmission, the key and the security (R352, R357, R358, R364, R365, R373, R461, R466, R503).
-/

namespace Sys2Proof.Machine

/-- A frame before security: header through the addressing fields, header IEs after the Origin IE through the
termination IE, and the rest. -/
structure Parts where
  hdr : Octets
  ies : Octets
  body : Octets

/-- Sets the security-enabled bit of a MAC header. -/
def securedHdr (hdr : Octets) : Octets :=
  match hdr with
  | o :: os => (o ||| 0x08) :: os
  | [] => []

/-- Cuts data with a MAC header of `hdrLen` octets at its front. -/
def splitFrame (data : Octets) (hdrLen : Nat) : Parts :=
  let n := match parseHdr data with
    | some h => min h.len hdrLen
    | none => hdrLen
  ⟨data.take n, (data.take hdrLen).drop n, data.drop hdrLen⟩

/-- The Pair IE (R373). -/
def pairIe (s : State) (fcf : Nat) (i : Item) : Octets :=
  headerIe (ieIds s fcf).2.1 (leOctets 4 i.pairTag.toNat ++ [i.pairIndex] ++ euiOctets i.final)

/-- The 72-bit time of a TIME cycle to come. -/
def timeAt (s : State) (cycle : Nat) : Nat :=
  ((s.tb.value.toNat + (cycle - s.now) * (increment s.tb.rate).toNat) / 2 ^ 48) % 2 ^ 72

/-- Sixths of a µs from the transmit instant to the reference point of a mode (R327). -/
def reference6 (s : State) (band mode : Nat) : Nat :=
  let m := txMode s band mode
  let p := packetMode s band mode
  let lead := if modeSwitch m then switch6 m + 600 else 0
  lead + (if modePhy p = 0 then (modePreamble p + 2) * 2 ^ lrcSf (modeRate p) * 6000 / lrcBw (modeRate p)
    else if modePhy p = 1 then (8 * modePreamble p + 16) * fskBit6 (modeRate p)
    else if modePhy p = 2 then ofdmReference6
    else 5 * 32 * 6)

/-- The Time IE of a beacon whose transmission starts at a cycle (R503). -/
def timeIe (s : State) (i : Item) (startAt : Nat) : Octets :=
  let id := par s 0x6005
  if 256 ≤ id then []
  else
    let t := timeAt s (startAt + cycles6 (reference6 s i.band.val i.mode))
    let src := par s 0x6000
    let servo := if src = 0 then 0 else s.tb.servo
    headerIe id (beOctets 9 t ++ [BitVec.ofNat 8 (servo + (if src ≠ 0 ∧ s.tb.servo = 2 then 4 else 0))])

/-- Offset of the ASN field of the TSCH Synchronization IE within nested IEs of an MLME IE. -/
def findSync : Nat → Nat → Octets → Option Nat
  | 0, _, _ => none
  | fuel + 1, o, os =>
    if os.length < 2 then none
    else
      let h := leField os 0 2
      let n := if h / 32768 = 0 then h % 256 else h % 2048
      if h / 32768 = 0 ∧ h / 256 % 128 = 0x1A then some (o + 2) else findSync fuel (o + 2 + n) (os.drop (2 + n))

/-- Offset of the ASN field of the TSCH Synchronization IE within payload IEs. -/
def findAsn : Nat → Nat → Octets → Option Nat
  | 0, _, _ => none
  | fuel + 1, o, os =>
    if os.length < 2 then none
    else
      let h := leField os 0 2
      let n := h % 2048
      let inner := if h / 2048 % 16 = 1 then findSync 64 (o + 2) ((os.drop 2).take n) else none
      match inner with
      | some k => some k
      | none => findAsn fuel (o + 2 + n) (os.drop (2 + n))

/-- Fills the ASN of the TSCH Synchronization IE, least significant octet first (R364). -/
def fillAsn (body : Octets) (asn : Nat) : Octets :=
  match findAsn 64 0 body with
  | some o => body.take o ++ leOctets 5 asn ++ body.drop (o + 5)
  | none => body

/-- A beacon before security (R364). -/
def beaconParts (s : State) (i : Item) (startAt : Nat) : Parts :=
  let t := tblAt s.image.beacons i.band.val []
  let n := match parseHdr t with | some h => h.len | none => t.length
  let used := match headerIes 64 (t.drop n) with | some r => r.2 | none => 0
  ⟨t.take n, timeIe s i startAt ++ (t.drop n).take used, fillAsn (t.drop (n + used)) i.asn⟩

/-- The entries of the group acknowledgement that an item carries. -/
def groupEntries (s : State) (i : Item) : List GroupEntry :=
  s.mac.groups.filter (fun g => g.band == i.band && g.domain == i.domain && g.asn == i.asn)

/-- A group acknowledgement before security (R358). -/
def groupParts (s : State) (i : Item) : Parts :=
  let es := groupEntries s i
  let fcf := 0x2A09
  let hdr := leOctets 2 fcf ++ [s.mac.seqNo] ++ leOctets 2 Config.panId.toNat ++ [0xFF, 0xFF]
  let entry (g : GroupEntry) : Octets := leOctets 4 g.tag.toNat ++ [g.seq] ++ leOctets 1 (g.asn - g.rxAsn) ++ leOctets 2 g.tcorr.toNat
  let content := [1, BitVec.ofNat 8 es.length] ++ es.flatMap entry
  ⟨hdr, headerIe 0x7E [], leOctets 2 (content.length + 2048 * (ieIds s fcf).2.2 + 32768) ++ content⟩

/-- The parts of an item's frame; none where a word of it is poisoned. -/
def itemParts (s : State) (i : Item) (startAt : Nat) : State × Option Parts :=
  match i.src with
  | .beacon => (s, some (beaconParts s i startAt))
  | .group => (s, some (groupParts s i))
  | .ack => (s, some (splitFrame i.frame i.hdrLen))
  | _ =>
    match readFrame s i with
    | (s, none) => (s, none)
    | (s, some data) => (s, some (splitFrame data i.hdrLen))

/-- The security level of an item (R357, R358, R364). -/
def itemLevel (s : State) (i : Item) : Nat :=
  match i.src with
  | .beacon => 2
  | .group => 6
  | _ => par s 0xC000

/-- The domain whose key secures an item. -/
def keyOwner (i : Item) : Nat :=
  match i.key with
  | .node w => (keyDomain w).toNat
  | _ => i.domain.toNat

/-- The PSDU that an item sends, with its key taken; or the status that ends it (R229, R466). -/
def buildFrame (s : State) (i : Item) (startAt : Nat) : State × (Octets ⊕ Status) :=
  match itemParts s i startAt with
  | (s, none) => (s, .inr stPoisoned)
  | (s, some p) =>
    let m := packetMode s i.band.val i.mode
    let fcf := leField p.hdr 0 2
    let downlink := match i.src with | .host _ _ _ => true | .flow _ _ _ => true | _ => false
    let pair := if paired s && downlink && i.key != .plain then pairIe s fcf i else []
    match i.key with
    | .plain => (s, .inl (withFcs m (p.hdr ++ p.ies ++ p.body)))
    | k =>
      let node : Option Word := match k with | .node w => some w | _ => none
      let d := keyOwner i
      let q := ensureDomain s d
      let s := q.1
      let gen := (node.bind (timingPlace s)).map (fun c => (placeNode s c).keyGen)
      match txSub s node.isNone d gen i.sub with
      | .inr st => (bump s 0x1425, .inr (refusalOf q.2 st))
      | .inl sub =>
        let r := frameKey s d sub node
        match r.2 with
        | none => (bump r.1 0x1425, .inr stPoisoned)
        | some key =>
        let hdr := securedHdr p.hdr
        let out := secureFrame key (itemLevel s i) (ieIds s (leField hdr 0 2)).1 i.domain (ownEui s) i.asn hdr (pair ++ p.ies) p.body
        (r.1, .inl (withFcs m out))

/-- Octets of PSDU that security and FCS add to a frame of a mode (R365, R409). -/
def overhead (s : State) (band mode : Nat) (secure : Bool) (level : Nat) : Nat :=
  fcsOctets (packetMode s band mode) + (if secure then 17 + (if paired s then 15 else 0) + micLen level else 0)

end Sys2Proof.Machine
end

