-- ==== Sys2Proof/Machine/Quench.lean ====
section
/-!
DEFINITION. Quench: the regulatory profile, its checks, the power clamp and the duty bins (R242 to R249).
-/

namespace Sys2Proof.Machine

/-! ### The profile (R243, R244) -/

def quenchEntries (q : Quench) : Nat := fld (q.profile.getD 0 0) 15 8
def quenchWindow (q : Quench) : Nat := fld (q.profile.getD 1 0) 15 0
def quenchA (q : Quench) (e : Nat) : Word := q.profile.getD (4 + 2 * e) 0
def quenchB (q : Quench) (e : Nat) : Word := q.profile.getD (5 + 2 * e) 0

/-- Signed octet. -/
def sOctet (n : Nat) : Int := (BitVec.ofNat 8 n).toInt

/-- EXT_GAIN of a chain, in 0.25 dB. -/
def extGain (q : Quench) (c : Nat) : Int :=
  if c < 9 then sOctet (octetOf (q.profile.getD 2 0) c).toNat else sOctet (octetOf (q.profile.getD 3 0) (c - 9)).toNat

/-- Whether a profile is valid (R244). -/
def profileValid (ws : List Word) : Bool :=
  let w0 := ws.getD 0 0
  let w1 := ws.getD 1 0
  let n := fld w0 15 8
  let entryOk (e : Nat) : Bool :=
    let a := ws.getD (4 + 2 * e) 0
    decide (fld a 21 0 < fld a 43 22 ∧ 1 ≤ fld a 61 52 ∧ fld a 61 52 ≤ 1000)
  fld w0 7 0 == 1 && decide (1 ≤ n ∧ n ≤ 64) && decide (1 ≤ fld w1 15 0 ∧ fld w1 15 0 ≤ 3600) && decide (fld w1 22 16 ≤ 100) &&
    (List.range n).all entryOk && decide (5 + 2 * n ≤ ws.length) &&
    fld (ws.getD (4 + 2 * n) 0) 31 0 == (crc32 (unpackWords (ws.take (4 + 2 * n)))).toNat

/-- The first entry that wholly holds an occupied band, carrier and bandwidth in kHz (R245). -/
def quenchEntry (q : Quench) (freq bw : Nat) : Option Nat :=
  (List.range (quenchEntries q)).find? (fun e =>
    decide (2 * fld (quenchA q e) 21 0 + bw ≤ 2 * freq ∧ 2 * freq + bw ≤ 2 * fld (quenchA q e) 43 22))

/-! ### Duty bins (R248, R249); bins count 1/4,096 µs, ten to a TIME cycle -/

/-- Length of a bin in TIME cycles. -/
def binLength (q : Quench) : Nat := quenchWindow q * 6400000

/-- Allowance of an entry, in 1/4,096 µs. -/
def allowance (q : Quench) (e : Nat) : Nat := fld (quenchA q e) 61 52 * quenchWindow q * 1000 * 4096

def bin (q : Quench) (e i : Nat) : Nat := tblAt q.bins (65 * e + i) 0

/-- Sum of an entry's 65 bins. -/
def binsSum (q : Quench) (e : Nat) : Nat := (List.range 65).foldl (fun n i => n + bin q e i) 0

/-- Standing reservations of an entry. -/
def reserved (q : Quench) (e : Nat) : Nat :=
  (q.reserves.filter (fun r => r.entry == e)).foldl (fun n r => n + r.ticks) 0

/-- The end so far of a chain's PA-on time: a stopped transmission's PA is off 2 µs after the cause (R240). -/
def paTill (s : State) (x : ChainSt) : Nat := if x.stop.isSome then min s.now (x.stopAt + 819) else s.now

/-- PA-on time of a chain's transmission that falls in bins not dropped, in 1/4,096 µs. -/
def onTime (s : State) (c : Nat) : Nat :=
  let x := tblAt s.chains c {}
  match x.paSince with
  | some t => 10 * (paTill s x - max t (s.quench.binStart - 64 * binLength s.quench))
  | none => 0

/-- Duty in use with transmissions in progress at their PA-on time so far (R247, R248). -/
def dutyRunning (s : State) (e : Nat) : Nat :=
  binsSum s.quench e + (s.quench.reserves.filter (fun r => r.entry == e)).foldl (fun n r => n + onTime s r.chain.val) 0

/-- Accounts PA-on time in the bins in which it fell (R248). -/
def account (s : State) (e since till : Nat) : State :=
  let q := s.quench
  let len := binLength q
  let add (bins : SMap Nat) (i : Nat) : SMap Nat :=
    let lo := max since (q.binStart - i * len)
    let hi := if i = 0 then till else min till (q.binStart - (i - 1) * len)
    if lo < hi ∧ i * len ≤ q.binStart + len then tblPut bins (65 * e + i) (tblAt bins (65 * e + i) 0 + 10 * (hi - lo)) else bins
  { s with quench := { q with bins := (List.range 65).foldl add q.bins } }

/-- The end of a granted transmission: its reservation goes and its PA-on time is accounted (R248). -/
def settle (s : State) (c : Nat) : State :=
  let ch := tblAt s.chains c {}
  match s.quench.reserves.find? (fun r => r.chain.val == c) with
  | none => s
  | some r =>
    let s := { s with quench := { s.quench with reserves := s.quench.reserves.filter (fun x => x.chain.val != c) } }
    match ch.paSince with
    | some t => if t < paTill s ch then account s r.entry t (paTill s ch) else s
    | none => s

/-- The bins of a cold reset or a newly activated profile (R249). -/
def preload (s : State) : State :=
  let q := s.quench
  let share (e : Nat) : Nat := fld (q.profile.getD 1 0) 22 16 * allowance q e / 6400
  let bins := (List.range (quenchEntries q)).foldl (fun m e =>
    (List.range 64).foldl (fun m i => tblPut m (65 * e + i + 1) (share e)) m) []
  { s with quench := { q with bins := bins, binStart := s.now } }

/-- QUENCH_BIN_ROLL (R248): the current bin completes and the oldest ages out, for every entry. -/
def execQuenchBinRoll (dt : Nat) (s : State) : Host.Outcome State Fault Refusal :=
  always dt s (fun s =>
    let q := s.quench
    if q.valid && due s (q.binStart + binLength q) then
      let bins := (q.bins.filter (fun b => b.1 % 65 != 64)).map (fun b => (b.1 + 1, b.2))
      { s with quench := { q with bins := bins, binStart := q.binStart + binLength q } }
    else s)

end Sys2Proof.Machine
end

