-- ==== Sys2Proof/Machine/Tongs.lean ====
section
/-!
DEFINITION. Tongs: the ranks, queues, hierarchy and counters of one arbiter's decision (R196 to R205, R211).
-/

namespace Sys2Proof.Machine

/-- Servers of an arbiter (R196). -/
def arbServers (a : Nat) : Nat := if a = 34 ∨ (36 ≤ a ∧ a ≤ 38) then 4 else 1

/-- A duration of TIME cycles in cycles of the arbiter's own clock: ENG, FWD, DSP or TIME (R63, R196). -/
def arbCycles (a n : Nat) : Nat :=
  if a = 32 ∨ a = 33 then n * 3 / 2 else if 36 ≤ a ∧ a ≤ 39 then n * 3 else if 40 ≤ a then n else n * 9 / 4

/-- Rank of a request at an arbiter; none where the requester has no place there (R196, R197). -/
def arbRank (s : State) (a code : Nat) (header : Bool) : Option Nat :=
  if a < 32 then
    if 26 ≤ code ∧ code ≤ 30 then some 0 else if 2 ≤ code ∧ code ≤ 17 then some 1
    else if code = 31 ∨ code = 32 then some 2 else if code = 33 then some 3
    else if code ≤ 1 ∨ code = 42 then some 4 else if 34 ≤ code ∧ code ≤ 39 then some 5
    else if code = 40 then some 6 else if code = 41 then some 7 else none
  else if a ≤ 33 then
    if code = 31 + (a - 32) then some 0 else if code = 31 ∨ code = 32 then some 1 else if code ≤ 1 then some 2
    else if code = 41 then some 3 else none
  else if a = 34 then
    if code ≤ 1 then some (if parB s 0x8804 then 1 else 0) else if code ≤ 17 then some 0 else none
  else if a = 35 then if code ≤ 1 ∨ code = 42 then some 0 else none
  else if a ≤ 39 then if 18 ≤ code ∧ code ≤ 25 then some (if header then 0 else 1) else none
  else if code = 2 + (a - 40) then some 0 else if code ≤ 1 then some 1 else none

/-- Whether a rank of an arbiter is the ME level of R202. -/
def isMeLevel (a rank : Nat) : Bool := (decide (a < 32) && rank == 1) || (a == 34 && rank == 0)

/-- Whether a request is one of the five rank-0 requesters of an SHM bank, held on a dedicated line (R201). -/
def dedicated (a code : Nat) : Bool := decide (a < 32) && decide (26 ≤ code ∧ code ≤ 30)

/-- Entry of the ME level that a requester belongs to: clusters 0 to 3, then MC0, MC1 as 4, 5 (R202). -/
def meEntry (code : Nat) : Nat := if code ≤ 1 then 4 + code else (code - 2) / 4

/-- Member of a cluster (R202). -/
def meMember (code : Nat) : Nat := (code - 2) % 4

/-- Weight of an entry of the ME level (R202, R204). -/
def entryWeight (s : State) (e : Nat) : Nat := if e < 4 then par s (0x8800 + e) else 1

/-- Entries of the ME level of an arbiter. -/
def entryCount (s : State) (a : Nat) : Nat := if a = 34 ∧ parB s 0x8804 = false then 6 else 4

/-- The credit of an entry (R202). -/
def creditOf (s : State) (x : Arb) (e : Nat) : Nat := tblAt x.credit e (entryWeight s e)

/-- At a decision a credit that exceeds its entry's weight is cut to it (R205). -/
def cutCredits (s : State) (x : Arb) : Arb := { x with credit := x.credit.map (fun e => (e.1, min e.2 (entryWeight s e.1))) }

/-- The credits after a reset: each entry's weight (R202). -/
def freshCredits (s : State) : SMap Nat := (List.range 6).map (fun e => (e, entryWeight s e))

/-- The entry that the pointer's walk of R202 settles on, with the credits it renews on its way. -/
def walkEntries (s : State) (cands : List Grant) (n : Nat) : Nat → Arb → Nat → Arb × Nat
  | 0, x, e => (x, e)
  | k + 1, x, e =>
    if cands.any (fun g => meEntry g.code == e) then (x, e)
    else walkEntries s cands n k { x with credit := tblPut x.credit e (entryWeight s e) } ((e + 1) % n)

/-- The first candidate of a cluster at or after its member pointer. -/
def pickMember (cands : List Grant) (e first : Nat) : Option Grant :=
  (List.range 4).findSome? (fun i =>
    cands.find? (fun g => meEntry g.code == e && (decide (4 ≤ e) || meMember g.code == (first + i) % 4)))

/-- A decision at the ME level (R202). -/
def decideMe (s : State) (a : Nat) (x : Arb) (cands : List Grant) : Arb × Option Grant :=
  let n := entryCount s a
  let w := walkEntries s cands n n x (x.pointer % n)
  let e := w.2
  let x := w.1
  match pickMember cands e (tblAt x.member e 0) with
  | none => (x, none)
  | some g =>
    let c := creditOf s x e - 1
    let x := { x with member := tblPut x.member e ((meMember g.code + 1) % 4) }
    (if c = 0 then { x with credit := tblPut x.credit e (entryWeight s e), pointer := (e + 1) % n }
     else { x with credit := tblPut x.credit e c, pointer := e }, some g)

/-- A decision among the rank-0 requesters of an SHM bank: round-robin (R198). -/
def decideRr (x : Arb) (cands : List Grant) : Arb × Option Grant :=
  match (List.range 5).findSome? (fun i => cands.find? (fun g => g.code == 26 + (x.rr + i) % 5)) with
  | some g => ({ x with rr := (g.code - 25) % 5 }, some g)
  | none => (x, none)

/-- The older of two requests; of one cycle the lower requester code (R198). -/
def olderOf (g h : Grant) : Grant := if h.since < g.since ∨ (h.since = g.since ∧ h.code < g.code) then h else g

/-- A decision in arrival order (R198). -/
def decideAge : List Grant → Option Grant
  | [] => none
  | g :: gs => some (gs.foldl olderOf g)

/-- The winning request of the highest rank (R198). -/
def arbWinner (s : State) (a : Nat) (x : Arb) (cands : List Grant) : Arb × Option Grant :=
  match (List.range 8).find? (fun r => cands.any (fun g => arbRank s a g.code g.header == some r)) with
  | none => (x, none)
  | some r =>
    let top := cands.filter (fun g => arbRank s a g.code g.header == some r)
    if isMeLevel a r then decideMe s a x top
    else if decide (a < 32) && r == 0 then decideRr x top
    else (x, decideAge top)

/-- A request that finds the queue full is counted, and reported at most once per millisecond (R201). -/
def queueFull (s : State) (a code : Nat) : State :=
  let s := bump s (0x380 + a)
  let x := tblAt s.arbs a {}
  let quiet := match x.qfullAt with | some t => decide (s.now < t + msC 1) | none => false
  if quiet then s
  else raiseEv { s with arbs := tblPut s.arbs a { x with qfullAt := some s.now } } 64 (at' 0 a ||| at' 8 code) 0

/-- Entries of the queue in use: the dedicated lines hold their requests beside it (R201). -/
def queued (a : Nat) (x : Arb) : Nat := (x.parked.filter (fun h => !dedicated a h.code)).length

/-- Parks losing requests, in order, in a queue of 8; the dedicated lines hold theirs beside it, and a request that finds the queue
full stalls with its handshake open (R201). -/
def parkAll (a : Nat) : List Grant → State → State
  | [], s => s
  | g :: gs, s =>
    let x := tblAt s.arbs a {}
    if dedicated a g.code ∨ queued a x < 8 then
      parkAll a gs { s with arbs := tblPut s.arbs a { x with parked := x.parked ++ [g] } }
    else parkAll a gs (queueFull { s with arbs := tblPut s.arbs a { x with stalled := x.stalled ++ [g] } } a g.code)

/-- Stalled requests enter the queue as entries free, the oldest first (R201). -/
def unstall (a : Nat) (x : Arb) : Arb :=
  let n := 8 - queued a x
  { x with parked := x.parked ++ x.stalled.take n, stalled := x.stalled.drop n }

/-- Whether a holder's grant can have ended by a cycle: an SHM burst transfers at most a word a cycle after the grant's own (R198,
R199). -/
def grantOver (a cycle : Nat) (g : Grant) : Bool := decide (32 ≤ a) || decide (g.since + g.burst ≤ cycle)

/-- Ends a holder's grant; the longest hold is kept (R211). -/
def endGrant (cycle : Nat) (g : Grant) (x : Arb) : Arb :=
  { x with holders := x.holders.erase g, holdMax := max x.holdMax (cycle - g.since) }

/-- The holders that a list of requester codes names release their servers, each the oldest of its grants that can have ended (R199,
R205). -/
def arbRelease (a cycle : Nat) (codes : List Nat) (x : Arb) : Arb :=
  codes.foldl (fun x k => match x.holders.find? (fun g => g.code == k && grantOver a cycle g) with
    | some g => endGrant cycle g x
    | none => x) x

/-- At a transmit chain's arbiter the management cores' grants end when the chain's transmit ME presents a request (R209). -/
def endMcGrants (a cycle : Nat) (fresh : List Grant) (x : Arb) : Arb :=
  if 40 ≤ a ∧ fresh.any (fun g => g.code == 2 + (a - 40)) then
    (x.holders.filter (fun g => decide (g.code ≤ 1))).foldl (fun x g => endGrant cycle g x) x
  else x

/-- The grant of a winner: its server, and the waits and grants of SHM banks (R198, R211). -/
def arbGrant (s : State) (a cycle : Nat) (x : Arb) (g : Grant) : State :=
  let x := { x with holders := x.holders ++ [{ g with since := cycle }],
                    parked := x.parked.filter (fun h => h.code != g.code), stalled := x.stalled.filter (fun h => h.code != g.code) }
  let s := { s with arbs := tblPut s.arbs a (unstall a x) }
  if a < 32 then
    let r := (arbRank s a g.code g.header).getD 0
    let k := 0x400 + 8 * a + r
    bump (setCounter s k (max (counter s k) (cycle - g.since))) (0x500 + 8 * a + r)
  else s

/-- Inserts a request in ascending order of code. -/
def insertCode (g : Grant) : List Grant → List Grant
  | [] => [g]
  | h :: hs => if g.code ≤ h.code then g :: h :: hs else h :: insertCode g hs

/-- The requests first presented in a decision's cycle: known requesters, each with at most one request standing (R200). -/
def newRequests (s : State) (a cycle : Nat) (presented : List ArbReq) : List Grant :=
  let x := tblAt s.arbs a {}
  let standing := (x.parked ++ x.stalled).map (·.code)
  let taken := presented.foldl (fun l q =>
    if (arbRank s a q.code q.header).isSome && !standing.contains q.code && !(l.any (fun h => h.code == q.code)) then l ++ [q] else l) []
  (taken.map (fun q => (⟨q.code, q.burst, q.header, cycle⟩ : Grant))).foldr insertCode []

/-- One decision, in a cycle of the arbiter's own clock: releases, the winner's grant if a server is free, and the parking of the losers
(R198 to R201). -/
def arbDecide (s : State) (a cycle : Nat) (presented : List ArbReq) (releases : List Nat) : State :=
  let fresh := newRequests s a cycle presented
  let x := cutCredits s (endMcGrants a cycle fresh (unstall a (arbRelease a cycle releases (tblAt s.arbs a {}))))
  let s := { s with arbs := tblPut s.arbs a x }
  if x.holders.length < arbServers a then
    match arbWinner s a x (x.parked ++ x.stalled ++ fresh) with
    | (x', some g) => parkAll a (fresh.filter (fun h => h.code != g.code)) (arbGrant s a cycle x' g)
    | (_, none) => parkAll a fresh s
  else parkAll a fresh s

/-- The longest hold in progress at an arbiter, in its own cycles. -/
def holdNow (s : State) (a : Nat) : Nat :=
  (tblAt s.arbs a {}).holders.foldl (fun m g => max m (arbCycles a s.now - g.since)) 0

/-- The longest wait of a request of a rank that stands at an SHM bank, in ENG cycles. -/
def waitNow (s : State) (b r : Nat) : Nat :=
  let x := tblAt s.arbs b {}
  ((x.parked ++ x.stalled).filter (fun g => arbRank s b g.code g.header == some r)).foldl
    (fun m g => max m (arbCycles b s.now - g.since)) 0

/-- The present value of a counter of arbitration (R211): a hold or a wait in progress counts towards the longest one. -/
def arbCounter (s : State) (id : Nat) : Option Nat :=
  if 0x300 ≤ id ∧ id < 0x334 then some (holdNow s (id - 0x300))
  else if 0x340 ≤ id ∧ id < 0x374 then some (max (tblAt s.arbs (id - 0x340) {}).holdMax (holdNow s (id - 0x340)))
  else if 0x3C0 ≤ id ∧ id < 0x3F4 then some (queued (id - 0x3C0) (tblAt s.arbs (id - 0x3C0) {}))
  else if 0x400 ≤ id ∧ id < 0x500 then some (max (counter s id) (waitNow s ((id - 0x400) / 8) (id % 8)))
  else none

end Sys2Proof.Machine
end

