-- ==== Sys2Proof/Machine/Chain.lean ====
section
/-!
DEFINITION. Radio chains (chapter 08): states and transitions, Bellows, the calibration store, preparing and ending a
transmission, mismatch handling, blanking, the mask monitor, and the radio commands.
-/

namespace Sys2Proof.Machine

/-- A chain of the watched band was disabled or halted until now (R372). -/
def noteFit (s : State) (c : Nat) : State :=
  if c / 4 = par s 0x9401 then { s with pair := { s.pair with unfitAt := s.now } } else s

/-! ### Chains -/

def chainSt (s : State) (c : Nat) : ChainSt := tblAt s.chains c {}

/-- Whether a chain gives samples: it is in RX with no change under way (R279). -/
def inRx (x : ChainSt) : Bool := x.st == .rx && x.target.isNone

def bandOf (c : Nat) : Nat := c / 4
def chainEnabled (s : State) (c : Nat) : Bool := parB s (0x1400 + c)

/-- The ramp time of a chain, µs. -/
def ramp (s : State) (c : Nat) : Nat := par s (0x1430 + c)

/-- The nibble of the FEM pattern for a chain state outside a transmission (R233). -/
def femIndex : ChState → Nat
  | .off => 7 | .sleep => 0 | .standby => 1 | .synthOn => 2 | .cal => 2 | .rx => 3 | .tx => 5

/-- The nibble that a chain drives now: during a transition into TX and both ramps the TX transition's, between them that of TX or of a
probe, and after ramp-down at once the next state's (R233). -/
def femPhase (s : State) (x : ChainSt) : Nat :=
  let down : Bool := match x.downAt with | some t => decide (t ≤ s.now) | none => false
  if (x.target.map (·.1)) = some .tx then 4
  else if x.st = .tx then (if x.stop.isSome || down then 4 else if x.holder = .tune then 6 else 5)
  else if x.blankFrom.isSome then (match x.target with | some (t, _) => femIndex t | none => femIndex x.st)
  else femIndex x.st

/-- The levels of FEM_xn_CTL3 to CTL0: low in Off and during any reset, when no state change has taken up a pattern yet (R75, R233). -/
def femLines (s : State) (c : Nat) : BitVec 4 :=
  let k := femPhase s (chainSt s c)
  if k = 7 then 0 else ((chainSt s c).fem >>> (4 * k)).setWidth 4

/-- The window frequency of a band, kHz (R214, R260). -/
def windowLo (s : State) (b : Nat) : Nat := par s (0xA000 + b)

/-- Whether a band is blanked by its own chains or by those of a band that its rad.band.xblank named at their start. -/
def blanked (s : State) (b : Nat) : Bool :=
  (List.range 12).any (fun c => (chainSt s c).blankFrom.isSome && (chainSt s c).blanks.getLsbD b)

/-- Whether a band receives continuously, or the chain has an open receive (R219, R220). -/
def receives (s : State) (c : Nat) : Bool :=
  par s (0xD002 + bandOf c) == 0 || decide (s.now < (chainSt s c).openTill)

/-- The chains of a band that give samples for a channel: in RX on the window frequency, and receiving (R278 to R280). -/
def sampled (s : State) (b : Nat) : BitVec 4 :=
  BitVec.ofNat 4 ((List.range 4).foldl (fun n a =>
    let x := chainSt s (4 * b + a)
    if inRx x && x.freq == windowLo s b then n + 2 ^ a else n) 0)

/-- The antennas of a band whose chains receive, by their band's mode or an open receive (R280). -/
def open_ (s : State) (b : Nat) : BitVec 4 :=
  BitVec.ofNat 4 ((List.range 4).foldl (fun n a => if receives s (4 * b + a) then n + 2 ^ a else n) 0)

/-- Antennas of a channel whose samples are present (R278 to R280). -/
def present (s : State) (b : Nat) (c : Chan) : BitVec 4 :=
  if blanked s b then 0 else defAnts c.def_ &&& sampled s b &&& open_ s b

/-- The instant from which a channel's presence is `p`: now, or the end of the openings that have closed since. -/
def presenceFrom (s : State) (b : Nat) (c : Chan) (was p : BitVec 4) : Nat :=
  let closed := was &&& ~~~p &&& sampled s b
  let ends := (List.range 4).foldl (fun n a => if closed.getLsbD a then max n (chainSt s (4 * b + a)).openTill else n) 0
  let t := if closed = 0 then s.now else max c.anchorAt (min s.now ends)
  (t - c.anchorAt) * chanRate c / 4096

/-- Notes on every running channel of a band which antennas its ring is written for from now on; what the ring has overwritten is
forgotten (R283). -/
def noteRing (s : State) (b : Nat) : State :=
  { s with rx := { s.rx with chans := s.rx.chans.map (fun e =>
      let c := e.2
      let p := present s b c
      let was := (c.gaps.head?.map (·.2)).getD 0
      if e.1 / 64 = b ∧ c.status = 1 ∧ (c.gaps.isEmpty ∨ p ≠ was) then
        let old := c.gaps.filter (fun g => decide (writePointer s c < g.1 + c.ringLen))
        let kept := c.gaps.take (old.length + 1)
        (e.1, { c with gaps := (presenceFrom s b c was p, p) :: kept })
      else e) } }

/-- Whether storing `x` for `o` is a state change: another state, or the start of a transition into TX. -/
def stateChange (o x : ChainSt) : Bool :=
  x.st != o.st || ((x.target.map (·.1)) == some .tx && (o.target.map (·.1)) != some .tx)

/-- Stores a chain. A state change takes up rad.chain.fem.pattern and rad.chain.tuner (R258); a chain that leaves RX gives its band's
lanes no more samples and writes no more of them into the rings, and one that stands in RX again, or Off, is back from the background (R226). -/
def setChain (s : State) (c : Nat) (x : ChainSt) : State :=
  let o := chainSt s c
  let new := stateChange o x
  let x := { x with fem := if new then (parV s (0x1410 + c)).setWidth 32 else o.fem,
                    tuner := if new then (parV s (0x1450 + c)).setWidth 18 else o.tuner,
                    back := x.back && !inRx x && x.st != .off }
  let s' := { s with chains := tblPut s.chains c x }
  let s' := if inRx o && !inRx x then rxAbsent s' (c / 4) (1#4 <<< (c % 4)) else s'
  if inRx o == inRx x && o.freq == x.freq && o.openTill == x.openTill && o.blankFrom == x.blankFrom then s'
  else [0, 1, 2].foldl noteRing s'

/-- Whether an occupied band lies wholly inside the window (R214, R262). -/
def inWindow (s : State) (b freq bw : Nat) : Bool :=
  decide (2 * windowLo s b ≤ 2 * freq + 40050 - bw ∧ 2 * freq + bw ≤ 2 * windowLo s b + 39950 ∧ bw ≤ 2 * freq)

/-- The synthesiser frequency of a transmission: the window's by digital offset inside it, otherwise its own (R214). -/
def txLo (s : State) (b freq bw : Nat) : Nat := if inWindow s b freq bw then windowLo s b else freq

/-- Maximum power of a band in 0.25 dBm (R212). -/
def bandMax (b : Nat) : Int := if b = 2 then 72 else 80

/-! ### The calibration store (R222 to R225) -/

def bandBase (b : Nat) : Nat := if b = 0 then 410000 else if b = 1 then 750000 else 2400000
def lastGrid (b : Nat) : Nat := if b = 0 then 100 else if b = 1 then 210 else 84

/-- The grid point that serves a frequency. -/
def gridOf (b freq : Nat) : Nat := (freq + 500 - bandBase b) / 1000
def gridFreq (b g : Nat) : Nat := bandBase b + 1000 * g

def calAddr (c g : Nat) : Nat := 0x8000 + 512 * c + 2 * g
def calState (s : State) (c g : Nat) : Nat := fld (peek s (calAddr c g)) 1 0

/-- A read of an entry by the calibration firmware: a correction is counted and an uncorrectable word poisoned (R167, R170); the trap
of a load that meets poison is POISON_TRAP's (R171, R173; log 200). -/
def readCal (s : State) (c g : Nat) : State := touchBlock (touchBlock s (calAddr c g)) (calAddr c g + 1)

/-- The band sensor's reading in whole °C. -/
def bandTemp (s : State) (b : Nat) : Int :=
  let t := if b = 0 then s.temp.t0 else if b = 1 then s.temp.t1 else s.temp.t2
  (t.toInt + 8) / 16

/-- Difference between the sensor and an entry's TEMP. -/
def calDrift (s : State) (c g : Nat) : Nat := (bandTemp s (bandOf c) - sOctet (fld (peek s (calAddr c g)) 31 24)).natAbs

def calUsable (s : State) (c g : Nat) : Bool := calState s c g == 1
def calFresh (s : State) (c g : Nat) : Bool := calUsable s c g && decide (calDrift s c g ≤ par s 0x1800)

/-- Replaces bits [hi:lo] of a word. -/
def putBits (w : Word) (hi lo v : Nat) : Word := (w &&& ~~~(bits hi lo)) ||| at' lo (v % 2 ^ (hi + 1 - lo))

/-- Writes an entry's STATE and TIME. -/
def markCal (s : State) (c g st : Nat) (stamp : Bool) : State :=
  let a := calAddr c g
  let s := writeWord s a (putBits (peek s a) 1 0 st)
  if stamp then writeWord s (a + 1) (putBits (peek s (a + 1)) 39 0 (nowSeconds s)) else s

/-! ### Blanking (R250, R251) -/

/-- Bands that a transmission of band `k` blanks: its own and those whose rad.band.xblank names it. -/
def blankedBy (s : State) (k : Nat) : BitVec 3 :=
  BitVec.ofNat 3 ([0, 1, 2].foldl (fun n b => if b = k ∨ (par s (0x1000 + b)).testBit k then n + 2 ^ b else n) 0)

/-- Follows the union of blanking intervals of each band: BLANK_EVENTS and BLANK_US (R259); at its end the dwell counts
restart (R267). -/
def trackBlank (s : State) : State :=
  [0, 1, 2].foldl (fun s b =>
    match tblGet s.mac.blankFrom b, blanked s b with
    | none, true =>
      rxAbsent (bump { s with mac := { s.mac with blankFrom := tblPut s.mac.blankFrom b s.now } } (0x6C4 + b)) b 0b1111
    | some t, false =>
      let s := bumpBy { s with mac := { s.mac with blankFrom := tblErase s.mac.blankFrom b } } (0x6C0 + b) ((s.now - t) * 10 / 4096)
      (List.range 4).foldl (fun s a => setChain s (4 * b + a) { chainSt s (4 * b + a) with dwell := 0 }) s
    | _, _ => s) s

/-! ### Transitions (R217, R218) -/

/-- Begins a transition that ends no later than `us` µs from now. -/
def begin' (s : State) (c : Nat) (t : ChState) (us : Nat) : State :=
  setChain s c { chainSt s c with target := some (t, s.now + usC us), want := none }

/-- A chain enters CAL at a grid point; it lasts 160 µs. -/
def startCal (s : State) (c g : Nat) (h : ChHolder) : State :=
  let x := chainSt s c
  setChain s c { x with st := .cal, calPoint := g, holder := h, freq := 0, target := some (.synthOn, s.now + usC 160), want := none }

/-- A calibration takes a chain to CAL, through Standby where it sleeps (R217). -/
def toCal (s : State) (c g : Nat) (h : ChHolder) : State :=
  let s' := setChain s c { chainSt s c with holder := h, calPoint := g, want := none }
  match (chainSt s c).st with
  | .off => begin' s' c .sleep 50
  | .sleep => begin' s' c .standby 120
  | _ => startCal s c g h

/-- Takes the chain to its window frequency, through CAL without a usable entry, on its way to `t`. -/
def toWindow (s : State) (c : Nat) (t : ChState) : State :=
  let b := bandOf c
  let g := gridOf b (windowLo s b)
  let x := chainSt s c
  if x.freq = windowLo s b then begin' s c t 6
  else
    let s := readCal s c g
    if calUsable s c g then begin' (setChain s c { x with freq := windowLo s b }) c t (if t = .rx then 28 else 22)
    else
      let s := startCal s c g x.holder
      setChain s c { chainSt s c with want := some t }

/-- Begins the change of a free chain towards a state (R217, R219); a change the table does not list takes the time of
the nearest (log 39). -/
def goTo (s : State) (c : Nat) (t : ChState) : State :=
  let x := chainSt s c
  if x.st = t ∧ x.target.isNone ∧ (t ≠ .rx ∨ x.freq = windowLo s (bandOf c)) then s
  else match x.target with
    | some _ => setChain s c { x with want := some t }
    | none =>
      match x.st, t with
      | .cal, _ => setChain s c { x with want := some t }
      | .tx, _ => setChain s c { x with want := some t }
      | .off, _ => setChain (begin' s c .sleep 50) c { chainSt (begin' s c .sleep 50) c with want := some t }
      | _, .off => begin' (setChain s c { x with freq := 0 }) c .off 2
      | _, .sleep => begin' (setChain s c { x with freq := 0 }) c .sleep 2
      | .sleep, _ =>
        let s := begin' s c .standby 120
        if t = .standby then s else setChain s c { chainSt s c with want := some t }
      | _, .standby => begin' (setChain s c { x with freq := 0 }) c .standby 2
      | .standby, _ => toWindow s c t
      | _, .rx => toWindow s c .rx
      | _, _ => toWindow s c .synthOn

/-- Result words and status of a CAL_RUN that ends (R256). -/
def finishCalRun (s : State) (r : CalRun) (st : Status) : State :=
  let s := { s with calRuns := s.calRuns.filter (fun x => !(x.hc == r.hc && x.job == r.job)) }
  finishJob s r.hc r.job st [at' 0 (min 65535 r.done) ||| at' 16 (min 65535 r.failed) ||| at' 32 (min 65535 r.preempted)] false

/-- Ends a TUNE (R238, R239, R255). -/
def endTune (s : State) (j : TuneJob) (st : Status) (words : List Word) (air : Bool) : State :=
  finishJob { s with tunes := s.tunes.filter (fun x => !(x.hc == j.hc && x.job == j.job)) } j.hc j.job st words air

/-- The CAL_RUNs and TUNEs of a disabled chain complete with ST_CHAIN_DISABLED (R255, R256). -/
def endDisabled (s : State) (c : Nat) : State :=
  let s := (s.calRuns.filter (fun r => r.chain.val == c)).foldl (fun s r => finishCalRun s r stChainDisabled) s
  (s.tunes.filter (fun j => j.chain.val == c)).foldl (fun s j => endTune s j stChainDisabled [0, 0] false) s

/-- What a free chain does next: a disabled one goes Off, an open CAL_RUN takes it, or it goes back to receive. -/
def release (s : State) (c : Nat) : State :=
  let s := setChain s c { chainSt s c with holder := .none }
  if !chainEnabled s c then goTo (endDisabled s c) c .off
  else match s.calRuns.find? (fun r => r.chain.val == c) with
    | some r =>
      (match r.points with
       | g :: _ => toCal s c g .calRun
       | [] => s)
    | none => if receives s c then goTo s c .rx else s

/-- Goes on with a preparation for the synthesiser frequency `lo`, through CAL where `cal` says so, up to the state from which the
transition into TX starts (R217, R229). -/
def prepareLo (s : State) (c lo : Nat) (cal : Bool) : State :=
  let x := chainSt s c
  let hop : State :=
    if cal then startCal s c (gridOf (bandOf c) lo) x.holder
    else begin' (setChain s c { x with freq := lo }) c .synthOn 22
  if x.target.isSome then s
  else match x.st with
    | .off => begin' s c .sleep 50
    | .sleep => begin' s c .standby 120
    | .standby => hop
    | .synthOn => if x.freq = lo ∧ cal = false then s else hop
    | .rx => if x.freq = lo ∧ lo = windowLo s (bandOf c) then s else hop
    | _ => s

/-- Goes on with the preparation of the item that holds a chain. -/
def prepare (s : State) (c : Nat) (i : Item) : State :=
  prepareLo s c (txLo s (bandOf c) i.freq (occupied s (bandOf c) i.mode)) i.useCal

/-- Goes on with the preparation of a probe, through CAL without a usable entry. -/
def prepareProbe (s : State) (c : Nat) (j : TuneJob) : State :=
  let lo := txLo s (bandOf c) j.freq 0
  let g := gridOf (bandOf c) lo
  let s := if (chainSt s c).freq = lo then s else readCal s c g
  prepareLo s c lo ((chainSt s c).freq != lo && !calUsable s c g)

/-! ### Ending an item before its transmission -/

/-- A chain gives up an item that ends before its transmission. -/
def dropFromChain (s : State) (i : Item) : State :=
  match i.chain with
  | some c =>
    let x := chainSt s c.val
    let x := if x.next = some i.id then { x with next := none } else x
    setChain s c.val (if x.holder = .item i.id then { x with holder := .none } else x)
  | none => s

/-- An item ends before its transmission with a status and AIR clear (R229, R245, R257). -/
def endUnsent (s : State) (i : Item) (st : Status) : State :=
  endItem (dropFromChain s i) { i with aired := false } st 0

/-- What the holder of a chain, or the item next in turn, does where no transition runs; none where nobody wants the chain. A committed
item of a disabled chain ends with ST_CHAIN_DISABLED (R215). -/
def proceedHeld (s : State) (c : Nat) : Option State :=
  let x := chainSt s c
  match x.holder with
  | .item id =>
    (match findItem s id with
     | some i =>
       if i.st ≠ .committed then some s
       else if chainEnabled s c then some (prepare s c i)
       else none
     | none => some s)
  | .none =>
    (match x.next.bind (findItem s) with
     | some i =>
       if chainEnabled s c then
         let s := setChain s c { x with holder := .item i.id, next := none, want := none }
         some (prepare s c i)
       else none
     | none => none)
  | .tune =>
    some (match s.tunes.find? (fun j => j.chain.val == c && j.probe.isSome) with
      | some j => if chainEnabled s c then prepareProbe s c j else release s c
      | none => s)
  | h => some (if x.st = .cal then s else if chainEnabled s c then toCal s c x.calPoint h else release s c)

/-- The committed items of a disabled chain end (R215). -/
def endWaiting (s : State) (c : Nat) : State :=
  let x := chainSt s c
  let ids := (match x.holder with | .item id => [id] | _ => []) ++ x.next.toList
  ids.foldl (fun s id => match findItem s id with
    | some i => if i.st = .committed then endUnsent s i stChainDisabled else s
    | none => s) s

/-- A chain whose transition has ended takes up what waits for it. -/
def proceed (s : State) (c : Nat) : State :=
  if (chainSt s c).target.isSome then s
  else match proceedHeld s c with
    | some s => s
    | none =>
      let s := if chainEnabled s c then s else endWaiting s c
      let x := chainSt s c
      match x.want with
      | some t => goTo (setChain s c { x with want := none }) c t
      | none => release s c

/-- An item ends before its transmission; the chain that it held takes up what waits. -/
def failItem (s : State) (i : Item) (st : Status) : State :=
  match i.chain with
  | some c =>
    let held := decide ((chainSt s c.val).holder = .item i.id)
    let s := endUnsent s i st
    if held ∧ (chainSt s c.val).target.isNone ∧ (chainSt s c.val).st ≠ .cal then proceed s c.val else s
  | none => endUnsent s i st

/-! ### Abandoning calibrations and probes (R209, R227) -/

/-- Abandons a calibration: the chain stands in Synth-on at an unlocked frequency within 2 µs (R227). -/
def abandonCal (s : State) (c : Nat) : State :=
  let x := chainSt s c
  let g := x.calPoint
  let a := calAddr c g
  let s := if calState s c g = 1 then s else markCal s c g 2 true
  let w := peek s a
  let s := writeWord s a (putBits w 59 56 (min 15 (fld w 59 56 + 1)))
  let s := bump (raiseEv s 101 (at' 0 c) (BitVec.ofNat 72 (gridFreq (bandOf c) g))) (0x680 + c)
  let s := match x.holder, s.calRuns.find? (fun r => r.chain.val == c) with
    | .calRun, some o => { s with calRuns := s.calRuns.map (fun r => if r = o then { r with preempted := r.preempted + 1 } else r) }
    | _, _ => { s with calTail := (s.calTail.filter (· != (c, g))) ++ [(c, g)] }
  setChain s c { x with st := .synthOn, freq := 0, holder := .none, back := false, target := some (.synthOn, s.now + usC 2), want := none }

/-! ### PA-on time (R240, R248, R259) -/

/-- Whether a chain's PA is on: from the start of ramp-up to the end of ramp-down, 2 µs after a stop's cause at the latest. -/
def paOn (s : State) (c : Nat) : Bool :=
  match (chainSt s c).paSince with
  | some t => decide (t ≤ s.now) && ((chainSt s c).stop.isNone || decide (s.now < (chainSt s c).stopAt + 819))
  | none => false

/-- The PA-on time of a chain so far, in TIME cycles. -/
def paTime (s : State) (c : Nat) : Nat :=
  match (chainSt s c).paSince with
  | some t => paTill s (chainSt s c) - t
  | none => 0

/-- PA-on time goes to the chain's counter, to Quench and to the flow of the item. -/
def accountAir (s : State) (c : Nat) (i : Option Item) : State :=
  let x := chainSt s c
  let us := paTime s c * 10 / 4096
  let n := paTime s c * 10 + x.airRest
  let s := settle (setChain (bumpBy s (0x6B0 + c) (n / 4096)) c { x with airRest := n % 4096 }) c
  match i with
  | some i =>
    (match i.src with
     | .flow f _ _ => setFlow s f { flow s f with airUs := min (2 ^ 64 - 1) ((flow s f).airUs + us) }
     | _ => s)
  | none => s

/-- A transition into TX or a probe ends at once: the PA is off, and the chain stands in Synth-on within 2 µs, when blanking ends
(R217, R218, R240, R250). `lo` is what the synthesiser then stands at. -/
def cutTx (s : State) (c : Nat) (holder : ChHolder) (lo : Nat) : State :=
  let s := accountAir s c none
  let x := chainSt s c
  setChain s c { x with st := .synthOn, holder := holder, freq := lo, target := some (.synthOn, s.now + usC 2), paSince := none,
                        clamp := none, stop := none, causes := [], downAt := none, pdet := none, want := none }

/-- A transmit ME takes the chain from a calibration or a tuner probe (R209, R227); the window's own calibration is one too. -/
def preempt (s : State) (c : Nat) : State :=
  let x := chainSt s c
  match x.holder with
  | .item _ => s
  | .tune =>
    let s := { s with tunes := s.tunes.map (fun j => if j.chain.val = c then { j with probe := none } else j) }
    if x.st = .cal then abandonCal s c
    else if x.blankFrom.isSome then cutTx s c .none x.freq
    else if x.target.isSome then
      setChain s c { x with st := .synthOn, holder := .none, freq := 0, target := some (.synthOn, s.now + usC 2), want := none }
    else setChain s c { x with holder := .none }
  | _ => if x.st = .cal then abandonCal s c else setChain s c { x with holder := .none }

/-- ARBITER_DECISION (R198 to R209): the decision, in the `sub`-th cycle of the arbiter's own clock within the present TIME cycle, the
requests first presented then and the requesters whose grants have ended; at a chain arbiter the grant that ends a calibration or
probe. -/
def execArbiterDecision (dt : Nat) (a : Fin 52) (presented : List ArbReq) (releases : List Nat) (sub : Nat) (s : State) :
    Host.Outcome State Fault Refusal :=
  live dt s (fun s =>
    let s := arbDecide s a.val (arbCycles a.val s.now + sub) presented releases
    if 40 ≤ a.val ∧ presented.any (fun r => r.code == a.val - 40 + 2) then preempt s (a.val - 40) else s)

/-! ### Bellows (R219 to R221) -/

/-- Whether no transmit ME, calibration or tuner search has a chain and no transmission blanks from it. -/
def chainIdle (s : State) (c : Nat) : Bool :=
  let x := chainSt s c
  chainEnabled s c && x.holder == .none && x.next.isNone && x.st != .tx && x.st != .cal && x.blankFrom.isNone

/-- Whether Bellows may choose a chain's state: no open receive holds it either, a frame past its header check included (R219,
R280). -/
def bellowsFree (s : State) (c : Nat) : Bool :=
  chainIdle s c && decide ((chainSt s c).openTill ≤ s.now) && !laneHolds s c

/-- The earlier of two times, of which either may be absent. -/
def earlier : Option Nat → Option Nat → Option Nat
  | none, b => b
  | a, none => a
  | some a, some b => some (min a b)

def earliest (ts : List (Option Nat)) : Option Nat := ts.foldl earlier none

/-- The first base slot after `a` at which a cell falls. -/
def nextFall (s : State) (c : Cell) (a : Nat) : Option Nat :=
  let m := sfMult s c.sf
  let n := m * sfLen s c.sf
  if sfRuns s c.sf ∧ 0 < n ∧ m * c.slot < n then
    some (m * c.slot + n * ((a + n - m * c.slot) / n))
  else none

/-- The next receive opening of a chain's band in cell-driven mode: a use-2 cell's base slot (R219, R220, R346). -/
def nextOpening (s : State) (b : Nat) : Option Nat :=
  if par s (0xD002 + b) ≠ 1 then none
  else match asnNow s with
    | none => none
    | some a =>
      earliest (((cells s).filter (fun c => c.use == 2 && c.band == b)).map (fun c =>
        (nextFall s c a).map (fun n => cyclesAt s (slotStart s n) - s.now)))

/-- The instant of the next cell on a chain with pending transmit work, as the band scheduler has given it (R219). -/
def nextWork (s : State) (c : Nat) : Option Nat :=
  earliest ((s.mac.items.filter (fun i => i.st == .eligible && (i.chain.map (·.val)) == some c)).map (fun i =>
    some (cyclesAt s i.instant - s.now)))

/-- Whether no cell of a band with transmit or acknowledgement use overlaps the base slots from `a` to `a + m − 1` (R239). -/
def slotQuiet (s : State) (b a m : Nat) : Bool :=
  !(cells s).any (fun c => c.band == b && c.use != 2 &&
    (List.range (m + sfMult s c.sf - 1)).any (fun k => decide (sfMult s c.sf ≤ a + 1 + k) && cellFalls s c (a + 1 + k - sfMult s c.sf)))

/-- A band's governing slotframe: the lowest running one with cells on the band (R149). -/
def governing (s : State) (b : Nat) : Option Nat :=
  (List.range 16).find? (fun f => sfRuns s f && (cells s).any (fun c => c.sf == f && c.band == b))

/-- Base slots of a slot of a band's governing slotframe that begins at base slot `a`; none where none begins there. With no governing
slotframe every base slot is one. -/
def governingSlot (s : State) (b a : Nat) : Option Nat :=
  match governing s b with
  | some f => (sfSlot s f a).map (fun _ => sfMult s f)
  | none => some 1

/-- The next slot at which a TUNE that waits for a chain can start its probe, among the next 256 base slots (R219, R239). -/
def nextProbe (s : State) (c : Nat) : Option Nat :=
  if s.tunes.any (fun j => j.chain.val == c && j.probe.isNone) then
    match asnNow s with
    | none => none
    | some a =>
      let fits (n : Nat) : Bool := match governingSlot s (bandOf c) n with | some m => slotQuiet s (bandOf c) n m | none => false
      ((List.range 256).find? (fun k => fits (a + 1 + k))).map (fun k => cyclesAt s (slotStart s (a + 1 + k)) - s.now)
  else none

/-- Grid points that the installed channel plan can transmit on, ascending (R226). -/
def planPoints (s : State) (b : Nat) : List Nat :=
  let used := (s.image.plan.filter (fun e => e.1 / 256 == b)).map (fun e => gridOf b e.2)
  (List.range (lastGrid b + 1)).filter (fun g => used.contains g)

/-- When the background may calibrate an unusable entry: a FAILED one rests for rad.cal.retry (R226). In seconds from now. -/
def calRest (s : State) (c g : Nat) : Nat :=
  if calState s c g = 3 then fld (peek s (calAddr c g + 1)) 39 0 + par s 0x1802 - nowSeconds s else 0

/-- Whether the background may calibrate an unusable entry now. -/
def calDue (s : State) (c g : Nat) : Bool := !calUsable s c g && calRest s c g == 0

/-- The next background calibration due on a chain (R219, R226). -/
def nextCal (s : State) (c : Nat) : Option Nat :=
  if !parB s 0x1801 then none
  else
    let b := bandOf c
    if (List.range (lastGrid b + 1)).any (fun g => calUsable s c g && !calFresh s c g) then some 0
    else earliest ((planPoints s b).map (fun g => if calUsable s c g then none else some (secC (calRest s c g))))

/-- T: the time to a chain's next known event, in TIME cycles (R219). -/
def nextEvent (s : State) (c : Nat) : Option Nat :=
  earliest [nextWork s c, nextOpening s (bandOf c), nextCal s c, nextProbe s c]

/-- Gate of an engine from the time to its next event (R221). -/
def gateFor (s : State) (next : Option Nat) : BitVec 2 :=
  if par s 0xD400 = 0 then 0
  else match next with
    | none => 2
    | some t => if usC (par s 0xD000) ≤ t then 2 else if usC (par s 0xD001) ≤ t then 1 else 0

/-- Whether a band receives: an enabled chain of it receives continuously or has an open receive (R220, R221). -/
def bandReceives (s : State) (b : Nat) : Bool :=
  (List.range 4).any (fun k => chainEnabled s (4 * b + k) && receives s (4 * b + k))

/-- Whether a DV engine has an active demodulation context. -/
def dvActive (s : State) (d : Nat) : Bool :=
  s.rx.chans.any (fun e => [e.2.lane0, e.2.lane1].any (fun x => match x.ctx with | some n => n / 18 == d | none => false)) ||
    s.rx.tails.any (fun t => t.ctx / 18 == d)

def setGate (s : State) (n : Nat) (g : BitVec 2) : State := { s with engines := tblPut s.engines n { engine s n with gate := g } }

/-- Bellows' gates of the engines that no chain names: a receive ME goes by the nearest event of any chain (DESIGN CHOICE, log 218: R221
gives it no T of its own), an idle DV engine is gated, and neither is retained while any band receives (R221). -/
def gateShared (s : State) : State :=
  let t := earliest ((List.range 12).map (nextEvent s))
  let on := [0, 1, 2].any (bandReceives s)
  let kept (g : BitVec 2) : BitVec 2 := if on && g == 2 then 1 else g
  let s := [14, 15, 16, 17].foldl (fun s n => setGate s n (kept (gateFor s t))) s
  (List.range 8).foldl (fun s d =>
    let idle : BitVec 2 := if par s 0xD400 = 0 then 0 else if kept (gateFor s t) = 2 then 2 else 1
    setGate s (18 + d) (if dvActive s d then 0 else idle)) s

/-- BELLOWS_CHOICE (R219 to R221). -/
def execBellowsChoice (dt : Nat) (chain : Chain) (s : State) : Host.Outcome State Fault Refusal :=
  live dt s (fun s =>
    let c := chain.val
    let next := nextEvent s c
    let s := gateShared (setGate s (2 + c) (gateFor s next))
    if !bellowsFree s c then s
    else if par s (0xD002 + bandOf c) = 0 then goTo s c .rx
    else match next with
      | none => goTo s c .sleep
      | some t =>
        if usC (par s 0xD000) ≤ t then goTo s c .sleep
        else if usC (par s 0xD001) ≤ t then goTo s c .standby
        else goTo s c .synthOn)

/-! ### Calibration (R225 to R227, R256) -/

/-- The next point of a chain's CAL_RUN, or its end; a disabled chain calibrates no more (R215, R256). -/
def stepCalRun (s : State) (c : Nat) (failed : Bool) : State :=
  match s.calRuns.find? (fun r => r.chain.val == c) with
  | none => release s c
  | some r =>
    let r := { r with points := r.points.tail, done := r.done + (!failed).toNat, failed := r.failed + failed.toNat }
    let s := { s with calRuns := s.calRuns.map (fun x => if x.hc == r.hc && x.job == r.job then r else x) }
    if !chainEnabled s c then release s c
    else match r.points with
      | g :: _ => startCal s c g .calRun
      | [] => release (finishCalRun s r (if r.failed = 0 then stOk else stCalFailed)) c

/-- The corrections of a chain's 16 gain indices, measured with its window's grid point (R269). What the chain measures is no input of
the row: a free value stands for each. -/
def measureGains (s : State) (c : Nat) : State :=
  let r := (List.range 16).foldl (fun (r : State × List Word) _ => ((drawFree r.1).1, r.2 ++ [(drawFree r.1).2])) (s, [])
  setChain r.1 c { chainSt r.1 c with corrections := some r.2 }

/-- CAL_END (R225). -/
def execCalEnd (dt : Nat) (chain : Chain) (locked : Bool) (vcoBand : BitVec 6) (cap kv : BitVec 8) (loI loQ : BitVec 12)
    (s : State) : Host.Outcome State Fault Refusal :=
  live dt s (fun s =>
    let c := chain.val
    let b := bandOf c
    let x := chainSt s c
    if x.st ≠ .cal then s
    else
      let g := x.calPoint
      let a := calAddr c g
      let window := gridOf b (windowLo s b)
      let s := readCal (bump s (0x670 + c)) c g
      let s := if locked then
          let w := at' 0 1 ||| at' 2 vcoBand.toNat ||| at' 8 cap.toNat ||| at' 16 kv.toNat |||
            at' 24 (BitVec.ofInt 8 (bandTemp s b)).toNat ||| at' 32 loI.toNat ||| at' 44 loQ.toNat |||
            at' 56 (fld (peek s a) 59 56)
          writeWords s a [w, at' 0 (nowSeconds s) ||| at' 40 (gridFreq b g)]
        else bump (raiseEv (markCal s c g 3 true) 102 (at' 0 c) (BitVec.ofNat 72 (gridFreq b g))) (0x690 + c)
      let s := if locked && g == window then measureGains s c else s
      let stand (s : State) (lo : Nat) : State :=
        setChain s c { chainSt s c with st := .synthOn, target := none, freq := if locked then lo else 0 }
      let windowFreq := if g = window then windowLo s b else gridFreq b g
      let s := { s with calTail := s.calTail.filter (· != (c, g)) }
      match x.holder with
      | .item id =>
        (match findItem s id with
         | some i =>
           let lo := txLo s b i.freq (occupied s b i.mode)
           if i.useCal ∧ g = gridOf b lo then
             if locked then proceed (stand (setItem s { i with useCal := false }) lo) c else failItem (stand s 0) i stCalFailed
           else proceed (stand s windowFreq) c
         | none => release (stand s windowFreq) c)
      | .calRun => stepCalRun (stand s windowFreq) c (!locked)
      | .tune =>
        (match s.tunes.find? (fun j => j.chain.val == c && j.probe.isSome) with
         | some j =>
           let lo := txLo s b j.freq 0
           if g = gridOf b lo then
             if locked then proceed (stand s lo) c else release (endTune (stand s 0) j stCalFailed [0, 0] false) c
           else proceed (stand s windowFreq) c
         | none => release (stand s windowFreq) c)
      | .background =>
        let s := stand s windowFreq
        let s := setChain s c { chainSt s c with holder := .none, back := receives s c && chainEnabled s c }
        if x.next.isSome then proceed s c else release s c
      | .none =>
        let s := stand s windowFreq
        if x.next.isSome then proceed s c else release s c)

/-- Whether the background may take a chain: it waits for nothing and stands still. A lane's hold governs Bellows alone (R280). -/
def backgroundFree (s : State) (c : Nat) : Bool := chainIdle s c && (chainSt s c).target.isNone && !(s.calRuns.any (fun r => r.chain.val == c))

/-- The chains of a band with their grid points, lowest grid point first and then lowest chain. -/
def bandEntries (s : State) (b : Nat) (gs : List Nat) : List (Nat × Nat) :=
  gs.flatMap (fun g => ((List.range 4).map (fun k => (4 * b + k, g))).filter (fun e => backgroundFree s e.1))

/-- The stale entry of the largest temperature difference. -/
def stalest (s : State) (es : List (Nat × Nat)) : Option (Nat × Nat) :=
  es.foldl (fun m e => match m with
    | none => some e
    | some h => if calDrift s h.1 h.2 < calDrift s e.1 e.2 then some e else some h) none

/-- The background's next point on a band: unusable entries of the plan, then stale ones, then those put back at the tail (R226,
R227). -/
def backgroundPoint (s : State) (b : Nat) : Option (Nat × Nat) :=
  let held (e : Nat × Nat) : Bool := s.calTail.contains e
  let first := (bandEntries s b (planPoints s b)).filter (fun e => calDue s e.1 e.2 && !held e)
  let stale := (bandEntries s b (List.range (lastGrid b + 1))).filter (fun e => calUsable s e.1 e.2 && !calFresh s e.1 e.2)
  let tail := s.calTail.filter (fun e => bandOf e.1 == b && backgroundFree s e.1 && (calDue s e.1 e.2 || stale.contains e))
  (first.head?.or (stalest s (stale.filter (fun e => !held e)))).or tail.head?

/-- Whether the background has taken a chain of the band out of receive and it is not yet back. -/
def backgroundBusy (s : State) (b : Nat) : Bool :=
  (List.range 4).any (fun k => (chainSt s (4 * b + k)).holder == .background || (chainSt s (4 * b + k)).back)

/-- CAL_POINT_START (R226): the background's next point, where the chain is the one it lies on. -/
def execCalPointStart (dt : Nat) (chain : Chain) (s : State) : Host.Outcome State Fault Refusal :=
  live dt s (fun s =>
    let c := chain.val
    if parB s 0x1801 && !backgroundBusy s (bandOf c) then
      match backgroundPoint s (bandOf c) with
      | some (c', g) => if c' = c then toCal (readCal s c g) c g .background else s
      | none => s
    else s)

/-! ### The commit point (R229 to R231, R332) -/

/-- Time µs to a transmission from a chain's state, with a stored entry or through CAL (R217, R229). -/
def prepUs (s : State) (c : Nat) (i : Item) (st : ChState) (freq : Nat) (full : Bool) : Nat :=
  let b := bandOf c
  let synth := if full then 160 else 22
  let lo := txLo s b i.freq (occupied s b i.mode)
  if st = .rx ∧ lo = windowLo s b ∧ freq = lo then 6 + ramp s c
  else
    let lead := match st with
      | .off => 50 + 120 + synth
      | .sleep => 120 + synth
      | .standby => synth
      | .synthOn => if freq = lo ∧ full = false then 0 else synth
      | .cal => 2 + synth
      | _ => synth
    lead + 10 + ramp s c

/-- When a chain is free for an item, and its state and frequency then (R229). -/
def chainFree (s : State) (c : Nat) : Nat × ChState × Nat :=
  let x := chainSt s c
  let after : ChState × Nat := (if x.freq = windowLo s (bandOf c) then .rx else .synthOn, x.freq)
  match x.holder with
  | .item id =>
    (match findItem s id with
     | some j => (max s.now (j.startAt + cycles6 j.air6 - usC j.rampUs + usC 4), after)
     | none => (s.now, x.st, x.freq))
  | _ =>
    if x.st = .cal then (s.now, .cal, 0)
    else match x.target with
      | some (t, e) => (max s.now e, t, x.freq)
      | none => (s.now, x.st, x.freq)

/-- The plan of R229: the start, whether CAL comes first, and whether a stale entry is used. -/
def plan (s : State) (c : Nat) (i : Item) : Nat × Bool × Bool :=
  let (free, st, freq) := chainFree s c
  let instant := cyclesAt s i.instant
  let b := bandOf c
  let lo := txLo s b i.freq (occupied s b i.mode)
  let g := gridOf b lo
  let direct := st = .rx ∧ lo = windowLo s b ∧ freq = lo
  let fast := free + usC (prepUs s c i st freq false)
  let full := free + usC (prepUs s c i st freq true)
  if direct then (max instant fast, false, false)
  else if calUsable s c g = false then (max instant full, true, false)
  else if calFresh s c g then (max instant fast, false, false)
  else if full ≤ instant then (instant, true, false)
  else (max instant fast, false, true)

/-- The power of an item's transmission: its requested power after R332, capped as at its commit point, lowered by the back-off that
stands at its start, and floored (R231 steps 1 to 3, R332). -/
def itemPower (s : State) (c : Nat) (i : Item) : Int :=
  let b := bandOf c
  let m := packetMode s b i.mode
  let p := bandMax b
  let p := if c % 4 = 0 then
      let p := if modePhy m = 2 then min p (bandMax b - 4 * (par s (0xB800 + b) : Int)) else p
      p - 4 * ((tblAt s.mac.maskBackoff (32 * b + i.mode) 0 : Nat) : Int)
    else p
  max (-48) (min p i.power - 4 * ((chainSt s c).backoff : Int))

/-- The first failure of the four checks before the frame is read (R229). -/
def commitCheck (s : State) (c : Nat) (air6 : Nat) (start limit : Nat) : Option Status :=
  if chainEnabled s c = false then some stChainDisabled
  else if (chainSt s c).halted then some stTxHalted
  else if s.clk.limit then some stRefHoldover
  else if 6000 * par s (0x1C00 + c) < air6 then some stTxTooLong
  else if limit < start then some stTxLate
  else none

/-- The transmit ME of a committed item takes its chain, or waits behind the transmission in progress. -/
def takeChain (s : State) (c : Nat) (i : Item) : State :=
  let s := preempt s c
  let x := chainSt s c
  let e := engine s (2 + c)
  let s := { s with engines := tblPut s.engines (2 + c) { e with gate := 0 } }
  match x.holder with
  | .item _ => setChain s c { x with next := some i.id }
  | _ =>
    if x.blankFrom.isSome then setChain s c { x with next := some i.id }
    else proceed (setChain s c { x with holder := .item i.id, want := none }) c

/-- Not an item that the host or a flow sees: a beacon or an acknowledgement. -/
def quiet (i : Item) : Bool := match i.src with | .host _ _ _ => false | .flow _ _ _ => false | _ => true

/-- TX_COMMIT (R229, R30): at an ELIGIBLE item's commit point, 300 µs before its instant, or at once where an acknowledgement is
decided later than that (R357). The attempt counts from here, whatever the checks find: R366 has the item COMMITTED before they are
made (DEDUCED, log 231). -/
def execTxCommit (dt : Nat) (item : Nat) (s : State) : Host.Outcome State Fault Refusal :=
  live dt s (fun s =>
    match findItem s item with
    | none => s
    | some i =>
      match i.chain with
      | none => s
      | some ch =>
        let c := ch.val
        if i.st ≠ .eligible ∨ due s (cyclesAt s i.instant - usC 300) = false then s
        else if i.src = .group ∧ (groupEntries s i).isEmpty then setItems s (fun is => is.filter (fun x => x.id != i.id))
        else
          let psdu := i.psdu
          let air6 := airtime6 s (bandOf c) i.mode psdu (ramp s c)
          let s := readCal s c (gridOf (bandOf c) (txLo s (bandOf c) i.freq (occupied s (bandOf c) i.mode)))
          let p := plan s c i
          let limit := cyclesAt s i.instant + usC i.tolerance
          let j := { i with attempts := i.attempts + 1, lastChain := some ch, lastAsn := i.asn, txTime := 0,
                            ackWait := par s (0x28C4 + bandOf c) }
          match commitCheck s c air6 p.1 limit with
          | some st => failItem (if st = stTxLate then bump s (0x610 + c) else s) j st
          | none =>
            match buildFrame s i p.1 with
            | (s, .inr st) => failItem (if i.src = .ack then bump s (0xE0B + 32 * i.band.val) else s) j st
            | (s, .inl out) =>
              let s := if p.2.2 then bump s (0x6A0 + c) else s
              let s := if i.src = .group then
                  bumpBy s (0xE0D + 32 * bandOf c) (groupEntries s i).length else s
              let s := if i.src = .group then
                  { s with mac := { s.mac with groups := s.mac.groups.filter (fun g => !(g.band == i.band && g.domain == i.domain && g.asn == i.asn)),
                                               seqNo := s.mac.seqNo + 1 } } else s
              let j := { j with st := .committed, frame := out, psdu := out.length, startAt := p.1,
                                useCal := p.2.1, stale := p.2.2, power := parI s (0x1460 + c), rampUs := ramp s c,
                                curve := par s (0x1420 + c),
                                air6 := airtime6 s (bandOf c) i.mode out.length (ramp s c) }
              takeChain (setItem s j) c j)

/-! ### Quench's grant (R245, R246) -/

/-- A refusal of Quench: its event and counter. -/
def regRefused (s : State) (c reason freq : Nat) : State :=
  bump (raiseEv s 99 (at' 0 c ||| at' 4 reason) (BitVec.ofNat 72 freq)) (0x630 + c)

/-- Quench's checks of a request: the governing entry, or the reason of a refusal (R244, R245). -/
def quenchCheck (s : State) (c freq bw air6 : Nat) : Nat ⊕ Nat :=
  let q := s.quench
  if q.valid = false then .inr 0
  else match quenchEntry q freq bw with
    | none => .inr 0
    | some e =>
      let a := quenchA q e
      let dwell := fld (quenchB q e) 15 0
      if a.getLsbD 63 || (a.getLsbD 62 && c % 4 != 0) then .inr 0
      else if dwell ≠ 0 ∧ dwell * 600 < air6 then .inr 2
      else if allowance q e < binsSum q e + reserved q e + ticks6 air6 then .inr 1
      else .inl e

/-- A transmission as its transition into TX takes it up: declared airtime in sixths of a µs, power before the Quench clamp, ramp time
and curve, and the mode whose chain-0 filter it passes. -/
structure TxSpec where
  air6 : Nat
  power : Int
  rampUs : Nat
  curve : Nat
  filter : List (BitVec 18)

/-- Quench's grant: the duty is reserved, the power clamped, and the transition into TX begins with the bands blanked; the parameters
of "the next transmission" and "the next PA enable" are taken up (R245, R246, R250, R258). The PA comes on at `paAt`. -/
def quenchGrant (s : State) (c : Nat) (e : Nat) (x : TxSpec) (paAt : Nat) : State :=
  let q := s.quench
  let cap := sOctet (fld (quenchA q e) 51 44) - extGain q c
  let clamp := decide (cap < x.power)
  let set := if clamp then cap else x.power
  let s := if clamp then
      bump (raiseEv s 100 (at' 0 c ||| at' 4 (BitVec.ofInt 8 x.power).toNat ||| at' 12 (BitVec.ofInt 8 cap).toNat) 0) (0x640 + c)
    else s
  let s := { s with quench := { s.quench with reserves := s.quench.reserves ++ [⟨e, Fin.ofNat 12 c, ticks6 x.air6⟩] } }
  let y := chainSt s c
  let s := setChain s c
    { y with target := some (.tx, paAt), blankFrom := some s.now, paSince := some paAt, blanks := blankedBy s (bandOf c), setPower := set,
             drive := set, clamp := some cap, rampUs := x.rampUs, curve := x.curve, filter := x.filter, downAt := none,
             timeout := par s (0x1C00 + c), pdet := if parB s (0x1440 + c) then some (paAt + usC x.rampUs) else none,
             rlSum := 0, rlCount := 0, stop := none, causes := [], mask := parB s (0x1C20 + bandOf c) }
  trackBlank (bump s (0x600 + c))

/-- Whether a chain stands ready for a transition into TX on a synthesiser frequency. -/
def readyForTx (s : State) (c lo : Nat) (useCal : Bool) : Bool :=
  let x := chainSt s c
  x.target.isNone && x.freq == lo && ((x.st == .synthOn && !useCal) || (x.st == .rx && lo == windowLo s (bandOf c)))

/-- Lead of the TX transition pattern before ramp-up, µs (R217, R233). -/
def leadUs (s : State) (c : Nat) : Nat := if (chainSt s c).st = .rx then 6 else 10

/-- Airtime of a probe in sixths of a µs: its search and both ramps (R238). -/
def probeAir6 (s : State) (c : Nat) (refine : Bool) : Nat := (if refine then 76 else 356) * 6 + 12 * ramp s c

/-- The coefficients of the filter slot that a mode names on chain 0 of a band (R252, R331). -/
def chainFilter (s : State) (c : Nat) (m : Word) : List (BitVec 18) :=
  if c % 4 = 0 ∧ modeFilter m ≠ 0 then tblAt s.image.filters (15 * bandOf c + modeFilter m - 1) [] else []

/-- QUENCH_PA_REQUEST (R245): at the start of the transition into TX of the item or probe that holds a chain. -/
def execQuenchPaRequest (dt : Nat) (chain : Chain) (s : State) : Host.Outcome State Fault Refusal :=
  live dt s (fun s =>
    let c := chain.val
    let b := bandOf c
    let x := chainSt s c
    match x.holder with
    | .item id =>
      (match findItem s id with
       | some i =>
         let bw := occupied s b i.mode
         let lead := usC (leadUs s c + i.rampUs)
         if i.st = .committed ∧ readyForTx s c (txLo s b i.freq bw) i.useCal ∧ due s (i.startAt - lead) then
           if !chainEnabled s c then failItem s i stChainDisabled
           else match quenchCheck s c i.freq bw i.air6 with
           | .inr reason => failItem (regRefused s c reason i.freq) i stRegRefused
           | .inl e =>
             let start := max i.startAt (s.now + lead)
             let s := quenchGrant s c e ⟨i.air6, itemPower s c i, i.rampUs, i.curve, chainFilter s c (txMode s b i.mode)⟩
               (start - usC i.rampUs)
             let s := if modeSwitch (txMode s b i.mode) then bump s (0xC10 + b) else s
             setItem s { i with st := .onAir, startAt := start }
         else s
       | none => s)
    | .tune =>
      (match s.tunes.find? (fun j => j.chain.val == c && j.probe.isSome) with
       | some j =>
         if readyForTx s c (txLo s b j.freq 0) false then
           if !chainEnabled s c then release (endTune s j stChainDisabled [0, 0] false) c
           else match quenchCheck s c j.freq 0 (probeAir6 s c j.refine) with
           | .inr reason => release (endTune (regRefused s c reason j.freq) j stRegRefused [0, 0] false) c
           | .inl e =>
             quenchGrant s c e ⟨probeAir6 s c j.refine, -40, ramp s c, par s (0x1420 + c), []⟩ (s.now + usC (leadUs s c))
         else s
       | none => s)
    | _ => s)

/-! ### During a transmission (R234 to R241, R247) -/

/-- Precedence of stop causes within one TIME cycle (R240). -/
def stopRank (st : Status) : Nat :=
  if st = stRegCut then 0 else if st = stTxAbortMismatch then 1 else if st = stSynthUnlock then 2 else 3

/-- Whether a cause still acts on a chain: it is its first, or falls in the cycle of the first and is new there (R240). -/
def mayStop (s : State) (c : Nat) (st : Status) : Bool :=
  let x := chainSt s c
  x.stop.isNone || (x.stopAt == s.now && !x.causes.contains st)

/-- A cause stops the transmission of a chain: the first cause, and within one cycle the first in R240's order. -/
def stopTx (s : State) (c : Nat) (st : Status) : State :=
  let x := chainSt s c
  let first : Bool := match x.stop with | none => true | some o => decide (stopRank st < stopRank o)
  setChain s c { x with stop := if first then some st else x.stop, stopAt := s.now, causes := x.causes ++ [st] }

/-- QUENCH_CUT (R247). -/
def execQuenchCut (dt : Nat) (chain : Chain) (s : State) : Host.Outcome State Fault Refusal :=
  live dt s (fun s =>
    let c := chain.val
    match s.quench.reserves.find? (fun r => r.chain.val == c) with
    | none => s
    | some r =>
      let dwell := fld (quenchB s.quench r.entry) 15 0
      let long : Bool := decide (dwell ≠ 0 ∧ usC (100 * dwell) ≤ paTime s c)
      if (paOn s c && mayStop s c stRegCut) = false then s
      else if long ∨ allowance s.quench r.entry ≤ dutyRunning s r.entry then
        let freq := match (chainSt s c).holder with
          | .item id => (match findItem s id with | some i => i.freq | none => (chainSt s c).freq)
          | _ => (chainSt s c).freq
        let s := raiseEv s 99 (at' 0 c ||| at' 4 (if long then 2 else 1)) (BitVec.ofNat 72 freq)
        stopTx (bump s (0x650 + c)) c stRegCut
      else s)

/-- Whether a chain transmits at full power: neither ramp runs. -/
def atFullPower (s : State) (c : Nat) : Bool :=
  let x := chainSt s c
  x.st == .tx && x.target.isNone && (match x.downAt with | some t => decide (s.now < t) | none => true)

/-- RETURN_LOSS_READING (R235, R237): evaluated between the ramps at −10 dBm forward power or more. -/
def execReturnLossReading (dt : Nat) (chain : Chain) (rl : BitVec 8) (forwardQdbm : Int) (s : State) :
    Host.Outcome State Fault Refusal :=
  live dt s (fun s =>
    let c := chain.val
    let x := chainSt s c
    if atFullPower s c ∧ mayStop s c stTxAbortMismatch ∧ -40 ≤ forwardQdbm ∧ x.holder ≠ .tune then
      let s := setChain s c { x with rlSum := x.rlSum + rl.toNat, rlCount := x.rlCount + 1 }
      if rl.toNat < 4 * par s 0x1C11 then
        let s := bump (raiseEv s 97 (at' 0 c ||| at' 4 rl.toNat) 0) (0x620 + c)
        let x := chainSt s c
        let aborts := x.aborts + 1
        stopTx (setChain s c { x with backoff := 12, aborts := aborts, halted := x.halted || decide (3 ≤ aborts) }) c stTxAbortMismatch
      else s
    else s)

/-- PDET_STEP (R234): every 16 µs from the end of ramp-up, 0.25 dB towards the set power, within 3 dB of it and never above the clamp.
The last of the 16 samples decides (DESIGN CHOICE, log 217). -/
def execPdetStep (dt : Nat) (chain : Chain) (sample : BitVec 12) (s : State) : Host.Outcome State Fault Refusal :=
  live dt s (fun s =>
    let c := chain.val
    let x := chainSt s c
    match x.pdet with
    | none => s
    | some t =>
      if atFullPower s c ∧ x.stop.isNone ∧ due s (t + usC 16) then
        let measured := tblAt s.image.detector (4096 * bandOf c + sample.toNat) 0
        let d := if measured < x.setPower then x.drive + 1 else if x.setPower < measured then x.drive - 1 else x.drive
        let d := max (x.setPower - 12) (min (x.setPower + 12) d)
        let d := match x.clamp with | some k => min k d | none => d
        setChain s c { x with drive := d, pdet := some (t + usC 16) }
      else s)

/-- TX_TIMEOUT (R240, R241): the PA has been on for the timeout that its enable took up. -/
def execTxTimeout (dt : Nat) (chain : Chain) (s : State) : Host.Outcome State Fault Refusal :=
  live dt s (fun s =>
    let c := chain.val
    if paOn s c ∧ mayStop s c stTxTimeout ∧ msC (chainSt s c).timeout ≤ paTime s c then
      stopTx (bump (raiseEv s 98 (at' 0 c) 0) (0x660 + c)) c stTxTimeout
    else s)

/-- What a loss of lock does to whoever holds the chain (R228, R257): a transmission on air stops; an item or TUNE in preparation ends
with ST_SYNTH_UNLOCK and AIR clear, from a transition into TX too; a receiving chain regains its window through CAL. -/
def loseLock (s : State) (c : Nat) : State :=
  let x := chainSt s c
  let cut (s : State) : State :=
    if x.blankFrom.isSome then cutTx s c x.holder 0 else setChain s c { chainSt s c with freq := 0, st := .synthOn, target := none }
  if paOn s c then (if mayStop s c stSynthUnlock then stopTx s c stSynthUnlock else s)
  else match x.holder with
    | .item id =>
      (match findItem s id with
       | some i => failItem (cut s) i stSynthUnlock
       | none => s)
    | .tune =>
      (match s.tunes.find? (fun j => j.chain.val == c && j.probe.isSome) with
       | some j =>
         let s := endTune (cut s) j stSynthUnlock [0, 0] false
         if (chainSt s c).target.isSome then setChain s c { chainSt s c with holder := .none } else release s c
       | none => s)
    | _ =>
      let s := setChain s c { x with freq := 0 }
      if x.st = .rx then
        let s := startCal s c (gridOf (bandOf c) (windowLo s (bandOf c))) x.holder
        setChain s c { chainSt s c with want := some .rx }
      else s

/-- EV_SYNTH_UNLOCK (R228): the lock detector watches in Synth-on, RX and TX, not while the synthesiser is set to another frequency. -/
def execEvSynthUnlock (dt : Nat) (chain : Chain) (s : State) : Host.Outcome State Fault Refusal :=
  live dt s (fun s =>
    let c := chain.val
    let b := bandOf c
    let x := chainSt s c
    if (x.st = .synthOn ∨ x.st = .rx ∨ x.st = .tx) ∧ x.freq ≠ 0 then
      let s := markCal (readCal s c (gridOf b x.freq)) c (gridOf b x.freq) 2 false
      loseLock (raiseEv s 103 (at' 0 c) (BitVec.ofNat 72 x.freq)) c
    else s)

/-- The low and good counts and the back-off after a transmission with a return loss (R236). -/
def mismatch (s : State) (c : Nat) : State :=
  let x := chainSt s c
  if x.rlCount = 0 then s
  else
    let mean := x.rlSum / x.rlCount
    let th := 4 * par s 0x1C10
    let low := if mean < th then x.low + 1 else 0
    let good := if th + 12 ≤ mean then x.good + 1 else 0
    let fall := decide (8 ≤ good)
    let x := { x with low := low, good := if fall then 0 else good, backoff := if fall then x.backoff - 6 else x.backoff }
    if par s 0x1C12 ≤ low then
      let b := min 12 (x.backoff + 6)
      raiseEv (setChain s c { x with low := 0, backoff := b }) 96 (at' 0 c ||| at' 4 (min 255 mean) ||| at' 12 b) 0
    else setChain s c x

/-- Whether a transmission's levels at a mask slot's points violate it (R334). -/
def maskViolated (points : List (Nat × Int)) (levels : List Int) : Bool :=
  (List.zip points levels).any (fun p => decide (p.1.2 + 2 < p.2))

/-- The mask monitor at the end of a chain-0 transmission (R334, R335). `levels` are the measured levels of the points
in 0.5 dB relative to the reference, `span` the time between the ramps. -/
def maskEvaluate (s : State) (c : Nat) (i : Item) (span : Nat) (levels : List Int) : State :=
  let b := bandOf c
  let slot := modeMask (txMode s b i.mode)
  let points := tblAt s.image.masks (7 * b + slot - 1) []
  let k := 32 * b + i.mode
  if c % 4 ≠ 0 ∨ slot = 0 ∨ points.isEmpty ∨ (chainSt s c).mask = false ∨ span < usC 500 then s
  else
    let s := bump s (0xC00 + b)
    let m := s.mac
    if maskViolated points levels then
      let s := bump s (0xC04 + b)
      let recent := (tblAt m.maskAt b []).filter (fun t => decide (s.now < t + secC 1))
      let s := { s with mac := { m with maskBackoff := tblPut m.maskBackoff k (min (par s 0x1C24) (tblAt m.maskBackoff k 0 + par s 0x1C23)),
                                        maskClean := tblPut m.maskClean k 0,
                                        maskAt := tblPut m.maskAt b (if recent.length < 10 then recent ++ [s.now] else recent) } }
      if recent.length < 10 then raiseEv s 104 (at' 0 b) (BitVec.ofNat 72 i.freq) else s
    else
      let n := tblAt m.maskClean k 0 + 1
      if par s 0x1C25 ≤ n then
        { s with mac := { m with maskBackoff := tblPut m.maskBackoff k (tblAt m.maskBackoff k 0 - par s 0x1C23),
                                 maskClean := tblPut m.maskClean k 0 } }
      else { s with mac := { m with maskClean := tblPut m.maskClean k n } }

/-- The counters of a transmission that ended normally. -/
def countSent (s : State) (i : Item) : State :=
  let b := 32 * i.band.val
  match i.src with
  | .beacon => bump s (0xE0F + b)
  | .ack => bump s (0xE0A + b)
  | .group => bump s (0xE0C + b)
  | _ => s

/-- The chain leaves TX at the end of ramp-down: to RX where it receives on this frequency, otherwise to Synth-on; blanking ends with
the transition (R216, R217, R250). -/
def leaveTx (s : State) (c : Nat) : State :=
  let x := chainSt s c
  let t : ChState := if receives s c && chainEnabled s c && x.freq != 0 && (x.freq == windowLo s (bandOf c) || decide (s.now < x.openTill))
    then .rx else .synthOn
  setChain s c { x with st := .synthOn, holder := .none, paSince := none, clamp := none, stop := none, causes := [], downAt := none,
                        pdet := none, target := some (t, s.now + usC 4) }

/-- A ramp curve of a chain, in points (R232). -/
def rampPoints (s : State) (c : Nat) : List (BitVec 12) := tblAt s.image.curves (8 * bandOf c + (chainSt s c).curve) []

/-- What the PA plays as a transmission ends: the curve reversed, or the linear ramp of a stop (R232). -/
def playDown (s : State) (c : Nat) : State :=
  let x := chainSt s c
  emit s (if x.stop.isSome then .ramp (Fin.ofNat 12 c) [] 1 else .ramp (Fin.ofNat 12 c) (rampPoints s c).reverse x.rampUs)

/-- Whether a chain's ramp-down has ended: the linear ramp 1 µs after a stop's cause, the curve's after its own time (R232, R240). -/
def rampedDown (s : State) (c : Nat) : Bool :=
  let x := chainSt s c
  x.paSince.isSome && (match x.stop, x.downAt with
    | some _, _ => due s (x.stopAt + usC 1)
    | none, some t => due s (t + usC x.rampUs)
    | none, none => false)

/-- Time that a transmission spends between its ramps, in TIME cycles. -/
def fullSpan (x : ChainSt) : Nat :=
  match x.paSince with
  | some t => (if x.stop.isSome then x.stopAt else x.downAt.getD 0) - (t + usC x.rampUs)
  | none => 0

/-- A chain's transmission has ended: PA-on time, return-loss counts and mask are accounted. -/
def closeTx (s : State) (c : Nat) (i : Item) (levels : List Int) : State :=
  let span := fullSpan (chainSt s c)
  let s := accountAir (playDown s c) c (some i)
  let s := maskEvaluate (mismatch s c) c i span levels
  if (chainSt s c).causes.contains stSynthUnlock then setChain s c { chainSt s c with freq := 0 } else s

/-- A probe's ramp-down has ended; a stopped one ends its TUNE with the cause's status (R238, R240, R241). -/
def closeProbe (s : State) (c : Nat) : State :=
  let x := chainSt s c
  let s := accountAir (playDown s c) c none
  let s := match s.tunes.find? (fun j => j.chain.val == c && j.probe.isSome), x.stop with
    | some j, some st => endTune s j st [0, 0] true
    | _, _ => s
  let s := if x.causes.contains stSynthUnlock then setChain s c { chainSt s c with freq := 0 } else s
  leaveTx s c

/-- TX_RAMP_DOWN_END (R31, R235, R236, R240, R248, R335, R366). -/
def execTxRampDownEnd (dt : Nat) (chain : Chain) (pointLevels : List Int) (s : State) : Host.Outcome State Fault Refusal :=
  live dt s (fun s =>
    let c := chain.val
    let x := chainSt s c
    if rampedDown s c = false then s
    else match x.holder with
    | .item id =>
      (match findItem s id with
       | some i =>
         if i.st ≠ .onAir then s
         else
           let s := closeTx s c i pointLevels
           let i := { i with aired := true }
           (match x.stop with
            | some st => endItem (leaveTx s c) i st 0
            | none =>
              let s := countSent (setChain s c { chainSt s c with aborts := 0 }) i
              if i.ack then
                let till := x.downAt.getD s.now + usC i.ackWait
                let s := setChain s c { chainSt s c with openTill := till }
                leaveTx (setItem s { i with st := .awaitAck, ackAt := till }) c
              else endItem (leaveTx s c) i stOk 0)
       | none => s)
    | .tune => closeProbe s c
    | _ => s)

/-- The start of ramp-up: the PA is on and the chain in TX until the end of ramp-down (R216, R232). -/
def startRamp (s : State) (c : Nat) (at_ : Nat) : State :=
  let s := setChain s c { chainSt s c with st := .tx, target := some (.tx, at_ + usC (chainSt s c).rampUs) }
  emit s (.ramp (Fin.ofNat 12 c) (rampPoints s c) (chainSt s c).rampUs)

/-- The end of ramp-up, the transmit instant: the first symbol goes out at full power, and the ramp-down follows the last (R230). The
frame's reference point is captured: the radio frame event of R190 (R327; DESIGN CHOICE, log 220: the spec does not name these
events). -/
def endRamp (s : State) (c : Nat) (at_ : Nat) : State :=
  let s := setChain s c { chainSt s c with target := none }
  match (chainSt s c).holder with
  | .item id =>
    (match findItem s id with
     | some i =>
       let b := bandOf c
       let own := txMode s b i.mode
       let m := packetMode s b i.mode
       let s := setChain s c { chainSt s c with downAt := some (at_ + cycles6 i.air6 - 2 * usC i.rampUs) }
       let s := setItem s { i with txTime := time s }
       let s := (captureStamp s (4 + c) (BitVec.ofNat 72 (timeAt s (s.now + cycles6 (reference6 s b i.mode))))).1
       emit s (.air (Fin.ofNat 12 c) i.freq
         { mode := m, switch := if modeSwitch own then some own else none, filter := (chainSt s c).filter, psdu := psduOnAir m i.frame,
           chirps := if modePhy m = 0 then lrcChirps m i.frame else [] })
     | none => s)
  | _ => s

/-- A transition into TX that has come to its next point; a stopped one waits for its ramp-down (R217, R218, R240). -/
def advanceTx (s : State) (c : Nat) (e : Nat) : State :=
  let x := chainSt s c
  if due s e = false ∨ x.stop.isSome then s
  else if x.st = .tx then endRamp s c e
  else
    let s := startRamp s c e
    if due s (e + usC x.rampUs) then endRamp s c (e + usC x.rampUs) else s

/-- CHAIN_TRANSITION_END (R217, R218, R230, R250): of a transition into TX, the start and the end of ramp-up. -/
def execChainTransitionEnd (dt : Nat) (chain : Chain) (s : State) : Host.Outcome State Fault Refusal :=
  live dt s (fun s =>
    let c := chain.val
    let x := chainSt s c
    match x.target with
    | none => s
    | some (t, e) =>
      if x.st = .cal then s
      else if t = .tx then advanceTx s c e
      else
        let out := x.blankFrom.isSome && x.paSince.isNone
        let s := setChain s c { x with st := t, target := none, blankFrom := if out then none else x.blankFrom }
        let s := if out then trackBlank s else s
        proceed s c)

/-! ### Acknowledgement wait (R366) -/

/-- ACK_WAIT_EXPIRY (R366). -/
def execAckWaitExpiry (dt : Nat) (item : Nat) (s : State) : Host.Outcome State Fault Refusal :=
  live dt s (fun s =>
    match findItem s item with
    | some i =>
      if i.st = .awaitAck ∧ due s i.ackAt then
        let s := bump s (0xE10 + 32 * i.band.val)
        if i.retries = 0 then endItem s i stNoAck 0 else requeue s i
      else s
    | none => s)

/-! ### TUNE (R238, R239, R255) -/

/-- Whether a context may write a parameter group: no other context holds its lock (R119). -/
def groupLocked (s : State) (hc : Hc) (id : Nat) : Bool := (lockedBy s hc (groupOf id)).isSome

/-- The holder word of the other context that holds a group's lock. -/
def lockWord (s : State) (hc : Hc) (id : Nat) : Word :=
  match lockedBy s hc (groupOf id) with | some o => holderWord (some (.host o)) | none => 0

/-- Whether a frequency lies in a band (R212). -/
def inBand (b freq : Nat) : Bool :=
  decide (bandBase b ≤ freq ∧ freq ≤ (if b = 0 then 510000 else if b = 1 then 960000 else 2483500))

/-- TUNE (R239, R255). -/
def execTune (dt : Nat) (hc : Hc) (s : State) : Host.Outcome State Fault Refusal :=
  command dt hc 0x101 1 2 s (fun p s =>
    let w := p.word 1
    let c := fld w 3 0
    let f := fld w 25 4
    if reservedSet w (bits 26 0) then .undef 8
    else if 12 ≤ c then .undef 7
    else if f ≠ 0 ∧ inBand (bandOf c) f = false then .undef 7
    else if groupLocked s hc 0x1450 then .done s stLocked [lockWord s hc 0x1450]
    else if chainEnabled s c = false then .done s stChainDisabled [0, 0]
    else
      let j : TuneJob := ⟨hc, p.id, Fin.ofNat 12 c, if f = 0 then windowLo s (bandOf c) else f, w.getLsbD 26,
        s.now + msC (par s 0x1C13), none⟩
      .work { s with tunes := s.tunes ++ [j] } .elsewhere)

/-- Whether a base slot has begun in the present TIME cycle. -/
def slotBegins (s : State) (a : Nat) : Bool :=
  decide ((s.tb.value.toNat - (increment s.tb.rate).toNat) / 2 ^ 48 < slotStart s a)

/-- Whether an item is committed on a band (R239). -/
def bandCommitted (s : State) (b : Nat) : Bool := s.mac.items.any (fun i => i.band.val == b && (i.st == .committed || i.st == .onAir))

/-- TUNE_PROBE_START (R239): at a slot boundary of the governing slotframe, before a quiet slot. -/
def execTuneProbeStart (dt : Nat) (chain : Chain) (s : State) : Host.Outcome State Fault Refusal :=
  live dt s (fun s =>
    let c := chain.val
    let b := bandOf c
    match s.tunes.find? (fun j => j.chain.val == c), asnNow s with
    | some j, some a =>
      (match governingSlot s b a with
       | some m =>
         let x := chainSt s c
         if !chainEnabled s c then endTune s j stChainDisabled [0, 0] false
         else if j.probe.isNone ∧ slotBegins s a ∧ slotQuiet s b a m ∧ !bandCommitted s b ∧ s.now ≤ j.deadline ∧ chainIdle s c ∧
             x.target.isNone then
           let s := { s with tunes := s.tunes.map (fun k => if k.hc == j.hc && k.job == j.job then { k with probe := some (s.now, a) } else k) }
           proceed (setChain s c { x with holder := .tune }) c
         else s
       | none => s)
    | _, _ => s)

/-- TUNE_NO_SLOT (R239). -/
def execTuneNoSlot (dt : Nat) (chain : Chain) (s : State) : Host.Outcome State Fault Refusal :=
  live dt s (fun s =>
    match s.tunes.find? (fun j => j.chain.val == chain.val && j.probe.isNone) with
    | some j => if due s (j.deadline + 1) then endTune s j stTuneNoSlot [0, 0] false else s
    | none => s)

/-! ### The tuner search (R238) -/

/-- Capacitor codes C1, C2 and C3. -/
abbrev Codes := List Nat

def codesOf (v : BitVec 18) : Codes := [fld v 5 0, fld v 11 6, fld v 17 12]
def codesWord (cs : Codes) : BitVec 18 := BitVec.ofNat 18 (cs.getD 0 0 + 64 * cs.getD 1 0 + 4096 * cs.getD 2 0)

/-- The 64 points of a full search. -/
def tuneGrid : List Codes :=
  [8, 24, 40, 56].flatMap (fun a => [8, 24, 40, 56].flatMap (fun b => [8, 24, 40, 56].map (fun c => [a, b, c])))

/-- A search so far: the best codes with their return loss, and the readings still to come. -/
structure Search where
  best : Codes
  loss : Nat
  rest : List (BitVec 8)

/-- One point measured: it is kept where it is an improvement. -/
def tryCodes (r : Search) (cs : Codes) : Search :=
  match r.rest with
  | [] => r
  | v :: vs => if r.loss < v.toNat then ⟨cs, v.toNat, vs⟩ else { r with rest := vs }

/-- The code a step above and the code a step below the best point's in one bank; a code outside a bank's range is measured at its end
(DESIGN CHOICE, log 219). -/
def tryBank (step : Nat) (r : Search) (bank : Nat) : Search :=
  let v := r.best.getD bank 0
  let up := r.best.set bank (min 63 (v + step))
  let down := r.best.set bank (v - step)
  tryCodes (tryCodes r up) down

/-- The search from the present codes over its readings, of which the first is that of the present codes (R238). -/
def tuneSearch (present : BitVec 18) (refine : Bool) (readings : List (BitVec 8)) : Search :=
  let r : Search := ⟨codesOf present, (readings.headD 0).toNat, readings.tail⟩
  let r := if refine then r else tuneGrid.foldl tryCodes r
  ((if refine then [4, 2, 1] else [8, 4, 2, 1]) : List Nat).foldl (fun r st => [0, 1, 2].foldl (tryBank st) r) r

/-- TUNE_SEARCH_END (R238, R239, R255): the best codes are stored in rad.chain.tuner, and the probe ramps down. `readings` are the
return losses of the points in the order of the search. -/
def execTuneSearchEnd (dt : Nat) (chain : Chain) (readings : List (BitVec 8)) (s : State) : Host.Outcome State Fault Refusal :=
  live dt s (fun s =>
    let c := chain.val
    let x := chainSt s c
    match s.tunes.find? (fun j => j.chain.val == c && j.probe.isSome), x.paSince with
    | some j, some t =>
      let us := if j.refine then 76 else 356
      let id := 0x1450 + c
      if x.holder ≠ .tune ∨ atFullPower s c = false ∨ x.stop.isSome ∨ due s (t + usC (x.rampUs + us)) = false then s
      else
        let r := tuneSearch x.tuner j.refine readings
        let v : BitVec 64 := (codesWord r.best).setWidth 64
        let s := noteDirty { s with params := tblPut s.params id v, inForce := tblPut s.inForce id v }
        let x := { x with downAt := some s.now }
        let s := if 4 * par s 0x1C10 + 12 ≤ r.loss then
            setChain (if x.halted then noteFit s c else s) c { x with backoff := 0, low := 0, aborts := 0, halted := false }
          else setChain s c x
        let asn := match j.probe with | some (_, a) => a | none => 0
        endTune s j stOk
          [at' 0 (codesWord r.best).toNat ||| at' 24 (readings.headD 0).toNat ||| at' 32 r.loss, at' 0 us ||| at' 16 asn] false
    | _, _ => s)

/-! ### CHAIN_CONFIG and CAL_RUN (R254, R256) -/

/-- The change of rad.chain.enable reaches the chain: a transmission in progress ends first, and so does a transition (R215, R218,
R254). What is committed or asked for on a disabled chain ends with ST_CHAIN_DISABLED. -/
def applyEnable (s : State) (c : Nat) : State :=
  let s := noteFit s c
  let x := chainSt s c
  if chainEnabled s c then
    if x.st = .off ∧ x.target.isNone then goTo s c .sleep
    else if (x.target.map (·.1)) = some .off then setChain s c { x with want := some .sleep }
    else if x.want = some .off then setChain s c { x with want := none }
    else s
  else
    let s := endWaiting s c
    let x := chainSt s c
    if x.blankFrom.isSome then s
    else if x.st = .cal then s
    else release s c

/-- Code of a chain state in the order of R216. -/
def chStateCode : ChState → Nat
  | .off => 0 | .sleep => 1 | .standby => 2 | .synthOn => 3 | .cal => 4 | .rx => 5 | .tx => 6

/-- The 9 status bits of a chain (R254). -/
def chainStatus (s : State) (c : Nat) : Nat :=
  let x := chainSt s c
  chStateCode x.st + 8 * (x.backoff / 6) + 32 * x.halted.toNat + 64 * (chainEnabled s c).toNat + 128 * min 3 x.low

/-- One action word of CHAIN_CONFIG (R254). -/
def chainAction (s : State) (w : Word) : State × Nat :=
  let c := fld w 3 0
  let a := fld w 7 4
  if 12 ≤ c ∨ 4 ≤ a then (s, 0x1FF)
  else
    let set (s : State) (v : Nat) : State :=
      let id := 0x1400 + c
      applyEnable (noteDirty { s with params := tblPut s.params id (BitVec.ofNat 64 v), inForce := tblPut s.inForce id (BitVec.ofNat 64 v) }) c
    let x := chainSt s c
    let s := if a = 1 then set s 1 else if a = 2 then set s 0
      else if a = 3 then setChain (if x.halted then noteFit s c else s) c { x with backoff := 0, low := 0, aborts := 0, halted := false } else s
    (s, chainStatus s c)

/-- CHAIN_CONFIG (R254). -/
def execChainConfig (dt : Nat) (hc : Hc) (s : State) : Host.Outcome State Fault Refusal :=
  command dt hc 0x100 1 1 s (fun p s =>
    let ws := p.payload.take 8
    if ws.any (fun w => reservedSet w (bits 7 0)) then .undef 8
    else if ws.any (fun w => fld w 7 4 == 1 || fld w 7 4 == 2) && groupLocked s hc 0x1400 then
      .done s stLocked [lockWord s hc 0x1400]
    else
      let r := ws.foldl (fun (r : State × Nat × Nat) w =>
        let a := chainAction r.1 w
        (a.1, r.2.1 + a.2 * 2 ^ (9 * r.2.2), r.2.2 + 1)) (s, 0, 0)
      .done r.1 stOk [BitVec.ofNat 72 r.2.1])

/-- The grid points of a CAL_RUN's scope (R256). -/
def calScope (s : State) (c scope freq : Nat) : List Nat :=
  let b := bandOf c
  let all := List.range (lastGrid b + 1)
  if scope = 0 then [gridOf b freq] else if scope = 1 then all else all.filter (fun g => !calFresh s c g)

/-- CAL_RUN (R256). -/
def execCalRun (dt : Nat) (hc : Hc) (s : State) : Host.Outcome State Fault Refusal :=
  command dt hc 0x102 1 1 s (fun p s =>
    let w := p.word 1
    let c := fld w 3 0
    let scope := fld w 5 4
    if reservedSet w (bits 27 0) then .undef 8
    else if 12 ≤ c ∨ scope = 3 then .undef 7
    else if scope = 0 ∧ inBand (bandOf c) (fld w 27 6) = false then .undef 7
    else if chainEnabled s c = false then .done s stChainDisabled [0]
    else
      let points := calScope s c scope (fld w 27 6)
      if points.isEmpty then .done s stOk [0]
      else
        let r : CalRun := ⟨hc, p.id, Fin.ofNat 12 c, points, 0, 0, 0⟩
        let s := { s with calRuns := s.calRuns ++ [r] }
        .work (if chainIdle s c && (chainSt s c).target.isNone then release s c else s) .elsewhere)

end Sys2Proof.Machine
end

