-- ==== Sys2Proof/Machine/Release.lean ====
section
/-!
DEFINITION. What the scheduler and the time commands share about time-event units (chapter 15): a unit's firing times, the cycle
that a slotframe-aligned unit takes, and the transmit release windows (R506, R507, R509).
-/

namespace Sys2Proof.Machine

def teu (s : State) (u : Nat) : Teu := tblAt s.teus u {}
def setTeu (s : State) (u : Nat) (x : Teu) : State := { s with teus := tblPut s.teus u x }

/-- Base slots of a slotframe's cycle. -/
def sfCycle (s : State) (f : Nat) : Nat := sfMult s f * sfLen s f

/-- The firing time of a unit: as armed, or in the chosen cycle; none while its slotframe is stopped (R506). -/
def firingTime (s : State) (x : Teu) : Option Nat :=
  if x.armed = false then none
  else if x.aligned = false then some x.next
  else if x.chosen && sfRuns s x.sf then some (slotStart s x.next + timeUs x.offset) else none

/-- Chooses the cycle of an armed slotframe-aligned unit: the one in progress, or the next where its firing time there has
passed. -/
def chooseCycle (s : State) (u : Nat) : State :=
  let x := teu s u
  match asnNow s with
  | some a =>
    if x.armed && x.aligned && !x.chosen && sfRuns s x.sf then
      let c := sfCycle s x.sf
      let b := a / c * c + x.slot * sfMult s x.sf
      let passed := decide (slotStart s b + timeUs x.offset < (time s).toNat)
      setTeu s u { x with chosen := true, next := if passed then b + c else b }
    else s
  | none => s

/-- Units whose slotframe has stopped wait for a new cycle. -/
def forgetCycles (s : State) (stopped : Nat → Bool) : State :=
  { s with teus := s.teus.map (fun e => (e.1, if e.2.aligned && stopped e.2.sf then { e.2 with chosen := false } else e.2)) }

/-- Whether a span lies wholly inside one window of a unit, in 72-bit times. -/
def insideWindow (s : State) (x : Teu) (from_ until_ : Nat) : Bool :=
  let w := timeUs x.width
  match firingTime s x with
  | none => false
  | some f =>
    if x.aligned then
      let c := sfCycle s x.sf * x.period
      let at_ (k : Nat) : Nat := slotStart s (x.next + k * c) + timeUs x.offset
      let fits (g : Nat) : Bool := decide (g ≤ from_ ∧ until_ ≤ g + w)
      let last := slotStart s (x.next - c) + timeUs x.offset
      if x.period = 0 then fits f
      else if from_ < f then x.till.isSome && fits last
      else
        let k := (((asnOf s from_).getD 0) - x.next) / (max 1 c)
        fits (at_ k) || fits (at_ (k - 1))
    else if x.period = 0 then decide (f ≤ from_ ∧ until_ ≤ f + w)
    else if from_ < f then x.till.isSome && decide (f ≤ from_ + x.period ∧ until_ + x.period ≤ f + w)
    else decide ((from_ - f) % x.period + (until_ - from_) ≤ w)

/-- Whether the release windows of a band let an item through at its instant (R509). -/
def released (s : State) (i : Item) : Bool :=
  let b := i.band.val
  let gates := (s.teus.map (·.2)).filter (fun x => x.armed && x.gate && x.bands.getLsbD b)
  let ramps := ([0, 1, 2, 3].filter (fun k => chainEnabled s (4 * b + k))).map (fun k => ramp s (4 * b + k))
  let air := airtime6 s b i.mode i.psdu (ramps.foldl max 0)
  gates.isEmpty || gates.any (fun x => insideWindow s x i.instant (i.instant + (timeUs air + 5) / 6))

end Sys2Proof.Machine
end

