-- ==== Sys2Proof/Machine/Rx.lean ====
section
/-!
DEFINITION. The wideband receivers (chapter 09): channels and their rings, detector lanes and candidate marks, the
demodulation contexts, the Frame FIFO with its drain and the receive buffer pool, and the analog gain of a chain.
-/

namespace Sys2Proof.Machine

/-! ### Profiles and channels (R262 to R266, R301) -/

/-- The two words of a band's receive profile. -/
def rxProfile (s : State) (b p : Nat) : Word × Word := tblAt s.image.rxProfiles (32 * b + p) (0, 0)

/-- Least bins of a PHY and rate code (R263, R319). -/
def leastBins (phy rate : Nat) : Nat :=
  if phy = 0 then (if rate / 64 = 0 then 4 else if rate / 64 = 1 then 8 else 15)
  else if phy = 1 then (if rate = 0 then 4 else if rate ≤ 4 then 8 else 12)
  else if phy = 2 then (if rate / 16 = 0 then 24 else if rate / 16 = 1 then 13 else if rate / 16 = 2 then 7 else 5)
  else 32

/-- Whether a receive profile is empty (R301). -/
def profileEmpty (s : State) (b p : Nat) : Bool :=
  let w := (rxProfile s b p).1
  let bins := fld w 16 11
  !(w.getLsbD 0 && rateSupported b (fld w 2 1) (fld w 10 3) &&
    decide (leastBins (fld w 2 1) (fld w 10 3) ≤ bins ∧ 1 ≤ bins ∧ bins ≤ 32 ∧ 2 ≤ fld w 22 17 ∧ fld w 22 17 ≤ 8 ∧
      1 ≤ fld w 32 23 ∧ fld w 59 58 ≤ 2))

/-- Why an enabled definition is rejected, the first condition of R265; 1 where it is accepted, `used` units being taken. -/
def judgeDef (s : State) (b : Nat) (d : BitVec 64) (used : Nat) : Nat :=
  let first := fld d 10 1
  if first < 112 ∨ 911 < first + defBins d - 1 then 2
  else if profileEmpty s b (defProfile d) then 5
  else if defBins d < fld (rxProfile s b (defProfile d)).1 16 11 then 3
  else if defUnits d = 0 ∨ 128 < used + defUnits d then 4
  else 1

/-! ### Read positions (R285, R287, R288, R291) -/

/-- Parts of a ring instant in which read positions are kept: 4,096 TIME cycles to an instant at 100 kS/s, and a multiple of every
number of contexts that one engine shares its capacity among. -/
def shareUnit : Nat := 12252240
def readUnit : Nat := 4096 * shareUnit

/-- A context that reads: its lane's place, its channel's rate and ring, and what its lane says of its reading. -/
structure Reader where
  chan : Nat
  lane : Nat
  rate : Nat
  anchorAt : Nat
  pos : Nat
  ends : List Nat
  queued : List Nat
  stalled : Bool

/-- The write pointer at an instant. -/
def Reader.pointer (r : Reader) (t : Nat) : Nat := (t - r.anchorAt) * r.rate * shareUnit

/-- A context reads on unless its segment write is held or 4 codewords wait for a decoder (R288, R291). -/
def Reader.reads (r : Reader) : Bool := !r.stalled && decide (r.queued.length < 4)

def Reader.behind (r : Reader) (t : Nat) : Bool := decide (r.pos < r.pointer t)

/-- The speed of one of an engine's contexts per TIME cycle: the live rate, and behind the write pointer its equal share of the engine's
spare capacity more, to 8 times its rate at most (R287). -/
def readSpeed (rs : List Reader) (t : Nat) (r : Reader) : Nat :=
  let n := (rs.filter (fun x => x.behind t)).length
  let spare := 640 - rs.foldl (fun n x => n + x.rate) 0
  if !r.reads then 0
  else if r.behind t then min (8 * r.rate * shareUnit) (r.rate * shareUnit + spare * shareUnit / n)
  else r.rate * shareUnit

/-- Cycles until a context catches up with its write pointer or reaches the end of a codeword, whichever comes first. -/
def Reader.next (r : Reader) (v t : Nat) : Option Nat :=
  let catch_ : Option Nat := if r.behind t ∧ r.rate * shareUnit < v then
      some ((r.pointer t - r.pos + (v - r.rate * shareUnit) - 1) / (v - r.rate * shareUnit)) else none
  let finish : Option Nat := match r.ends with
    | e :: _ => if 0 < v then some ((e * readUnit - r.pos + v - 1) / v) else none
    | [] => none
  earlier catch_ finish

/-- A context reads on for `n` cycles to `t`: codewords that it has read to the end wait for their decoder, and with 4 it stops at the
end of the last. -/
def Reader.run (r : Reader) (v n t : Nat) : Reader :=
  let pos := min (r.pos + v * n) (max r.pos (r.pointer t))
  match r.ends with
  | e :: es =>
    if e * readUnit ≤ pos then
      { r with pos := if r.queued.length = 3 then max r.pos (e * readUnit) else pos, ends := es, queued := r.queued ++ [t] }
    else { r with pos := pos }
  | [] => { r with pos := pos }

/-- The contexts of one engine read from `t` to `till`: their shares are worked out again wherever one catches up or finishes a
codeword. -/
def runReaders (till : Nat) : Nat → Nat → List Reader → List Reader
  | 0, _, rs => rs
  | fuel + 1, t, rs =>
    if till ≤ t then rs
    else
      let next := rs.foldl (fun m r => earlier m (r.next (readSpeed rs t r) t)) none
      let n := match next with | some k => max 1 (min k (till - t)) | none => till - t
      runReaders till fuel (t + n) (rs.map (fun r => r.run (readSpeed rs t r) n (t + n)))

/-- Every channel with its lanes, in channel order. -/
def allLanes (s : State) : List (Nat × Nat × Lane) :=
  s.rx.chans.flatMap (fun e => [(e.1, 0, e.2.lane0), (e.1, 1, e.2.lane1)])

/-- The contexts of a DV engine that read. -/
def readers (s : State) (d : Nat) : List Reader :=
  (allLanes s).filterMap (fun e =>
    match e.2.2.ctx with
    | some x =>
      if x / 18 = d then
        some ⟨e.1, e.2.1, chanRate (chanOf s e.1), (chanOf s e.1).anchorAt, e.2.2.read, e.2.2.ends, e.2.2.queued, e.2.2.stalled⟩
      else none
    | none => none)

/-- Puts a context's reading back into its lane. -/
def putReader (s : State) (r : Reader) : State :=
  let c := chanOf s r.chan
  setChan s r.chan (putLane c r.lane { laneOf c r.lane with read := r.pos, ends := r.ends, queued := r.queued })

/-- Brings every context's read position up to now. -/
def syncReads (s : State) : State :=
  let s' := (List.range 8).foldl (fun s d =>
    let rs := readers s d
    let fuel := 2 * rs.length + 2 + rs.foldl (fun n r => n + r.ends.length) 0
    if rs.isEmpty then s else (runReaders s.now fuel s.rx.readAt rs).foldl putReader s) s
  { s' with rx := { s'.rx with readAt := s.now } }

/-- What a device event of the wideband receivers does: the contexts read on before it. -/
def liveRx (dt : Nat) (s : State) (f : State → State) : Host.Outcome State Fault Refusal := live dt s (fun s => f (syncReads s))

/-- Whether a lane's context has read up to an instant. -/
def hasRead (x : Lane) (i : Nat) : Bool := decide (i * readUnit ≤ x.read)

/-! ### Lanes (R272, R273) -/

/-- Where a lane in REWIND begins: at its mark less the pre-roll (R285). -/
def rewindFrom (m : Mark) : Nat := (m.mark - m.pre) * readUnit

/-- A lane that has become free takes the oldest mark, keeping its context, or searches; lane 0 does where both became free together
(R272, R273). -/
def freeLane (s : State) (k l : Nat) : State :=
  let c := chanOf s k
  let x := laneOf c l
  match c.marks with
  | m :: ms =>
    let m := { m with pre := par s 0xA800 }
    let lane : Lane := { st := if x.ctx.isSome then .rewind else .locked, rewound := true, ctx := x.ctx, mark := some m, freeAt := s.now,
                         read := rewindFrom m }
    bump (setChan s k (putLane { c with marks := ms } l lane)) (0x809 + 32 * (k / 64))
  | [] =>
    let o := laneOf c (1 - l)
    if carries o then setChan s k (putLane c l { st := .search, freeAt := s.now })
    else if l = 0 ∧ o.freeAt = s.now then
      setChan s k { c with lane0 := { st := .search, freeAt := s.now }, lane1 := { c.lane1 with st := .follow } }
    else setChan s k (putLane c l { st := .follow, freeAt := s.now })

/-- What the context of a lane still writes of its frame (R281, R289). -/
def leaveTail (s : State) (k : Nat) (x : Lane) (info : Option (List Word)) (fcs : Nat := 0)
    (endAt : Nat := 0) (always : Bool := false) : State :=
  match x.ctx with
  | some ctx =>
    if info.isSome ∨ x.fseq.isSome ∨ always then
      let t : RxTail := { band := Fin.ofNat 3 (k / 64), ctx := ctx, ch := k % 64, fseq := x.fseq,
                          octets := if info.isSome then x.octets.drop x.written else [], info := info,
                          fcs := fcs, endAt := endAt }
      { s with rx := { s.rx with tails := s.rx.tails ++ [t] } }
    else s
  | none => s

/-- A lane ends its frame under a cause that abandons it, counted at an offset in the band's counters. A failed CRC or FCS leaves an
abandon segment even where none was written before (R281). -/
def abandonLane (s : State) (k l cause : Nat) : State :=
  let x := laneOf (chanOf s k) l
  freeLane (leaveTail (bump s (0x800 + cause + 32 * (k / 64))) k x none (always := cause == 5)) k l

/-! ### Channel restarts (R261, R265, R266) -/

/-- Publishes rx.chan.status. -/
def putStatus (s : State) (k st : Nat) : State :=
  let v := BitVec.ofNat 64 st
  { s with params := tblPut s.params (0xA110 + k) v, inForce := tblPut s.inForce (0xA110 + k) v }

/-- Every lane of a channel that carries a frame abandons it as the channel restarts or stops. -/
def dropLanes (s : State) (k : Nat) : State :=
  [0, 1].foldl (fun s l =>
    let x := laneOf (chanOf s k) l
    if carries x then leaveTail (bump s (0x80E + 32 * (k / 64))) k x none else s) s

/-- One channel at the instant at which its band's definitions take effect: `base` is the next free HIST word. -/
def applyChannel (s : State) (b : Nat) (hop : Bool) (base ch : Nat) : State × Nat :=
  let k := chanKey b ch
  let c := chanOf s k
  let d := parV s (0xA010 + k)
  let st := if d.getLsbD 0 then judgeDef s b d (base / 2048) else 0
  let s := if 2 ≤ st ∧ ¬(2 ≤ c.status ∧ c.def_ = d) then bump s (0x80F + 32 * b) else s
  if st = 1 then
    if c.status = 1 ∧ c.def_ = d ∧ hop = false ∧ c.ringBase = base then (s, base + 2048 * defUnits d)
    else
      let n : Chan := { status := 1, def_ := d, ringBase := base, ringLen := ringInstants d, anchor := time s, anchorAt := s.now,
                        lanesFullAt := c.lanesFullAt, lanesFullLost := c.lanesFullLost, rewindLostAt := c.rewindLostAt }
      let n := { n with gaps := [(0, present s b n)] }
      let s := { s with rx := { s.rx with used := tblPut s.rx.used b (max (tblAt s.rx.used b 0) (base + 2048 * defUnits d)) } }
      (putStatus (setChan (dropLanes s k) k n) k 1, base + 2048 * defUnits d)
  else
    let s := if c.status = 1 then dropLanes s k else s
    (putStatus (setChan s k { status := st, def_ := d, lanesFullAt := c.lanesFullAt, lanesFullLost := c.lanesFullLost,
                              rewindLostAt := c.rewindLostAt }) k st, base)

/-- The definitions of a band take effect in ascending channel number (R265, R266, R282). -/
def applyChannels (s : State) (b : Nat) (hop : Bool) : State :=
  ((List.range 64).foldl (fun (r : State × Nat) ch => applyChannel r.1 b hop r.2 ch) (syncReads s, 0)).1

/-- The band's window changes: its receiving chains hop (R261). -/
def hopChains (s : State) (b : Nat) : State :=
  (List.range 4).foldl (fun s a =>
    let c := 4 * b + a
    if (chainSt s c).st = .rx ∧ (chainSt s c).target.isNone then goTo s c .rx else s) s

/-! ### Detection (R274 to R280) -/

/-- Capture range of a PHY and rate in Hz (R277). -/
def captureHz (phy rate : Nat) : Nat :=
  if phy = 0 then lrcBw rate * 250
  else if phy = 1 then
    (if rate = 0 then 30000 else if rate = 1 ∨ rate = 4 then 60000 else if rate = 2 then 90000 else if rate = 5 then 180000 else 120000)
  else if phy = 2 then 31250 else 120000

/-- Gain that brings a mean level of the strongest antenna, in 0.25 dBFS as the lane's loop has averaged it with the attack and decay
constants of its profile, to −12 dBFS (R271). -/
def laneGain (level : Int) : Int := -48 - level

/-- Whether at most `window` µs lie between two instants of a channel. -/
def within (c : Chan) (window a b : Nat) : Bool := decide ((a - b + (b - a)) * 10 ≤ window * chanRate c)

/-- Whether `n` TIME cycles have passed since an earlier instant, or there was none. -/
def spaced (s : State) (at_ : Option Nat) (n : Nat) : Bool := match at_ with | none => true | some t => decide (t + n ≤ s.now)

/-- The detection counts as lost to busy lanes, with its event (R275). -/
def countLanesFull (s : State) (b ch : Nat) : State :=
  let k := chanKey b ch
  let s := bump s (0x808 + 32 * b)
  let c := chanOf s k
  if spaced s c.lanesFullAt (msC 1) then
    raiseEv (setChan s k { c with lanesFullAt := some s.now, lanesFullLost := 0 }) 128 (at' 0 b ||| at' 2 ch)
      (BitVec.ofNat 72 (c.lanesFullLost + 1))
  else setChan s k { c with lanesFullLost := c.lanesFullLost + 1 }

/-- Length of a detection unit of a profile in sixths of a µs: an up-chirp, a preamble octet, a preamble symbol; for SUN-OFDM the
standard's STF period, which the model leaves to the detector (R327). -/
def unit6 (phy rate : Nat) : Option Nat :=
  if phy = 0 then some (2 ^ lrcSf rate * 6000 / lrcBw rate)
  else if phy = 1 then some (8 * fskBit6 rate)
  else if phy = 2 then none else some 96

/-- Whether a mark lies DET_LEN units before its detection point, to the nearest instants (R327). -/
def spansUnits (c : Chan) (p : Word) (mark detect : Nat) : Bool :=
  match unit6 (fld p 2 1) (fld p 10 3) with
  | some u => let n := fld p 22 17 * u * chanRate c; decide (n ≤ 60 * (detect - mark + 1) ∧ 60 * (detect - mark) ≤ n + 60)
  | none => true

/-- LANE_DETECTION (R271, R272, R274, R275, R277, R280): a detection above its profile's threshold and inside the capture range. -/
def execLaneDetection (dt : Nat) (band : Band) (ch : Fin 64) (mark detect : Nat) (metric : BitVec 10) (foff level : Int)
    (s : State) : Host.Outcome State Fault Refusal :=
  liveRx dt s (fun s =>
    let b := band.val
    let k := chanKey b ch.val
    let c := chanOf s k
    let ants := present s b c
    let p := rxProfile s b (defProfile c.def_)
    if c.status ≠ 1 ∨ ants = 0 ∨ detect < mark ∨ spansUnits c p.1 mark detect = false ∨ writePointer s c < detect ∨ metric.toNat ≤ fld p.1 32 23 ∨
        captureHz (fld p.1 2 1) (fld p.1 10 3) < foff.natAbs then s
    else
      let m : Mark := { mark := mark, detect := detect, metric := metric, foff := foff, ants := ants, alive := ants,
                        lostAt := none, blankAt := none, pre := par s 0xA800 }
      let s := bump (bump s (0x800 + 32 * b)) (0xA00 + k)
      let lock (l : Nat) : State :=
        let c := putLane c l { laneOf c l with st := .locked, mark := some m, gain := some (laneGain level), foff := foff }
        let o := laneOf c (1 - l)
        setChan s k (if o.st = .follow then putLane c (1 - l) { o with st := .search } else c)
      if c.lane0.st = .search then lock 0
      else if c.lane1.st = .search then lock 1
      else
        let held := c.marks.map (·.mark) ++ [c.lane0, c.lane1].filterMap (fun x => x.mark.map (·.mark))
        if held.any (within c (fld p.1 48 33) mark) then s
        else
          let s := countLanesFull s b ch.val
          if c.marks.length < 8 then setChan s k { chanOf s k with marks := (chanOf s k).marks ++ [m] }
          else bump s (0x80B + 32 * b))

/-- First ring instant of a mark's pre-roll, which is overtaken with it (R284). -/
def overtaken (s : State) (c : Chan) (mark pre : Nat) : Bool := decide (mark + c.ringLen ≤ writePointer s c + pre)

/-- MARK_OVERTAKEN (R284): overtaken marks of the channel's list and of its lanes in LOCKED are dropped. -/
def execMarkOvertaken (dt : Nat) (band : Band) (ch : Fin 64) (s : State) : Host.Outcome State Fault Refusal :=
  liveRx dt s (fun s =>
    let b := band.val
    let k := chanKey b ch.val
    let c := chanOf s k
    let late := c.marks.filter (fun m => overtaken s c m.mark (par s 0xA800))
    let lost (x : Lane) : Bool := x.st == .locked && (match x.mark with | some m => overtaken s c m.mark m.pre | none => false)
    let l0 := lost c.lane0
    let l1 := lost c.lane1
    let n := late.length + l0.toNat + l1.toNat
    if c.status ≠ 1 ∨ n = 0 then s
    else
      let s := bumpBy s (0x80A + 32 * b) n
      let c := { c with marks := c.marks.filter (fun m => !overtaken s c m.mark (par s 0xA800)) }
      let s := if spaced s c.rewindLostAt (msC 1) then
          raiseEv (setChan s k { c with rewindLostAt := some s.now }) 129 (at' 0 b ||| at' 2 ch.val) 0
        else setChan s k c
      let s := if l0 then freeLane s k 0 else s
      if l1 then freeLane s k 1 else s)

/-! ### Demodulation contexts (R286) -/

/-- Contexts held by lanes, with their channels, and those with a segment still to write. -/
def usedCtxs (s : State) : List Nat := (allLanes s).filterMap (fun e => e.2.2.ctx) ++ s.rx.tails.map (·.ctx)

/-- Live load of a DV engine in units of 100 kS/s. -/
def dvLoad (s : State) (d : Nat) : Nat :=
  (allLanes s).foldl (fun n e => match e.2.2.ctx with
    | some x => if x / 18 = d then n + chanRate (chanOf s e.1) else n
    | none => n) 0

/-- The engine that takes a context of a rate: the one with most spare capacity, lowest-numbered on a tie, in service
and with a context free; 64 × 10⁶ instants per second are 640 units. -/
def pickDv (s : State) (rate : Nat) : Option Nat :=
  let used := usedCtxs s
  let fits := (List.range 8).filter (fun d => engineRuns s (18 + d) && decide (dvLoad s d + rate ≤ 640) &&
    (List.range 18).any (fun j => !used.contains (18 * d + j)))
  fits.foldl (fun m d => match m with
    | none => some d
    | some e => if dvLoad s d < dvLoad s e then some d else some e) none

/-- The time of a lane's mark, in 1/32 TIME cycles. -/
def markTime (c : Chan) (m : Mark) : Nat := 32 * c.anchorAt + m.mark * (131072 / chanRate c)

/-- Lanes in LOCKED with their mark's time. -/
def lockedLanes (s : State) : List (Nat × Nat × Nat) :=
  (allLanes s).filterMap (fun e => match e.2.2.st, e.2.2.mark with
    | .locked, some m => some (markTime (chanOf s e.1) m, e.1, e.2.1)
    | _, _ => none)

/-- The oldest of the lanes of a list. -/
def oldest (ls : List (Nat × Nat × Nat)) : Option (Nat × Nat × Nat) :=
  ls.foldl (fun m e => match m with
    | none => some e
    | some f => if e.1 < f.1 then some e else some f) none

/-- CONTEXT_ASSIGN (R221, R286): the oldest lane in LOCKED that fits gets a context; lanes that no engine can take are
counted once. -/
def execContextAssign (dt : Nat) (s : State) : Host.Outcome State Fault Refusal :=
  liveRx dt s (fun s =>
    let fits := (lockedLanes s).filter (fun e => (pickDv s (chanRate (chanOf s e.2.1))).isSome)
    let s := match oldest fits with
      | some (_, k, l) =>
        (match pickDv s (chanRate (chanOf s k)) with
         | some d =>
           let used := usedCtxs s
           let j := ((List.range 18).find? (fun j => !used.contains (18 * d + j))).getD 0
           let c := chanOf s k
           let x := laneOf c l
           let e := engine s (18 + d)
           setChan { s with engines := tblPut s.engines (18 + d) { e with gate := 0 } } k
             (putLane c l { x with ctx := some (18 * d + j), st := if x.rewound then .rewind else .demod,
                                   read := match x.mark with
                                     | some m => if x.rewound then rewindFrom m else m.detect * readUnit
                                     | none => 0 })
         | none => s)
      | none => s
    let waiting := (lockedLanes s).filter (fun e =>
      (pickDv s (chanRate (chanOf s e.2.1))).isNone && !(laneOf (chanOf s e.2.1) e.2.2).counted)
    let s := waiting.foldl (fun s e =>
      let c := chanOf s e.2.1
      let s := setChan s e.2.1 (putLane c e.2.2 { laneOf c e.2.2 with counted := true })
      bump s (0x80C + 32 * (e.2.1 / 64))) s
    let lost := s.rx.ctxLost + waiting.length
    if waiting.isEmpty then s
    else if spaced s s.rx.ctxFullAt (msC 1) then
      raiseEv { s with rx := { s.rx with ctxLost := 0, ctxFullAt := some s.now } } 132 (BitVec.ofNat 72 lost) 0
    else { s with rx := { s.rx with ctxLost := lost } })

/-- An estimate held to a capture range. -/
def clampHz (n : Nat) (f : Int) : Int := max (-(n : Int)) (min n f)

/-- REWIND_FREEZE (R271, R277, R285): a rewinding lane has read up to its mark's detection point, freezes the gain and the frequency that
it has retrained on the way, and demodulates on. -/
def execRewindFreeze (dt : Nat) (band : Band) (ch : Fin 64) (lane : Fin 2) (foff level : Int) (s : State) :
    Host.Outcome State Fault Refusal :=
  liveRx dt s (fun s =>
    let k := chanKey band.val ch.val
    let c := chanOf s k
    let x := laneOf c lane.val
    let p := (rxProfile s band.val (defProfile c.def_)).1
    match x.mark with
    | some m =>
      if x.st = .rewind ∧ hasRead x m.detect then
        setChan s k (putLane c lane.val { x with st := .demod, gain := some (laneGain level),
                                                 foff := clampHz (captureHz (fld p 2 1) (fld p 10 3)) foff })
      else s
    | none => s)

/-- Counts the HIST reads of a demodulation context (R176). -/
def countHist (s : State) (h : HistReads) : State := bumpBy (bumpBy s 0x103 h.corrected) 0x105 h.bad

/-! ### Header check (R276, R306, R307, R321) -/

/-- What a header check says: the length, rate code, FCS and whitening of the payload; a failure's counter offset; or a
mode-switch header. -/
inductive HeaderSays where
  | pass (length : Nat) (rate : Nat) (fcs4 whitened : Bool)
  | fail (cause : Nat)
  | switch (rateIndex ppduEnd : Nat)
deriving DecidableEq, Repr

/-- Offsets of RX_ABANDONED and RX_LEN_OVER among a band's counters (R297). -/
def abandoned : Nat := 2
def lenOver : Nat := 3

/-- A declared length against the range accepted. -/
def sayLength (n most rate : Nat) (fcs4 whitened : Bool) : HeaderSays :=
  if n = 0 ∨ most < n then .fail lenOver else .pass n rate fcs4 whitened

/-- HCRC of an LRC header with the profile's sync byte (R306). -/
def hcrc (h : BitVec 48) (sync : Nat) : BitVec 16 :=
  crc16 [h.setWidth 8, (h >>> 8).setWidth 8, (h >>> 16).setWidth 8, (h >>> 24).setWidth 8, BitVec.ofNat 8 sync]

/-- The header check of a profile (R276, R307). -/
def judgeHeader (p : Word) (switched : Option (Nat × Nat)) (obs : HeaderObs) : HeaderSays :=
  let rate := fld p 10 3
  match obs with
  | .lrc syndromeZero h =>
    if fld p 2 1 ≠ 0 ∨ syndromeZero = false ∨ hcrc h (fld p 56 49) ≠ (h >>> 32).setWidth 16 then .fail abandoned
    else if fld h 11 0 = 0 ∨ 2047 < fld h 11 0 then .fail lenOver
    else if fld h 13 12 = 3 ∨ fld h 15 14 ≠ 0 then .fail abandoned
    else .pass (fld h 11 0) (rate / 64 * 64 + fld h 13 12 * 16 + rate % 16) false true
  | .fsk sfdFound n fcs4 whitened =>
    if fld p 2 1 ≠ 1 ∨ sfdFound = false then .fail abandoned
    else sayLength n 2047 (match switched with | some r => r.1 | none => rate) fcs4 whitened
  | .fskModeSwitch checkOk idx ppduEnd =>
    if fld p 2 1 ≠ 1 ∨ checkOk = false then .fail abandoned else .switch idx ppduEnd
  | .ofdm hcsOk mcs n fcs4 =>
    if fld p 2 1 ≠ 2 ∨ hcsOk = false then .fail abandoned else sayLength n 2047 (rate / 16 * 16 + mcs % 16) fcs4 false
  | .oqpsk sfdFound reservedZero n =>
    if fld p 2 1 ≠ 3 ∨ sfdFound = false ∨ reservedZero = false then .fail abandoned else sayLength n 127 0 false false

/-- The weight of an antenna from its channel estimate: conj(ĥ) ÷ σ², and |ĥ|² ÷ σ² for SUN-FSK, as a fraction with the noise power below
(R278). -/
def antWeight (phy : Nat) (e : AntEst) : AntEst :=
  if phy = 1 then ⟨e.re * e.re + e.im * e.im, 0, e.noise⟩ else ⟨e.re, -e.im, e.noise⟩

/-- The weights of a frame: antennas that it does not combine, or has lost, weigh nothing (R278, R279). -/
def weightsNow (x : Lane) : List (List AntEst) :=
  let alive := match x.mark with | some m => m.alive | none => 0
  x.weights.map (fun ws => (List.range ws.length).map (fun a => if alive.getLsbD a then ws.getD a ⟨0, 0, 1⟩ else ⟨0, 0, 1⟩))

/-- HEADER_CHECK (R276, R278, R281, R307, R321): `endAt` is the ring instant at which the header ends, `ends` those of the payload's
codewords, and `est` the channel estimates of the preamble by subcarrier and antenna. -/
def execHeaderCheck (dt : Nat) (band : Band) (ch : Fin 64) (lane : Fin 2) (obs : HeaderObs) (endAt : Nat) (ends : List Nat)
    (est : List (List AntEst)) (hist : HistReads) (s : State) : Host.Outcome State Fault Refusal :=
  liveRx dt s (fun s =>
    let b := band.val
    let k := chanKey b ch.val
    let s := countHist s hist
    let c := chanOf s k
    let x := laneOf c lane.val
    let phy := fld (rxProfile s b (defProfile c.def_)).1 2 1
    if x.st ≠ .demod ∨ x.stalled ∨ hasRead x endAt = false then s
    else match judgeHeader (rxProfile s b (defProfile c.def_)).1 x.switched obs with
      | .fail cause => abandonLane s k lane.val cause
      | .pass n rate fcs4 whitened =>
        let whole := ends.filter (hasRead x)
        setChan s k (putLane c lane.val { x with st := .payload, length := n, rate := BitVec.ofNat 8 rate, fcs4 := fcs4, whiten := whitened,
                                                 weights := est.map (fun ws => ws.map (antWeight phy)),
                                                 ends := ends.filter (fun e => !hasRead x e), queued := whole.map (fun _ => s.now) })
      | .switch idx ppduEnd =>
        if parB s (0xB400 + b) ∧ idx ≤ 6 ∧ leastBins 1 idx ≤ defBins c.def_ then
          bump (setChan s k (putLane c lane.val { x with switched := some (idx, ppduEnd) })) (0xC08 + b)
        else abandonLane (bump s (0xC0C + b)) k lane.val abandoned)

/-! ### Payload and frame end (R281, R293, R294, R314) -/

/-- Whether a lane's decoder is its band's LDPC pool, or the convolutional decoder of all bands (R288). -/
def ldpc (s : State) (k : Nat) : Bool := fld (rxProfile s (k / 64) (defProfile (chanOf s k).def_)).1 2 1 == 0

/-- Whether the codeword that a lane has waiting is the first in its DV engine's queue for that decoder: payload codewords go oldest
first (R288). -/
def firstQueued (s : State) (k : Nat) (x : Lane) : Bool :=
  match x.queued, x.ctx with
  | t :: _, some n =>
    (allLanes s).all (fun e => match e.2.2.ctx, e.2.2.queued with
      | some m, u :: _ =>
        !(m / 18 == n / 18 && ldpc s e.1 == ldpc s k && (e.1 / 64 == k / 64 || !ldpc s k)) || decide (t ≤ u)
      | _, _ => true)
  | _, _ => false

/-- Octets that a lane's decoders deliver of its frame: the PSDU, and an LRC frame's CRC-32 after it (R308). -/
def wanted (lrc : Bool) (x : Lane) : Nat := if lrc then x.length + 4 else x.length

/-- A lane takes octets as demodulated or decoded, the whitening of LRC and of a SUN-FSK frame that names it taken off (R302, R308). -/
def takeOctets (lrc : Bool) (x : Lane) (os : Octets) : Octets :=
  let os := os.take (wanted lrc x - x.octets.length)
  x.octets ++ (if x.whiten then whiten x.octets.length os else os)

/-- The most iterations of a codeword: phy.lrc.iter.max for a payload codeword, 20 for a header block (R314). -/
def iterMax (s : State) (header : Bool) : Nat := if header then 20 else par s 0xB000

/-- Counts an LRC codeword decoded (R337). -/
def countCodeword (s : State) (b : Nat) (lrc : Bool) : State := if lrc then bump s (0xC20 + b) else s

/-- CODEWORD_DECODED (R176, R281, R288, R314): a header block's decode, or that of the oldest payload codeword that waits. -/
def execCodewordDecoded (dt : Nat) (band : Band) (ch : Fin 64) (lane : Fin 2) (header converged : Bool)
    (iterations corrected : Nat) (octets : Octets) (hist : HistReads) (s : State) : Host.Outcome State Fault Refusal :=
  liveRx dt s (fun s =>
    let b := band.val
    let k := chanKey b ch.val
    let s := countHist s hist
    let c := chanOf s k
    let x := laneOf c lane.val
    let lrc := fld (rxProfile s b (defProfile c.def_)).1 2 1 == 0
    let most := if lrc then iterMax s header else iterations
    let iterations := min iterations most
    let y := { x with codewords := x.codewords + 1, iterMax := max x.iterMax iterations, corrected := x.corrected + corrected }
    if x.stalled then s
    else if header then (if x.st = .demod then setChan (countCodeword s b lrc) k (putLane c lane.val y) else s)
    else if x.st ≠ .payload ∨ firstQueued s k x = false then s
    else if converged then
      setChan (countCodeword s b lrc) k (putLane c lane.val { y with octets := takeOctets lrc x octets, queued := x.queued.tail })
    else
      abandonLane (if lrc then bump (countCodeword s b lrc) (0xC24 + b) else s) k lane.val 4)

/-- The time at which an instant of a ring passed the ANT ball: the ring's anchor, the instant at the channel's rate, and the path delay
from the ball; `i` counts instants in 1/65536 (R294, R489). -/
def instantTime (s : State) (c : Chan) (i : Nat) : Time72 :=
  let inc := increment s.tb.rate
  let delay : Int := Config.pathDelay (chanRate c) * inc / 2 ^ 48
  BitVec.ofInt 72 ((c.anchor.toNat : Int) + i * 4096 * inc / (2 ^ 64 * chanRate c : Nat) - delay)

/-- When a frame's last symbol ended at the ANT ball, in TIME cycles. -/
def frameEndAt (c : Chan) (obs : RxObs) : Nat :=
  c.anchorAt + (65536 * obs.endInstant + obs.endFrac.toNat) * 4096 / (65536 * chanRate c) - Config.pathDelay (chanRate c)

/-- Gain steps that the chains of a set of antennas made from an instant on, until another (R270). -/
def gainStepsIn (s : State) (b : Nat) (ants : BitVec 4) (from_ till : Nat) : Nat :=
  (List.range 4).foldl (fun n a =>
    if ants.getLsbD a then n + (chainSt s (4 * b + a)).steps.countP (fun t => decide (from_ ≤ t ∧ t < till)) else n) 0

/-- The metadata words of a frame (R293, R294). -/
def metaWords (s : State) (b ch l : Nat) (c : Chan) (x : Lane) (m : Mark) (obs : RxObs) : List Word :=
  let p := (rxProfile s b (defProfile c.def_)).1
  let endAt := frameEndAt c obs
  let lost : Bool := match m.lostAt with | some t => decide (t < endAt) | none => false
  let rssi (a : Nat) (v : BitVec 8) : Nat := if m.ants.getLsbD a then v.toNat else 0
  [at' 0 x.length ||| at' 12 b ||| at' 14 ch ||| at' 20 l ||| at' 21 (defProfile c.def_) ||| at' 26 (fld p 2 1) |||
     at' 28 x.rate.toNat ||| at' 36 x.rewound.toNat ||| at' 37 m.ants.toNat ||| at' 41 lost.toNat,
   instantTime s c (65536 * obs.refInstant + obs.refFrac.toNat),
   at' 0 (rssi 0 obs.rssi0) ||| at' 8 (rssi 1 obs.rssi1) ||| at' 16 (rssi 2 obs.rssi2) ||| at' 24 (rssi 3 obs.rssi3) |||
     at' 32 obs.snr.toNat ||| at' 42 (BitVec.ofInt 20 (x.foff + obs.foff.toInt)).toNat |||
     at' 62 (min 15 (gainStepsIn s b m.ants (c.anchorAt + m.mark * 4096 / chanRate c) endAt)),
   at' 0 (m.mark % 2 ^ 40) ||| at' 40 (min 31 x.iterMax) ||| at' 45 (min 4095 x.codewords) ||| at' 57 (min 32767 x.corrected)]

/-- Whether the FCS that a PHR names matches, over a whole PSDU. -/
def fcsOk (fcs4 : Bool) (os : Octets) : Bool :=
  let n := if fcs4 then 4 else 2
  let body := os.take (os.length - n)
  os == body ++ (if fcs4 then leOctets 4 (crc32 body).toNat else leOctets 2 (fcs16 body).toNat)

/-- Whether the CRC-32 that follows an LRC frame's PSDU matches it (R308). -/
def crcOk (x : Lane) : Bool := x.octets.drop x.length == leOctets 4 (crc32 (x.octets.take x.length)).toNat

/-- FRAME_END (R281, R308): the frame's last symbol has been read and every codeword decoded. -/
def execFrameEnd (dt : Nat) (band : Band) (ch : Fin 64) (lane : Fin 2) (obs : RxObs) (hist : HistReads) (s : State) :
    Host.Outcome State Fault Refusal :=
  liveRx dt s (fun s =>
    let b := band.val
    let k := chanKey b ch.val
    let s := countHist s hist
    let c := chanOf s k
    let x := laneOf c lane.val
    let lrc := fld (rxProfile s b (defProfile c.def_)).1 2 1 == 0
    let x := { x with octets := takeOctets lrc x obs.rest }
    match x.mark with
    | some m =>
      if x.st ≠ .payload ∨ x.octets.length ≠ wanted lrc x ∨ x.stalled ∨ hasRead x obs.endInstant = false ∨ ¬(x.ends ++ x.queued).isEmpty then s
      else
        if (if lrc then crcOk x else fcsOk x.fcs4 x.octets) then
          freeLane (leaveTail s k { x with octets := x.octets.take x.length } (some (metaWords s b ch.val lane.val c x m obs))
            (if lrc then 0 else if x.fcs4 then 4 else 2) (frameEndAt c obs)) k lane.val
        else abandonLane s k lane.val 5
    | none => s)

/-- Whether a lane has read an instant that was written at a TIME cycle. -/
def readPast (c : Chan) (x : Lane) (t : Nat) : Bool := hasRead x ((t - c.anchorAt) * chanRate c / 4096)

/-- LANE_BLANK_INSTANT (R251, R279, R281): the lane reads the first instant whose samples are all blank-marked or absent. -/
def execLaneBlankInstant (dt : Nat) (band : Band) (ch : Fin 64) (lane : Fin 2) (s : State) :
    Host.Outcome State Fault Refusal :=
  liveRx dt s (fun s =>
    let k := chanKey band.val ch.val
    let c := chanOf s k
    let x := laneOf c lane.val
    let blank : Bool := match x.mark with
      | some m => (match m.blankAt with | some t => readPast c x t | none => false)
      | none => false
    if carries x ∧ x.st ≠ .locked ∧ blank then abandonLane s k lane.val 6 else s)

/-- LANE_OVERRUN (R281, R291): the write pointer overwrites the instant that the lane reads next. -/
def execLaneOverrun (dt : Nat) (band : Band) (ch : Fin 64) (lane : Fin 2) (s : State) : Host.Outcome State Fault Refusal :=
  liveRx dt s (fun s =>
    let k := chanKey band.val ch.val
    let c := chanOf s k
    let x := laneOf c lane.val
    if carries x ∧ x.st ≠ .locked ∧ x.read / readUnit + c.ringLen ≤ writePointer s c then abandonLane s k lane.val 7 else s)

/-! ### Ping-pong FIFOs (R190 to R193, R289) -/

/-- Writes words with their FLUSH marks; those that find no room are held (R191, R192). -/
def fifoWrite (s : State) (f : Nat) (ws : List (Word × Bool)) : State :=
  let x := fifo s f
  let room := bankSize f - x.filling.length
  let ws := ws.map (fun w => (fifoWord w.1, w.2))
  setFifo s f { x with filling := x.filling ++ ws.take room, held := ws.drop room, heldSince := s.now }

/-- The time in ns for which a Frame FIFO's write handshake has been held so far (R192). -/
def stallNs (s : State) (f : Nat) : Nat :=
  if f = 3 ∨ (fifo s f).held.isEmpty then 0 else (s.now - (fifo s f).heldSince) * 10000 / 4096

/-- The contexts of a band that wait with a segment to write read on once the FIFO holds no word back (R291). -/
def unstallLanes (s : State) (b : Nat) : State :=
  if (fifo s b).held.isEmpty then
    { s with rx := { s.rx with chans := s.rx.chans.map (fun e =>
        if e.1 / 64 = b then (e.1, { e.2 with lane0 := { e.2.lane0 with stalled := false }, lane1 := { e.2.lane1 with stalled := false } })
        else e) } }
  else s

/-- Whether the banks swap now (R191). -/
def swapDue (f : Nat) (x : Fifo) : Bool :=
  x.draining.isEmpty && (x.filling.length == bankSize f || x.filling.any (·.2))

/-- FIFO_BANK_SWAP (R191, R192, R291). -/
def execFifoBankSwap (dt : Nat) (f : Fin 4) (s : State) : Host.Outcome State Fault Refusal :=
  liveRx dt s (fun s =>
    let n := f.val
    let x := fifo s n
    let ns := stallNs s n
    if swapDue n x = false then s
    else
      let s := setFifo s n { x with fillBank := !x.fillBank, draining := x.filling, drained := 0,
                                    filling := x.held.take (bankSize n), held := x.held.drop (bankSize n), heldBy := 0,
                                    heldSince := s.now }
      if x.held.isEmpty ∨ n = 3 then s
      else
        let s := bumpBy (unstallLanes s n) (0x11C + n) ns
        if 1000 * par s 0xAC00 < ns then raiseEv s 130 (at' 0 n) (BitVec.ofNat 72 ns) else s)

/-- A segment's words: two header words, then its data, the last word of a last or abandon segment marked (R289). -/
def segmentWords (ctx fseq kind : Nat) (data : List Word) : List (Word × Bool) :=
  let h := at' 0 ctx ||| at' 8 (fseq % 65536) ||| at' 24 kind ||| at' 26 data.length
  let ws := h :: h :: data
  let n := ws.length
  (List.range n).zip ws |>.map (fun e => (e.2, decide (2 ≤ kind) && e.1 + 1 == n))

/-- The band's next frame sequence for a frame without one. -/
def takeFseq (s : State) (b : Nat) : Option Nat → State × Nat
  | some n => (s, n)
  | none =>
    let n := tblAt s.rx.fseq b 0
    ({ s with rx := { s.rx with fseq := tblPut s.rx.fseq b ((n + 1) % 65536) } }, n)

/-- The lane that holds a context in a band. -/
def laneOfCtx (s : State) (b ctx : Nat) : Option (Nat × Nat × Lane) :=
  (allLanes s).find? (fun e => e.1 / 64 == b && e.2.2.ctx == some ctx)

/-- A context whose segment write is held reads its ring no more (R291). -/
def stallCtx (s : State) (b ctx : Nat) : State :=
  match laneOfCtx s b ctx with
  | some (k, l, x) => setChan s k (putLane (chanOf s k) l { x with stalled := true })
  | none => s

/-- Whether a first or middle segment of whole words may be written of `n` octets. -/
def segmentFits (kind words n : Nat) (fseq : Option Nat) : Bool :=
  decide (words ≤ 64 ∧ 9 * words ≤ n) && ((kind == 0 && fseq.isNone) || (kind == 1 && fseq.isSome))

/-- FRAME_SEGMENT_WRITE (R289): a context writes one segment. First and middle segments carry whole data words; the last
carries the rest of the PSDU and the metadata. -/
def execFrameSegmentWrite (dt : Nat) (band : Band) (ctx : Fin 144) (kind : Fin 4) (words : Nat) (s : State) :
    Host.Outcome State Fault Refusal :=
  liveRx dt s (fun s =>
    let b := band.val
    let c := ctx.val
    if (fifo s b).held.isEmpty = false then stallCtx s b c
    else match s.rx.tails.find? (fun t => t.band == band && t.ctx == c) with
      | some t =>
        let others := s.rx.tails.filter (· != t)
        (match t.info, t.fseq with
         | none, some n =>
           if kind = 3 then fifoWrite { s with rx := { s.rx with tails := others } } b (segmentWords c n 3 []) else s
         | none, none =>
           if kind = 3 then
             let r := takeFseq { s with rx := { s.rx with tails := others } } b none
             fifoWrite r.1 b (segmentWords c r.2 3 [])
           else s
         | some info, n =>
           if kind = 2 ∧ n.isSome ∧ t.octets.length ≤ 540 then
             let ends := tblPut s.rx.ends (65536 * b + n.getD 0) (t.fcs, t.endAt)
             let s := fifoWrite { s with rx := { s.rx with tails := others, ends := ends } } b
               (segmentWords c (n.getD 0) 2 (packWords 60 t.octets ++ info))
             bump (bump s (0x801 + 32 * b)) (0x900 + chanKey b t.ch)
           else if segmentFits kind.val words t.octets.length n then
             let r := takeFseq s b n
             let t' := { t with fseq := some r.2, octets := t.octets.drop (9 * words) }
             fifoWrite { r.1 with rx := { r.1.rx with tails := r.1.rx.tails.map (fun u => if u == t then t' else u) } } b
               (segmentWords c r.2 kind.val (packWords words (t.octets.take (9 * words))))
           else s)
      | none =>
        match laneOfCtx s b c with
        | none => s
        | some (k, l, x) =>
          let rest := (x.octets.take x.length).drop x.written
          if x.st = .payload ∧ segmentFits kind.val words rest.length x.fseq then
            let r := takeFseq s b x.fseq
            let x' := { x with fseq := some r.2, written := x.written + 9 * words }
            let s := fifoWrite (setChan r.1 k (putLane (chanOf r.1 k) l x')) b
              (segmentWords c r.2 kind.val (packWords words (rest.take (9 * words))))
            if (fifo s b).held.isEmpty then s else stallCtx s b c
          else s)

/-! ### The drain and the receive buffer pool (R194, R290, R291) -/

def pool (s : State) (b : Nat) : RxPool := tblAt s.rx.pools b {}
def setPool (s : State) (b : Nat) (p : RxPool) : State := { s with rx := { s.rx with pools := tblPut s.rx.pools b p } }

/-- Word address of a receive buffer. -/
def bufferAddr (b k : Nat) : Nat := 0x140000 + b * 0x40000 + 256 * k

/-- The lowest-numbered free buffer. -/
def freeBuffer (p : RxPool) : Option Nat := (List.range 1024).find? (fun k => !tblAt p.used k false)

/-- A buffer returns to its band's pool (R290, R379). -/
def returnBuffer (s : State) (b k : Nat) : State :=
  let p := pool s b
  setPool s b { p with used := tblErase p.used k }

/-- Adds one to the 4-bit count of a word position (R194, R195). -/
def countPosition (s : State) (f pos : Nat) : State :=
  let id := 0x180 + 64 * f + pos / 16
  let v := counter s id
  let n := v / 16 ^ (pos % 16) % 16
  if n = 15 then s else setCounter s id (v + 16 ^ (pos % 16))

/-- Position of a word in its FIFO's two banks. -/
def positionOf (f : Nat) (x : Fifo) (i : Nat) : Nat := (if x.fillBank then 0 else bankSize f) + x.drained + i

/-- Address under which a FIFO word is reported: FIFO, bank and word (R177). -/
def fifoAddr (f : Nat) (x : Fifo) (i : Nat) : Nat := f + 4 * (!x.fillBank).toNat + 8 * (x.drained + i)

/-- Reports an uncorrectable FIFO word at its address (R194). -/
def reportFifo (s : State) (f a : Nat) : State := logError (raiseEv (bump s (0x114 + f)) 38 (at' 0 a) 0) a 7 0 0 0

/-- Takes the first `n` words of a draining bank: each with what it delivers, or its address where it is uncorrectable; corrections are
counted for the FIFO and the word's position (R194). `flips` are the bits that have changed since the words were written. -/
def readFifo (s : State) (f : Nat) (flips : List (Nat × BitVec 80)) (n : Nat) : State × List (Word × Option Nat) :=
  let x := fifo s f
  let hit (i : Nat) (w : BitVec 80) : BitVec 80 := flips.foldl (fun w e => if e.1 = i then w ^^^ e.2 else w) w
  let r := ((List.range n).zip (x.draining.take n)).foldl (fun (r : State × List (Word × Option Nat)) e =>
    match decodeFifo (hit e.1 e.2.1) with
    | .clean d => (r.1, r.2 ++ [(d, none)])
    | .corrected d => (countPosition (bump r.1 (0x110 + f)) f (positionOf f x e.1), r.2 ++ [(d, none)])
    | _ => (r.1, r.2 ++ [(e.2.1.setWidth 72, some (fifoAddr f x e.1))])) (s, [])
  let last := match r.2.getLast? with | some w => w.1 | none => x.last
  (setFifo r.1 f { x with draining := x.draining.drop n, drained := x.drained + n, last := last }, r.2)

/-- The drain gives up the frame of a sequence number: its buffer returns to the pool. -/
def dropOpen (s : State) (b fseq : Nat) : State :=
  let p := pool s b
  match tblGet p.opened fseq with
  | some (k, _) => setPool s b { p with opened := tblErase p.opened fseq, used := tblErase p.used k }
  | none => s

/-- The drain handles a whole, readable segment (R290). -/
def drainWhole (s : State) (b : Nat) (h : Word) (data : List Word) : State :=
  let fseq := fld h 23 8
  let p := pool s b
  if fld h 25 24 = 0 then
    match freeBuffer p with
    | some k =>
      writeWords (setPool s b { p with used := tblPut p.used k true, opened := tblPut p.opened fseq (k, data.length) })
        (bufferAddr b k + 4) data
    | none => s
  else match tblGet p.opened fseq with
    | none => s
    | some (k, n) =>
      if fld h 25 24 = 1 then
        writeWords (setPool s b { p with opened := tblPut p.opened fseq (k, n + data.length) }) (bufferAddr b k + 4 + n) data
      else if fld h 25 24 = 2 then
        let psdu := data.take (data.length - 4)
        let info := data.drop (data.length - 4)
        let s := writeWords (setPool s b { p with opened := tblErase p.opened fseq }) (bufferAddr b k + 4 + n) psdu
        let s := writeWords s (bufferAddr b k) info
        let f : RxFrame := { band := Fin.ofNat 3 b, buffer := k, octets := fld (info.getD 0 0) 11 0, place := .waiting, info := none,
                             fcs := (tblAt s.rx.ends (65536 * b + fseq) (0, 0)).1,
                             endAt := (tblAt s.rx.ends (65536 * b + fseq) (0, 0)).2 }
        { s with rx := { s.rx with frames := s.rx.frames ++ [f], ends := tblErase s.rx.ends (65536 * b + fseq) } }
      else dropOpen s b fseq

/-- DRAIN_SEGMENT (R193, R194, R290, R291). A segment that goes on in the other bank waits for the swap; a read that finds no word gets the
last one again, unchecked, and the drain makes nothing of it. -/
def execDrainSegment (dt : Nat) (band : Band) (flips : List (Nat × BitVec 80)) (s : State) : Host.Outcome State Fault Refusal :=
  live dt s (fun s =>
    let b := band.val
    let x := fifo s b
    let all := x.draining.length
    let before := x.partly.length
    let keep (r : State × List (Word × Option Nat)) (partly : List (Word × Option Nat)) : State :=
      setFifo r.1 b { fifo r.1 b with partly := partly }
    if (pool s b).stopped then s
    else if x.draining.isEmpty then (if swapDue b x then s else setCounter s (0x118 + b) 1)
    else
      let peekAll := x.partly ++ (readFifo s b flips all).2
      match peekAll with
      | (h1, b1) :: (h2, b2) :: rest =>
        (match b1, b2 with
         | some a, some _ =>
           let r := readFifo s b flips all
           let s := reportFifo (keep r []) b a
           (pool s b).opened.foldl (fun s e => dropOpen s b e.1) s
         | _, _ =>
           let h := if b1.isSome then h2 else h1
           let n := fld h 32 26
           if rest.length < n then keep (readFifo s b flips all) peekAll
           else if fld h 25 24 = 0 ∧ (freeBuffer (pool s b)).isNone then
             bump (setPool s b { pool s b with stopped := true }) (0x80D + 32 * b)
           else
             let data := rest.take n
             let s := keep (readFifo s b flips (n + 2 - before)) []
             match data.findSome? (·.2) with
             | some a => dropOpen (reportFifo s b a) b (fld h 23 8)
             | none => drainWhole s b h (data.map (·.1)))
      | _ => keep (readFifo s b flips all) peekAll)

/-- DRAIN_RESUME (R291). -/
def execDrainResume (dt : Nat) (band : Band) (s : State) : Host.Outcome State Fault Refusal :=
  live dt s (fun s =>
    let p := pool s band.val
    if p.stopped ∧ (freeBuffer p).isSome then setPool s band.val { p with stopped := false } else s)

/-! ### Analog gain (R267 to R270) -/

/-- What the compensation multiplies an ADC sample by: the correction of an index, or the mean of two in linear amplitude (R269). -/
inductive Compensation where
  | index (i : Nat)
  | mean (old new : Nat)
deriving DecidableEq, Repr

/-- The compensation of ADC sample `n`, one to a TIME cycle: up to 6 samples after the boundary of the last step the old index's, then
the mean, then the new index's (R267, R269). -/
def compensation (x : ChainSt) (n : Nat) : Compensation :=
  match x.stepAt with
  | some (m, old) => if n ≤ m + 6 then .index old else if n = m + 7 then .mean old x.gain else .index x.gain
  | none => .index x.gain

/-- The correction of a gain index: as measured since the start, the table image's nominal step before (R269). -/
def correctionOf (s : State) (c i : Nat) : Word :=
  match (chainSt s c).corrections with
  | some ws => ws.getD i 0
  | none => tblAt s.image.steps (16 * bandOf c + i) 0

/-- AGC_WINDOW_END (R267 to R270): `peak` is the window's peak in dBFS. -/
def execAgcWindowEnd (dt : Nat) (chain : Chain) (peak : Int) (fullScale : Bool) (s : State) :
    Host.Outcome State Fault Refusal :=
  live dt s (fun s =>
    let c := chain.val
    let b := bandOf c
    let x := chainSt s c
    if inRx x = false ∨ blanked s b then s
    else
      let s := if fullScale then bump s (0x880 + c) else s
      let dwell := if fullScale = false ∧ peak < parI s (0xA403 + b) then x.dwell + 1 else 0
      let up := decide (fullScale = false ∧ par s (0xA406 + b) ≤ dwell)
      let gain := if fullScale then x.gain - 2 else if parI s (0xA400 + b) < peak then x.gain - 1
        else if up then min (x.gain + 1) 15 else x.gain
      let clips := if x.gain = 0 ∧ fullScale then x.clips + 1 else 0
      let step := gain != x.gain
      let x' := { x with gain := gain, dwell := if step then 0 else dwell, clips := clips,
                         steps := if step then s.now :: x.steps.filter (fun t => decide (s.now < t + secC 300)) else x.steps,
                         stepAt := if step then some (s.now, x.gain) else x.stepAt }
      let s := if gain < x.gain then bump s (0x860 + c) else if x.gain < gain then bump s (0x870 + c) else s
      if 40 ≤ clips ∧ spaced s x.satAt (secC 1) then raiseEv (setChain s c { x' with satAt := some s.now }) 131 (at' 0 c) 0
      else setChain s c x')

end Sys2Proof.Machine
end

