-- ==== Sys2Proof/Machine/Store.lean ====
section
/-!
DEFINITION. Storing parameter values and putting them into force at their apply timing (R149 to R151), with what each
block does at that instant; and the setting and unsetting of the ASN (R339, R340).
-/

namespace Sys2Proof.Machine

/-! ### The ASN is set or unset (R339, R340, R356) -/

/-- The ASN becomes unset: no slotframe runs, chosen items return to QUEUED, and EV_ASN_UNSET is raised (R339). -/
def unsetAsn (s : State) : State :=
  let keep (i : Item) : Bool := !(i.st == .eligible && (i.src == .beacon || i.src == .group))
  let items := (s.mac.items.filter keep).map (fun i =>
    if i.st = .eligible ∧ i.src ≠ .ack then { i with st := .queued, chain := none } else i)
  let s := forgetCycles s (fun _ => true)
  raiseEv { s with mac := { s.mac with asnSet := false, slot := none, running := [], decided := [], used := [],
                                       oldCells := [], items := items } } 162 0 0

/-- Follows whether the ASN is set: when it becomes set a pending replay floor takes the ASN current then (R340, R356). -/
def asnWatch (s : State) : State :=
  match asnNow s, s.mac.asnSet with
  | none, true => unsetAsn s
  | some a, false =>
    { s with mac := { s.mac with asnSet := true, floorPending := false,
                                 replayFloor := if s.mac.floorPending then a else s.mac.replayFloor } }
  | _, _ => s

/-! ### Values come into force (R149) -/

/-- The stored value of one parameter comes into force. -/
def forceOne (s : State) (id : Nat) : State :=
  { s with inForce := tblPut s.inForce id (parStored s id), storedAt := tblErase s.storedAt id }

/-- A domain's keys come from another source: both epochs rise and both sub-slots reload (R457, R484). -/
def changeSource (s : State) (d : Nat) : State :=
  let s := [0, 1].foldl (fun s i => setSlot (raiseEpoch s (subSlot d i)) (subSlot d i) {}) s
  (ensureDomain s d).1

/-- What a block does as a parameter's value in force changes. -/
def effectOf (s : State) (id : Nat) : State :=
  if 0x1000 ≤ id ∧ id ≤ 0x1002 then trackBlank s
  else if 0x1400 ≤ id ∧ id ≤ 0x140B then applyEnable s (id - 0x1400)
  else if id = 0x1C24 then
    { s with mac := { s.mac with maskBackoff := s.mac.maskBackoff.map (fun e => (e.1, min (par s 0x1C24) e.2)) } }
  else if id = 0x2C00 ∨ id = 0x2C01 then asnWatch { s with mac := { s.mac with slot := none, decided := [] } }
  else if 0x5400 ≤ id ∧ id ≤ 0x54FF then changeSource s (id - 0x5400)
  else if id = 0x6000 then
    { s with tb := { s.tb with servo := if par s 0x6000 = 0 then 0 else 1, freq := s.tb.rate.toInt, within := 0, beyond := 0 } }
  else if id = 0x8000 then
    (if parB s 0x8000 then beginPass s else { s with scrub := { s.scrub with running := false } })
  else s

/-- Whether an ID defines band b's window or channels. -/
def bandReceive (b id : Nat) : Bool := id == 0xA000 + b || decide (0xA010 + 64 * b ≤ id ∧ id < 0xA050 + 64 * b)

/-- Puts the stored values of some parameters into force at one instant, with their effects (R149, R150). -/
def forceIds (s : State) (ids : List Nat) : State :=
  let s1 := ids.foldl forceOne s
  let changed := ids.filter (fun id => parV s id != parV s1 id)
  let s2 := changed.foldl effectOf s1
  [0, 1, 2].foldl (fun t b =>
    let hop := changed.contains (0xA000 + b)
    let t := if hop then hopChains t b else t
    if changed.any (bandReceive b) then applyChannels t b hop else t) s2

/-- Whether a slotframe is enabled, or still runs. -/
def sfActive (s : State) (f : Nat) : Bool := parB s (0x2000 + f) || sfRuns s f

/-- The lowest running slotframe. -/
def lowestRunning (s : State) : Option Nat := (List.range 16).find? (sfRuns s)

/-- Band of an instance of a band-scoped parameter. -/
def bandOfId (first per id : Nat) : Nat := if 0xA000 ≤ id ∧ id ≤ 0xA002 then id - 0xA000 else (id - first) / per

/-- Whether a pending value takes effect now; `starts` tells the slotframes that start now (R149, R342). -/
def pendingDue (s : State) (starts : Nat → Bool) (id : Nat) : Bool :=
  let rested := decide (tblAt s.storedAt id 0 + usC 300 ≤ s.now)
  let governed : Option Nat → Bool := fun g => match g with | none => true | some f => starts f && rested
  match paramRow id with
  | none => false
  | some r =>
    match r.apply with
    | .immediate => true
    | .ownSlotframe => !sfRuns s (id - r.first) || (starts (id - r.first) && rested)
    | .bandSlotframe per => governed (governing s (bandOfId r.first per id))
    | .anySlotframe => governed (lowestRunning s)
    | .slotframeStop => !sfActive s (id - r.first)
    | .allSlotframesStop => (List.range 16).all (fun f => !sfActive s f)
    | .bind => false
    | _ => false

/-- Pending values whose instant has come take effect. -/
def applyPending (s : State) (starts : Nat → Bool) : State :=
  forceIds s ((s.storedAt.map (·.1)).filter (pendingDue s starts))

/-- Stores a value as pending, to be written to the settings; a write to an unassigned or read-only ID is ignored (R147, R150,
R151). -/
def storeOne (s : State) (id : Nat) (v : BitVec 64) : State :=
  match paramRow id with
  | none => s
  | some r =>
    if r.apply = .readOnly then s
    else { noteDirty s with params := tblPut s.params id v, storedAt := tblPut s.storedAt id s.now }

/-- Stores a list of values at one instant: stop-only values of disabled slotframes first, then those that take effect at
once (R132, R149, R342). -/
def storeAll (s : State) (vs : List (Nat × BitVec 64)) : State :=
  let s := vs.foldl (fun s e => storeOne s e.1 e.2) s
  let stop := (s.storedAt.map (·.1)).filter (fun id => decide (0x2040 ≤ id ∧ id ≤ 0x210F) && pendingDue s (fun _ => false) id)
  let s := forceIds s stop
  let s := applyPending s (fun _ => false)
  vs.foldl (fun s e =>
    if 0x20 ≤ e.1 ∧ e.1 ≤ 0x23 ∧ (ctx s (Fin.ofNat 4 (e.1 - 0x20))).st = 0 then applyBind s (Fin.ofNat 4 (e.1 - 0x20)) else s) s

end Sys2Proof.Machine
end

