-- ==== Sys2Proof/Machine/Sched.lean ====
section
/-!
DEFINITION. The shared schedule (chapters 11 and 13): slot boundaries, the band scheduler's decisions, group
acknowledgement lists, and the expiry of items.
-/

namespace Sys2Proof.Machine

/-! ### Slot boundaries (R338, R341 to R347) -/

/-- W of R355. -/
def replayWindow (s : State) : Nat := (par s 0xC400 * 1000000 + par s 0x2C00 - 1) / par s 0x2C00

/-- Whether a slotframe starts in the base slots from `p + 1` to `a`. -/
def startsIn (s : State) (p a f : Nat) : Bool :=
  let n := sfMult s f * sfLen s f
  n != 0 && a / n != p / n

/-- Slot length of a slotframe in range (R341). -/
def slotInRange (s : State) (f : Nat) : Bool :=
  decide (2000 ≤ sfMult s f * par s 0x2C00 ∧ sfMult s f * par s 0x2C00 ≤ 4000000)

/-- One slotframe at a start: its pending values, whether it runs, its written cells, the units aligned with it, and what its
stop lets take effect (R341, R342, R344, R506). -/
def startSlotframe (s : State) (f : Nat) : State :=
  let rested (id : Nat) : Bool := decide (tblAt s.storedAt id 0 + usC 300 ≤ s.now)
  let own := (s.storedAt.map (·.1)).filter (fun id => match paramRow id with
    | some r => r.apply == .ownSlotframe && id - r.first == f && rested id
    | none => false)
  let s := forceIds s own
  let on := parB s (0x2000 + f)
  let fits := slotInRange s f
  let s := if on && !fits then bump s 0xE87 else s
  let s := { s with mac := { s.mac with running := if on && fits then tblPut s.mac.running f true else tblErase s.mac.running f,
                                        oldCells := s.mac.oldCells.filter (fun e => fld (peek s (0x20000 + 2 * e.1)) 6 3 != f) } }
  let s := if on && fits then (s.teus.map (·.1)).foldl (fun s u => if (teu s u).sf = f then chooseCycle s u else s) s
    else forgetCycles s (· == f)
  if on then s
  else
    let stop := (s.storedAt.map (·.1)).filter (fun id => match paramRow id with
      | some r => r.apply == .slotframeStop && id - r.first == f
      | none => false)
    forceIds s stop

/-- The last start of a slotframe at or before base slot `a`, in SYSPLL cycles. -/
def lastStart (s : State) (a f : Nat) : Nat :=
  let n := sfMult s f * sfLen s f
  cyclesAt s (slotStart s (a / n * n))

/-- One slotframe as its last start in the base slots up to `a` will leave it: whether it will run, and its written cells (R341, R344). -/
def aheadSlotframe (s : State) (f : Nat) : State :=
  { s with mac := { s.mac with
      running := if parB s (0x2000 + f) && slotInRange s f then tblPut s.mac.running f true else tblErase s.mac.running f,
      oldCells := s.mac.oldCells.filter (fun e => fld (peek s (0x20000 + 2 * e.1)) 6 3 != f) } }

/-- The schedule as it will stand at base slot `a`: a decision reads the cells, the slotframes and the values in force of the slot that
it decides, those that the slotframe starts up to there put into force among them (R149, R341, R344, R345). -/
def ahead (s : State) (a : Nat) : State :=
  match s.mac.slot with
  | some p =>
    if p < a then
      let started := (List.range 16).filter (startsIn s p a)
      let due := (s.storedAt.map (·.1)).filter
        (fun id => started.any (fun f => pendingDue { s with now := lastStart s a f } (· == f) id))
      started.foldl aheadSlotframe (due.foldl forceOne s)
    else s
  | none => s

/-- Receive openings of a band's use-2 cells in cell-driven mode (R346). -/
def openCells (s : State) (a : Nat) : State :=
  (cells s).foldl (fun s c =>
    if cellFalls s c a = false then s
    else if (cellFreq s c.sf c.band c.choff a).isNone then bump s 0xE89
    else if c.use = 2 ∧ par s (0xD002 + c.band) = 1 then
      let till := cyclesAt s (slotStart s (a + sfMult s c.sf))
      (List.range 4).foldl (fun s k =>
        let n := 4 * c.band + k
        let x := chainSt s n
        let s := setChain s n { x with openTill := max x.openTill till }
        if chainEnabled s n ∧ x.holder = .none ∧ x.next.isNone ∧ x.blankFrom.isNone ∧ x.st ≠ .cal then goTo s n .rx else s) s
    else s) s

/-- Replay entries that the window has passed are removed (R356). -/
def passReplay (s : State) (a : Nat) : State :=
  { s with mac := { s.mac with replay := s.mac.replay.filter (fun e => decide (a ≤ e.2.2 + replayWindow s)) } }

/-- SLOT_BOUNDARY (R338, R339, R341, R344, R346, R347, R149): a base slot has begun. Where a value that comes into force here changes
the slots themselves, the next boundary is the first of the new ones. -/
def execSlotBoundary (dt : Nat) (s : State) : Host.Outcome State Fault Refusal :=
  live dt s (fun s =>
    let s := asnWatch s
    match asnNow s with
    | none => applyPending s (fun _ => false)
    | some a =>
      let fresh : Bool := match s.mac.slot with | some p => decide (p < a) | none => true
      if fresh = false then s
      else
        let p := s.mac.slot.getD (a - 1)
        let first : Bool := s.mac.slot.isNone
        let starts (f : Nat) : Bool := startsIn s p a f || (first && a == 0)
        let started := (List.range 16).filter starts
        let due := applyPending s (fun f => started.contains f)
        let s := started.foldl startSlotframe due
        let s := applyPending s (fun _ => false)
        if asnNow s = some a then
          openCells (passReplay { s with mac := { s.mac with slot := some a, used := s.mac.used.filter (fun u => decide (a ≤ u.2.2)) } } a) a
        else s)

/-! ### Group acknowledgement lists (R359) -/

/-- Room for entries of a group cell at an ASN: whether another entry fits. -/
def groupRoom (s : State) (c : Cell) (a : Nat) : Bool :=
  decide ((s.mac.groups.filter (fun g => g.band.val == c.band && g.cell == c.idx && g.asn == a)).length < par s 0x28C8)

/-- Whether another broadcast frame of the domain takes an ASN from a group cell: a beacon, or a group acknowledgement
that ranks earlier or already holds entries there (R354, R359). -/
def groupDisplaced (s : State) (c : Cell) (a : Nat) : Bool :=
  let s := ahead s a
  (cells s).any (fun o => o.use == 3 && o.domain == c.domain && cellFalls s o a) ||
    s.mac.groups.any (fun g => g.domain.toNat == c.domain && g.asn == a && !(g.band.val == c.band && g.cell == c.idx))

/-- The first group cell, in ASN order from `least` on, that takes an entry. -/
def groupCell (s : State) (e : GroupEntry) (least : Nat) : Option (Nat × Nat) :=
  let mine (s : State) := (cells s).filter (fun c => c.use == 4 && c.band == e.band.val && c.domain == e.domain.toNat)
  let earliest := (time s).toNat + timeUs (par s 0x28C9)
  ((List.range 255).map (fun k => e.rxAsn + 1 + k)).findSome? (fun a =>
    if a < least ∨ slotStart s a + timeUs (par s 0x2C02) < earliest then none
    else
      let v := ahead s a
      ((mine v).find? (fun c => cellFalls v c a && (cellFreq v c.sf c.band c.choff a).isSome && groupRoom s c a &&
        !groupDisplaced s c a)).map (fun c => (a, c.idx)))

/-- Places an entry in a group from an ASN on, or discards it (R359). -/
def placeGroup (s : State) (least : Nat) (e : GroupEntry) : State :=
  match groupCell s e least with
  | some (a, c) => { s with mac := { s.mac with groups := s.mac.groups ++ [{ e with asn := a, cell := c }] } }
  | none => bump s (0xE0E + 32 * e.band.val)

/-- The entries of a group cell that sends nothing at an ASN go to later cells. -/
def moveGroup (s : State) (b : Band) (d : BitVec 8) (a : Nat) : State :=
  let out := s.mac.groups.filter (fun g => g.band == b && g.domain == d && g.asn == a)
  let s := { s with mac := { s.mac with groups := s.mac.groups.filter (fun g => !(g.band == b && g.domain == d && g.asn == a)) } }
  out.foldl (fun s g => placeGroup s (a + 1) g) s

/-! ### Candidates (R345, R365, R437, R441) -/

/-- A candidate transmission: its class in R345's order (dedicated cells first among host items), slotframe, cell, and
its item; whether the item is new. -/
structure Cand where
  rank : Nat
  sf : Nat
  idx : Nat
  item : Item
  new : Bool

/-- The cell of a band that an item can use at a base slot: class among host items, slotframe, cell number and centre
frequency. -/
def usableCell (s : State) (i : Item) (a : Nat) : Option (Nat × Nat × Nat × Nat) :=
  let s := ahead s a
  let b := i.band.val
  let table (use : Nat) (ok : Cell → Bool) : Option (Nat × Nat × Nat × Nat) :=
    let found := (cells s).filterMap (fun c =>
      if c.use = use ∧ c.band = b ∧ ok c ∧ cellFalls s c a then
        (cellFreq s c.sf b c.choff a).map (fun f => (c.sf, c.idx, f))
      else none)
    found.foldl (fun m e => match m with
      | none => some (if use = 6 then 2 else 3, e)
      | some x => if e.1 < x.2.1 then some (x.1, e) else some x) none
  let auto : Option (Nat × Nat × Nat × Nat) := i.node.bind (fun w => (autoFalls s (keyEui w) a).bind (fun off =>
    (cellFreq s (par s 0x2400) b off a).map (fun f => (3, par s 0x2400, 65536, f))))
  match i.cell with
  | .dedicated => table 6 (fun c => some c.w1 == i.node)
  | .auto => auto
  | .shared => table 1 (fun c => c.sf == i.sf)
  | .wake => table 5 (fun c => (c.sf == i.sf || (match i.src with | .flow _ _ _ => true | _ => false)) && c.domain == i.domain.toNat)
  | .nodeCell => (table 6 (fun c => some c.w1 == i.node)).or auto
  | .given => none

/-- An item placed at a base slot: slot start, transmit instant and tolerance (R341, R362). -/
def placeItem (s : State) (i : Item) (a sf freq : Nat) : Item :=
  let start := slotStart s a
  let shift : Int := match i.node.bind (timingPlace s) with
    | some c => predicted (placeNode s c) start
    | none => 0
  { i with asn := a, slot := start, freq := freq, tolerance := par (ahead s a) (0x2140 + sf),
           instant := ((start + timeUs (par s 0x2C02) : Int) + shift).toNat }

/-- Beacons at a base slot (R364). -/
def beaconCands (s : State) (b : Band) (a : Nat) : List Cand :=
  let s := ahead s a
  (cells s).filterMap (fun c =>
    if c.use = 3 ∧ c.band = b.val ∧ cellFalls s c a then
      (cellFreq s c.sf b.val c.choff a).map (fun f =>
        let t := (tblAt s.image.beacons b.val []).length
        let psdu := t + 1 + 16 + (if par s 0x6005 < 256 then 12 else 0) + 8 + fcsOctets (packetMode s b.val c.mode)
        let i : Item := { id := 0, src := .beacon, band := b, cell := .given, domain := BitVec.ofNat 8 c.domain, mode := c.mode,
                          key := .broadcast, psdu := psdu }
        ⟨0, c.sf, c.idx, placeItem s i a c.sf f, true⟩)
    else none)

/-- Group acknowledgements at a base slot; entries may join until the commit point (R358, R359). -/
def groupCands (s : State) (b : Band) (a : Nat) : List Cand :=
  let s := ahead s a
  (cells s).filterMap (fun c =>
    if c.use = 4 ∧ c.band = b.val ∧ cellFalls s c a then
      (cellFreq s c.sf b.val c.choff a).map (fun f =>
        let n := (s.mac.groups.filter (fun g => g.band == b && g.cell == c.idx && g.asn == a)).length
        let i : Item := { id := 0, src := .group, band := b, cell := .given, domain := BitVec.ofNat 8 c.domain, mode := c.mode,
                          key := .broadcast, psdu := 38 + 8 * n + fcsOctets (packetMode s b.val c.mode) }
        ⟨1, c.sf, c.idx, placeItem s i a c.sf f, true⟩)
    else none)

/-- Whether an item is a flow's. -/
def isFlow (i : Item) : Bool := match i.src with | .flow _ _ _ => true | _ => false

/-- Flow number of a flow frame, 0 otherwise. -/
def itemFlow (i : Item) : Nat := match i.src with | .flow f _ _ => f | _ => 0

/-- Host items at a base slot, in their order; a cell outside every release window is absent for them (R509). -/
def hostCands (s : State) (b : Band) (a : Nat) : List Cand :=
  s.mac.items.filterMap (fun i =>
    if i.band = b ∧ i.st = .queued ∧ isFlow i = false then
      (usableCell s i a).bind (fun u =>
        let j := placeItem s i a u.2.1 u.2.2.2
        if released s j then some ⟨u.1, u.2.1, u.2.2.1, j, false⟩ else none)
    else none)

/-- The tag by which a flow frame ranks (R437). -/
def effectiveTag (s : State) (i : Item) : Nat := max i.tag (vNow s i.band.val - 256 * par s 0x4805)

/-- Whether no earlier frame of the flow for the destination is still held (R437). -/
def oldestFrame (s : State) (i : Item) : Bool :=
  match s.mac.items.find? (fun x => itemFlow x == itemFlow i && isFlow x && x.band == i.band && x.final == i.final) with
  | some x => x.id == i.id
  | none => false

/-- Flow frames at a base slot. -/
def flowCands (s : State) (b : Band) (a : Nat) : List Cand :=
  s.mac.items.filterMap (fun i =>
    if i.band = b ∧ i.st = .queued ∧ isFlow i ∧ oldestFrame s i then
      (usableCell s i a).bind (fun u =>
        let j := placeItem s i a u.2.1 u.2.2.2
        if released s j then some ⟨4, u.2.1, u.2.2.1, j, false⟩ else none)
    else none)

/-- Inserts a candidate after those that rank before it. -/
def insertCand (before : Cand → Cand → Bool) (c : Cand) : List Cand → List Cand
  | [] => [c]
  | d :: ds => if before c d then c :: d :: ds else d :: insertCand before c ds

def sortCands (before : Cand → Cand → Bool) (cs : List Cand) : List Cand :=
  cs.foldl (fun acc c => insertCand before c acc) []

/-- Order of R345 within and between its classes. -/
def cellBefore (c d : Cand) : Bool :=
  decide (c.rank < d.rank) || (c.rank == d.rank && (decide (c.sf < d.sf) || (c.sf == d.sf && decide (c.idx < d.idx))))

/-- Order of R437 among flow frames: effective tag, then the earlier enqueue (the list's order). -/
def tagBefore (s : State) (c d : Cand) : Bool := decide (effectiveTag s c.item < effectiveTag s d.item)

/-! ### Placing candidates (R345, R354, R440) -/

/-- The key that secures an item, as R354 tells keys apart: domain and node word, 0 for a broadcast key. -/
def keyId (i : Item) : Option (Nat × Nat) :=
  match i.key with
  | .plain => none
  | .node w => some ((keyDomain w).toNat, w.toNat)
  | .broadcast => some (i.domain.toNat, 0)

/-- Best class of a band's broadcast frames of a domain at a base slot (R354). -/
def broadcastRank (s : State) (b : Band) (d : BitVec 8) (a : Nat) : Option Nat :=
  let v := ahead s a
  if (cells v).any (fun c => c.use == 3 && c.band == b.val && c.domain == d.toNat && cellFalls v c a) then some 0
  else if s.mac.groups.any (fun g => g.band == b && g.domain == d && g.asn == a) then some 1
  else
    let ranks := s.mac.items.filterMap (fun i =>
      if i.band = b ∧ i.st = .queued ∧ i.key = .broadcast ∧ i.domain = d then
        (usableCell s i a).map (fun u => if isFlow i then 4 else u.1)
      else none)
    ranks.foldl (fun m r => match m with | none => some r | some n => some (min n r)) none

/-- Whether a broadcast frame of another band goes before a band's at this ASN (R354). -/
def outranked (s : State) (b : Band) (d : BitVec 8) (a rank : Nat) : Bool :=
  ([0, 1, 2] : List Band).any (fun o => o != b && (match broadcastRank s o d a with
    | some r => decide (r < rank) || (r == rank && decide (o.val < b.val))
    | none => false))

/-- An item's span on a chain: its blanking interval as planned (R250, R345). -/
def spanOn (s : State) (i : Item) (c : Nat) : Item :=
  let air := airtime6 s i.band.val i.mode i.psdu (ramp s c)
  let at_ := cyclesAt s i.instant
  { i with air6 := air, chain := some (Fin.ofNat 12 c), spanFrom := at_ - usC (ramp s c + 10),
           spanTo := at_ + cycles6 air - usC (ramp s c) + usC 4 }

/-- Items chosen or in transmission, whose spans others must respect. -/
def booked (i : Item) : Bool := match i.st with | .eligible => true | .committed => true | .onAir => true | _ => false

def overlaps (i j : Item) : Bool := decide (i.spanFrom < j.spanTo ∧ j.spanFrom < i.spanTo)

/-- Whether a chain is free for a candidate's span (R345). -/
def chainFreeFor (s : State) (c : Nat) (i : Item) : Bool :=
  chainEnabled s c && !(chainSt s c).halted &&
    !s.mac.items.any (fun j => booked j && j.chain == some (Fin.ofNat 12 c) && overlaps i j)

/-- The chain a candidate takes, with its span there (R253, R345). -/
def takeFreeChain (s : State) (i : Item) : Option Item :=
  let b := i.band.val
  let m := txMode s b i.mode
  let tries := if modeCh0 m || modePhy (packetMode s b i.mode) == 2 then [4 * b] else [4 * b + 3, 4 * b + 2, 4 * b + 1, 4 * b]
  tries.findSome? (fun c => let j := spanOn s i c; if chainFreeFor s c j then some j else none)

/-- Whether another transmission of the band uses the channel over the span. -/
def channelClash (s : State) (i : Item) : Bool :=
  s.mac.items.any (fun j => booked j && j.band == i.band && j.freq == i.freq && j.id != i.id && overlaps i j)

/-- The most flow frames of an item's band that are on air together at any instant of its span (R440). -/
def flowsTogether (s : State) (j : Item) : Nat :=
  let flows := s.mac.items.filter (fun x => booked x && isFlow x && x.band == j.band && overlaps j x)
  (flows.map (fun x =>
    let t := max x.spanFrom j.spanFrom
    flows.countP (fun y => decide (y.spanFrom ≤ t ∧ t < y.spanTo)))).foldl max 0

/-- What becomes of a candidate that is not placed at its slot: a beacon is not sent, group entries go to later cells,
an item waits for its next cell. -/
def passOver (s : State) (c : Cand) (collided : Bool) : State :=
  match c.item.src with
  | .beacon => if collided then bump s 0xE88 else s
  | .group => moveGroup s c.item.band c.item.domain c.item.asn
  | _ => s

/-- Places one ranked candidate (R345, R354, R437, R440). -/
def placeCand (s : State) (c : Cand) : State :=
  let i := c.item
  let b := i.band.val
  let k := keyId i
  let taken : Bool := match k with
    | some k => s.mac.used.contains (k.1, k.2, i.asn) || (k.2 == 0 && outranked s i.band i.domain i.asn c.rank)
    | none => false
  if taken then passOver s c true
  else match takeFreeChain s i with
    | none => passOver s c false
    | some j =>
      if channelClash s j then passOver s c false
      else if isFlow i ∧ par s (0x4801 + b) ≤ flowsTogether s j then bump s (0x1203 + 16 * b)
      else
        let j := { j with st := .eligible }
        let s := if c.new then addItem s j else setItem s j
        let s := match k with
          | some k => { s with mac := { s.mac with used := s.mac.used ++ [(k.1, k.2, i.asn)] } }
          | none => s
        if isFlow i then
          bump { s with shape := { s.shape with v := tblPut s.shape.v b (max (vNow s b) i.tag) } } (0x1201 + 16 * b)
        else s

/-! ### The decision (R363, R366, R437) -/

/-- Items whose timing node is in neither table end (R366). -/
def dropUnknown (s : State) (b : Band) : State :=
  (s.mac.items.filter (fun i => i.band == b && (i.st == .queued || i.st == .held) && i.node.isSome)).foldl (fun s i =>
    match i.node.bind (timingPlace s) with
    | some _ => s
    | none => endItem s i stNodeUnknown 0) s

/-- The guard at each slot considered for a unicast to a node: a node that exceeds the cap is marked DESYNC and its items
are HELD (R363). -/
def guardItems (s : State) (b : Band) (a : Nat) : State :=
  (s.mac.items.filter (fun i => i.band == b && i.st == .queued && i.node.isSome)).foldl (fun s i =>
    match usableCell s i a, i.node.bind (timingPlace s) with
    | some (_, sf, _, _), some c =>
      let n := placeNode s c
      if n.desync ∨ 256 * par (ahead s a) (0x2180 + sf) < guard256 s n (slotStart s a) then
        setItems (markDesync s c) (fun is => is.map (fun x => if x.st = .queued ∧ x.node = i.node then { x with st := .held } else x))
      else s
    | _, _ => s) s

/-- SCHED_DECISION (R345, R354, R363, R366, R437, R440, R443). -/
def execSchedDecision (dt : Nat) (band : Band) (s : State) : Host.Outcome State Fault Refusal :=
  live dt s (fun s =>
    let b := band.val
    match asnOf s ((time s).toNat + timeUs (par s 0x4804)) with
    | some a =>
      let fresh : Bool := match tblGet s.mac.decided b with | some d => decide (d < a) | none => true
      if fresh = false ∨ (lowestRunning (ahead s a)).isNone then s
      else
        let s := bump { s with mac := { s.mac with decided := tblPut s.mac.decided b a } } (0x1200 + 16 * b)
        let s := dropUnknown s band
        if standby s then s
        else
          let s := guardItems s band a
          let soon (c : Cand) : Bool := decide (s.now < cyclesAt s c.item.instant - usC 300)
          let tabled := (sortCands cellBefore (beaconCands s band a ++ groupCands s band a ++ hostCands s band a)).filter soon
          let flows := (flowCands s band a).filter soon
          let clamped := flows.filter (fun c => effectiveTag s c.item != c.item.tag)
          let s := bumpBy s (0x1202 + 16 * b) clamped.length
          (tabled ++ sortCands (tagBefore s) flows).foldl placeCand s
    | none => s)

/-! ### Expiry (R366, R373) -/

/-- ITEM_EXPIRY (R366, R373): a QUEUED or HELD item has reached the end of its lifetime. -/
def execItemExpiry (dt : Nat) (item : Nat) (s : State) : Host.Outcome State Fault Refusal :=
  live dt s (fun s =>
    match findItem s item with
    | some i =>
      let ended : Bool := match i.expiry with | some t => due s t | none => false
      if ended ∧ (i.st = .queued ∨ i.st = .held) then
        let st := if (asnNow s).isNone then stAsnUnset else if i.st = .held then stNodeDesync else stExpired
        endItem (if standby s then bump s 0xE85 else s) i st 0
      else s
    | none => s)

end Sys2Proof.Machine
end

