-- ==== Sys2Proof/Machine/Backbone.lean ====
section
/-!
DEFINITION. The backbone ports (chapter 17): frames and their tags, egress queues, input filtering, PRP and HSR, and the
exception queue they share with the pipelines (R410, R546).
-/

namespace Sys2Proof.Machine

/-! ### Ports and modes (R540, R543) -/

def port (s : State) (p : Nat) : EthPort := tblAt s.bb.ports p {}
def setPort (s : State) (p : Nat) (x : EthPort) : State := { s with bb := { s.bb with ports := tblPut s.bb.ports p x } }

/-- Counter k of a port (R565). -/
def portBump (s : State) (p k : Nat) : State := bump s (0x1A00 + 0x20 * p + k)

def pairMode (s : State) : Bool := parB s 0x9000
def prpMode (s : State) : Bool := parB s 0x9C00
/-- HSR is unavailable in pair mode (R540). -/
def hsrMode (s : State) : Bool := parB s 0x9C03 && !pairMode s
/-- The partner link's port. -/
def partnerPort (s : State) : Option Nat := if pairMode s then some (2 + par s 0x9005) else none
def isPartnerPort (s : State) (p : Nat) : Bool := partnerPort s == some p
/-- Whether a port is a member of a PRP or HSR pair. -/
def isMember (s : State) (p : Nat) : Bool := if p < 2 then prpMode s else hsrMode s
/-- The first member, and the other member, of a port's pair. -/
def firstOf (p : Nat) : Nat := p / 2 * 2
def otherOf (p : Nat) : Nat := if p % 2 = 0 then p + 1 else p - 1

def ownMac (s : State) : Nat := par s 0x9C06

/-! ### Frames -/

/-- A parsed Ethernet header: addresses, VLAN ID, HSR sequence, EtherType, and the payload's offset. -/
structure EthHdr where
  dst : Nat
  src : Nat
  vlan : Option Nat
  hsr : Option Nat
  etype : Nat
  off : Nat

/-- Parses the header of a frame: an 802.1Q tag, then an HSR tag, where they stand. -/
def ethHdr (f : Octets) : EthHdr :=
  let v : Bool := beField f 12 2 == 0x8100
  let o := if v then 16 else 12
  let h : Bool := beField f o 2 == 0x892F
  { dst := beField f 0 6, src := beField f 6 6, vlan := if v then some (beField f 14 2 % 4096) else none,
    hsr := if h then some (beField f (o + 4) 2) else none,
    etype := if h then beField f (o + 6) 2 else beField f o 2, off := if h then o + 8 else o + 2 }

/-- The sequence in a redundancy control trailer (R547), for a frame without its FCS. -/
def rctOf (f : Octets) : Option Nat :=
  let n := f.length
  let lan := beField f (n - 4) 2
  if 20 ≤ n ∧ beField f (n - 2) 2 = 0x88FB ∧ (lan / 4096 = 0xA ∨ lan / 4096 = 0xB) ∧ lan % 4096 = n - (ethHdr f).off then
    some (beField f (n - 6) 2)
  else none

/-- Pads a frame without FCS to the least length of Ethernet, with room for a trailer. -/
def padFrame (n : Nat) (f : Octets) : Octets := f ++ List.replicate (60 - n - f.length) 0

/-- Adds the trailer of R547; LSDU size counts the payload and the trailer. -/
def addRct (lan seq : Nat) (f : Octets) : Octets :=
  let f := padFrame 6 f
  f ++ beOctets 2 seq ++ beOctets 2 (lan * 4096 + (f.length - (ethHdr f).off + 6) % 4096) ++ [0x88, 0xFB]

/-- Inserts the HSR tag of R547 before the EtherType, path identifier 0. -/
def addHsr (seq : Nat) (f : Octets) : Octets :=
  let f := padFrame 6 f
  let o := (ethHdr f).off - 2
  f.take o ++ [0x89, 0x2F] ++ beOctets 2 ((f.length - o - 2 + 6) % 4096) ++ beOctets 2 seq ++ f.drop o

/-- Removes an HSR tag. -/
def dropHsr (f : Octets) : Octets :=
  let h := ethHdr f
  if h.hsr.isSome then f.take (h.off - 8) ++ f.drop (h.off - 2) else f

/-! ### Egress (R542, R553) -/

/-- Puts a frame into a port's egress queue. -/
def enqueueEth (s : State) (p : Nat) (f : EthFrame) : State :=
  let x := port s p
  if x.up = false then portBump s p 18
  else if f.cls = 1 then
    if 64 ≤ (x.egress.filter (fun g => g.cls == 1)).length then portBump s p 11
    else setPort s p { x with egress := x.egress ++ [f] }
  else if f.mirror ∧ 256 ≤ (x.egress.filter (·.mirror)).length then bump s 0x1A83
  else if 512 ≤ (x.egress.filter (fun g => g.cls != 1)).length then portBump s p 17
  else setPort s p { x with egress := x.egress ++ [f] }

/-- Both members of a pair that are up, or both where neither is (R542). -/
def membersUp (s : State) (a : Nat) : List Nat :=
  let up := [a, a + 1].filter (fun p => (port s p).up)
  if up.isEmpty then [a, a + 1] else up

/-- Sends a frame on the PRP pair, both copies under one sequence number (R547). -/
def sendPrp (s : State) (f : Octets) : State :=
  let n := s.bb.seqPrp.toNat
  let s := { s with bb := { s.bb with seqPrp := s.bb.seqPrp + 1 } }
  (membersUp s 0).foldl (fun s p => enqueueEth s p { cls := 2, octets := addRct (0xA + p) n f }) s

/-- Sends a frame on the HSR ring (R547). -/
def sendHsr (s : State) (f : Octets) : State :=
  let n := s.bb.seqHsr.toNat
  let s := { s with bb := { s.bb with seqHsr := s.bb.seqHsr + 1 } }
  (membersUp s 2).foldl (fun s p => enqueueEth s p { cls := 2, octets := addHsr n f }) s

/-- Sends a frame on the port or pair that a port code names (R552); the partner link carries partner messages only. -/
def sendOn (s : State) (code : Nat) (f : Octets) : State :=
  let p := code - 3
  if isPartnerPort s p then s
  else if isMember s p then (if p < 2 then sendPrp s f else sendHsr s f)
  else enqueueEth s p { cls := 2, octets := padFrame 0 f }

/-! ### Time in PTP frames (R500 to R502) -/

/-- A 72-bit time in ns (R501). -/
def ptpNs (t : Time72) : Nat := fld t 71 32 * 1000000000 + (fld t 31 0 * 1000000000 + 2 ^ 31) / 2 ^ 32

/-- Offset of a PTP message in a frame, and whether it travels in UDP over IPv6; none for another frame (R498). -/
def ptpAt (f : Octets) : Option (Nat × Bool) :=
  let h := ethHdr f
  if h.etype = 0x88F7 then some (h.off, false)
  else if h.etype = 0x86DD then
    let p := f.drop h.off
    let c := chain6 p
    let d := beField p (c.off + 2) 2
    if ip6Version p = 6 ∧ c.proto = 17 ∧ c.whole ∧ c.hidden = false ∧ (d = 319 ∨ d = 320) then some (h.off + c.off + 8, true) else none
  else none

/-- Replaces octets from an offset on. -/
def putOctets (f : Octets) (o : Nat) (v : Octets) : Octets := f.take o ++ v ++ f.drop (o + v.length)

/-- Makes the UDP checksum hold again: by the two octets after the PTP message where they stand, otherwise by the checksum
itself (R502). -/
def fixUdp (f : Octets) : Octets :=
  match ptpAt f with
  | some (o, true) =>
    let h := ethHdr f
    let p := f.drop h.off
    let u := o - 8 - h.off
    let len := beField p (u + 4) 2
    let msg := beField f (o + 2) 2
    let seg := (p.drop u).take len
    if msg + 10 ≤ len ∧ msg % 2 = 0 then
      let clear := putOctets seg (8 + msg) [0, 0]
      putOctets f (o + msg) (beOctets 2 (65535 - udpSum (ip6Src p) (ip6Dst p) clear))
    else
      let clear := putOctets seg 6 [0, 0]
      putOctets f (o - 2) (beOctets 2 (65535 - udpSum (ip6Src p) (ip6Dst p) clear))
  | _ => f

/-- The egress time of a frame at a port, ns (R500). -/
def egressNs (s : State) (p : Nat) : Nat := ptpNs (time s) + par s (0x640A + p)

/-- What the egress MAC writes into a frame as it leaves, and what it notes (R502). -/
def stampFrame (s : State) (p : Nat) (f : EthFrame) : State × Octets :=
  match f.stamp, ptpAt f.octets with
  | .sync, some (o, _) =>
    let t := egressNs s p
    (s, fixUdp (putOctets f.octets (o + 34) (beOctets 6 (t / 1000000000) ++ beOctets 4 (t % 1000000000))))
  | .delayReq, some (o, _) =>
    let x := tblAt s.ptp p {}
    let seq := beField f.octets (o + 30) 2
    (match x.delay with
     | some (n, none) =>
       if n = seq then ({ s with ptp := tblPut s.ptp p { x with delay := some (n, some (time s)) } }, fixUdp f.octets)
       else (s, fixUdp f.octets)
     | _ => (s, fixUdp f.octets))
  | .residence since, some (o, _) =>
    let q := otherOf p
    let d : Int := (egressNs s p : Int) - (ptpNs since + par s (0x640E + q) : Nat)
    let c : Int := (BitVec.ofNat 64 (beField f.octets (o + 8) 8)).toInt + d * 65536
    (bump s (0x1620 + 16 * p + 11), fixUdp (putOctets f.octets (o + 8) (beOctets 8 (BitVec.ofInt 64 c).toNat)))
  | _, _ => (s, f.octets)

/-- Takes the next frame of an egress queue: PTP events, then HSR forwarding, then the rest (R553). -/
def nextEgress (q : List EthFrame) : Option EthFrame :=
  (q.find? (fun f => f.cls == 0)).or ((q.find? (fun f => f.cls == 1)).or (q.find? (fun f => f.cls == 2)))

/-- EGRESS_FRAME (R171 code 7, R502, R542, R553): `bad` is the address of the first word of the frame that is poisoned or
uncorrectable, with whether the frame's first octet had left when the MAC met it. -/
def execEgressFrame (dt : Nat) (port : Port) (bad : Option (BitVec 23 × Bool)) (s : State) :
    Host.Outcome State Fault Refusal :=
  live dt s (fun s =>
    let p := port.val
    let x := Machine.port s p
    match nextEgress x.egress with
    | none => s
    | some f =>
      let s := setPort s p { x with egress := x.egress.erase f }
      if x.up = false then portBump s p 18
      else
        let r := stampFrame s p f
        let whole (s : State) : State :=
          let s := emit s (.ether port (r.2 ++ leOctets 4 (crc32 r.2).toNat))
          portBump (if f.mirror then bump s 0x1A82 else s) p 16
        match bad with
        | none => whole r.1
        | some (a, started) =>
          match readWord r.1 a.toNat 7 with
          | (s, some _) => whole s
          | (s, none) => if started then emit s (.ether port (r.2 ++ leOctets 4 (~~~ (crc32 r.2)).toNat)) else s)

/-! ### The exception queue (R410, R413, R546) -/

/-- Counts a dropped exception of a port code, and raises EV_EXCEPTION_DROP at most once a second. -/
def excDrop (s : State) (p code : Nat) : State :=
  let f := fwd s p
  let n := tblAt f.excDrops code 0 + 1
  let quiet : Bool := match tblGet f.excEv code with | some t => decide (s.now < t + secC 1) | none => false
  if quiet then setFwd s p { f with excDrops := tblPut f.excDrops code n }
  else raiseEv (setFwd s p { f with excDrops := tblErase f.excDrops code, excEv := tblPut f.excEv code s.now }) 197
    (at' 0 code) (BitVec.ofNat 72 n)

/-- SHM address of a place of a pipeline's exception queue (R410). -/
def excAddr (p k : Nat) : Nat := 0x54000 + 0x4000 * p + 256 * k

/-- A frame takes the lowest free place of a pipeline's exception queue (log 221). -/
def queueExc (s : State) (p : Nat) (e : ExcFrame) : State :=
  let f := fwd s p
  let k := ((List.range 64).find? (fun k => !f.excQ.any (fun x => x.place == k))).getD 0
  let os := e.octets.take 2304
  let s := setFwd s p { f with excQ := f.excQ ++ [⟨k, os.length, e.reason, e.source, e.form, e.node, e.time⟩] }
  writeWords s (excAddr p k) (packWords 256 os)

/-- Puts a frame into a pipeline's exception queue. -/
def exception (s : State) (p : Nat) (e : ExcFrame) : State :=
  let f := fwd s p
  let b := refill s.now (par s (0x3F06 + p)) (par s (0x3F08 + p)) f.excBucket
  let s := setFwd s p { f with excBucket := some b }
  if b.level < 1000000 then excDrop (fwdBump s p 30) p e.source
  else if par s (0x3F04 + p) = 4 ∨ 64 ≤ f.excQ.length then excDrop (fwdBump s p 31) p e.source
  else
    let s := queueExc (setFwd s p { fwd s p with excBucket := some { b with level := b.level - 1000000 } }) p e
    bump (fwdBump s p 29) (0x1100 + 0x40 * p + e.reason)

/-- The pipeline of a port code (R377). -/
def pipeOf (s : State) (code : Nat) : Nat := par s (0x3000 + code)

/-- A received frame goes to an exception, through its port's bucket (R546). -/
def portException (s : State) (p : Nat) (f : Octets) (reason : Nat) (t : Time72) : State :=
  let x := port s p
  let b := refill s.now (par s (0x9C10 + p)) (par s (0x9C14 + p)) x.bucket
  if b.level < 1000000 then excDrop (portBump (setPort s p { x with bucket := some b }) p 13) (pipeOf s (p + 3)) (p + 3)
  else
    exception (setPort s p { x with bucket := some { b with level := b.level - 1000000 } }) (pipeOf s (p + 3))
      { octets := f, reason := reason, source := p + 3, form := 2, node := 0, time := t }

/-! ### Duplicate discard (R548, R549) -/

def ddTable (s : State) (p : Nat) : List DdEntry := if p < 2 then s.bb.ddPrp else s.bb.ddHsr
def setDd (s : State) (p : Nat) (t : List DdEntry) : State :=
  if p < 2 then { s with bb := { s.bb with ddPrp := t } } else { s with bb := { s.bb with ddHsr := t } }

def ddFind (s : State) (p src seq : Nat) : Option DdEntry := (ddTable s p).find? (fun e => e.src == src && e.seq == seq)

/-- Enters a key, replacing its own entry or, in a full table, the oldest one. -/
def ddEnter (s : State) (p : Nat) (e : DdEntry) : State :=
  let t := (ddTable s p).filter (fun x => !(x.src == e.src && x.seq == e.seq))
  if 4096 ≤ t.length then portBump (setDd s p (t.drop 1 ++ [e])) (firstOf p) 8 else setDd s p (t ++ [e])

/-- Judges a frame that carries a sequence number: the state, and whether it is new (R549). -/
def ddJudge (s : State) (p src seq : Nat) : State × Bool :=
  let me : BitVec 2 := if p % 2 = 0 then 1 else 2
  match ddFind s p src seq with
  | some e =>
    if e.seen ≠ 0 ∧ s.now < e.since + msC (par s 0x9800) then
      if e.seen &&& me = 0 then
        (portBump (setDd s p ((ddTable s p).map (fun x => if x = e then { x with seen := x.seen ||| me } else x))) (firstOf p) 6,
         false)
      else (portBump (ddEnter s p { e with seen := me, since := s.now }) (firstOf p) 7, true)
    else (ddEnter s p { e with seen := me, since := s.now }, true)
  | none => (ddEnter s p ⟨src, seq, me, s.now, false⟩, true)

/-- Whether a PTP frame is a Sync or a Delay_Req. -/
def isEventMsg (f : Octets) : Bool :=
  match ptpAt f with
  | some (o, _) => decide (oct f o % 16 ≤ 1)
  | none => false

/-- Forwarding on the ring (R548 step 2, R551). -/
def forwardHsr (s : State) (p src seq : Nat) (f : Octets) : State :=
  let done : Bool := match ddFind s p src seq with | some e => e.forwarded | none => false
  if done then s
  else
    let s := match ddFind s p src seq with
      | some e => setDd s p ((ddTable s p).map (fun x => if x = e then { x with forwarded := true } else x))
      | none => ddEnter s p ⟨src, seq, 0, s.now, true⟩
    let stamp : Stamp := if par s 0x6400 = 2 ∧ isEventMsg f then .residence (time s) else .none
    enqueueEth (portBump s (otherOf p) 9) (otherOf p) { cls := 1, octets := f, stamp := stamp }

/-! ### Reception (R541, R544, R545, R556) -/

/-- A PTP message for the port's inbox; an event message has its ingress captured (R498, R500). -/
def takePtp (s : State) (p : Nat) (f : Octets) : State :=
  if par s 0x6400 = 0 ∨ parB s (0x6402 + p) = false then s
  else match ptpAt f with
    | none => s
    | some (o, _) =>
      let m := f.drop o
      let len := beField m 2 2
      let type := oct m 0 % 16
      let keep (s : State) : State :=
        let x := tblAt s.ptp p {}
        { s with ptp := tblPut s.ptp p { x with inbox := x.inbox ++ [⟨time s, m.take len⟩] } }
      if m.length < 34 ∨ oct m 1 % 16 ≠ 2 ∨ oct m 4 ≠ par s 0x6401 ∨ len < 34 ∨ 512 < len ∨ m.length < len then
        bump s (0x1620 + 16 * p + 9)
      else if type ≤ 1 then
        let r := captureStamp s p
        if r.2 then keep r.1 else bump r.1 (0x1620 + 16 * p + 10)
      else if type = 8 ∨ type = 9 ∨ type = 11 then keep s
      else s

/-- A downlink joins its pipeline in arrival order; packets of one instant stand in ascending port code (R545). -/
def joinDown (q : List Down) (p : Nat) (d : Down) : List Down :=
  let later (x : Down) : Bool := match x.src with
    | .port y _ => x.at_ == d.at_ && x.reads.isNone && decide (p < y.val)
    | _ => false
  let r := q.reverse.span later
  r.2.reverse ++ [d] ++ r.1.reverse

/-- Steps 7 to 11 of R544, on a frame without tags and FCS. -/
def takeFrame (s : State) (p : Nat) (f : Octets) : State :=
  let h := ethHdr f
  let body := f.drop h.off
  let t := time s
  if (ptpAt f).isSome then takePtp s p f
  else if h.etype = 0x88FB then portBump s p 20
  else if h.etype = 0x0806 then portException s p f 0x21 t
  else if h.etype ≠ 0x86DD then (if parB s 0x9C18 then portException s p f 0x20 t else portBump s p 5)
  else if standby s then portBump s p 14
  else if ip6Ok body = false then portException s p f 0x23 t
  else
    let pkt := ip6Trim body
    let ndp : Bool := match icmpType pkt with | some n => decide (133 ≤ n ∧ n ≤ 137) | none => false
    if ndp then portException s p f 0x22 t
    else if isLinkLocal (ip6Dst pkt) then portException s p f 0x25 t
    else
      let q := pipeOf s (p + 3)
      let w := fwd s q
      let mine := w.down.filter (fun d => match d.src with | .port x _ => x.val == p | _ => false)
      if 512 ≤ mine.length then portBump s p 15
      else setFwd s q { w with down := joinDown w.down p { src := .port (Fin.ofNat 4 p) h.vlan, packet := pkt, time := t, at_ := s.now } }

/-- A frame on the partner link (R556): accepted messages wait; a wrong sender or a malformed body is counted. -/
def takePartner (s : State) (f : Octets) : State :=
  let h := ethHdr f
  if h.etype ≠ 0x88B5 ∨ h.vlan.isSome then s
  else
    let m := f.drop h.off
    let type := oct m 1
    let need := if type = 1 then 21 else if type = 2 ∨ type = 3 then 17
      else if oct m 12 = 0 then 13 + 40 else 13 + 18 + 1
    let body : Bool := if type = 2 ∨ type = 3 then decide (oct m 15 ≤ 2) else type != 4 || decide (oct m 12 ≤ 1)
    let good := h.src == par s 0x9004 && decide (f.length + 4 ≤ 2200 ∧ 10 ≤ m.length) && oct m 0 == 1 &&
      decide (1 ≤ type ∧ type ≤ 4 ∧ need ≤ m.length) && beField m 2 8 == par s 0x9003 && body
    if good then { s with bb := { s.bb with partnerIn := s.bb.partnerIn ++ [m] } } else bump s 0x1A80

/-- BACKBONE_RX_FRAME (R541, R544 to R551, R556): `frame` is the whole frame, FCS and tags included. -/
def execBackboneRxFrame (dt : Nat) (port : Port) (frame : Octets) (s : State) : Host.Outcome State Fault Refusal :=
  live dt s (fun s =>
    let p := port.val
    let n := frame.length
    let f := frame.take (n - 4)
    let whole := frame == f ++ leOctets 4 (crc32 f).toNat
    let s := portBump s p 0
    if isPartnerPort s p then (if whole then takePartner s f else s)
    else if whole = false then portBump s p 1
    else if n < 64 then portBump s p 2
    else if par s 0x9C07 < n then portBump s p 3
    else
      let s := setPort s p { Machine.port s p with rxAt := s.now, fault := if p < 2 then false else (Machine.port s p).fault }
      let h := ethHdr f
      let hsr := decide (2 ≤ p) && hsrMode s
      if h.etype = 0x8808 ∧ beField f h.off 2 = 1 then s
      else if hsr ∧ h.hsr.isNone then portBump s p 12
      else if hsr ∧ h.src = ownMac s then
        let s := portBump s p 10
        let q := otherOf p
        if h.etype = 0x88FB then setPort s q { Machine.port s q with supAt := none, fault := false } else s
      else
        let s := if hsr then forwardHsr s p h.src (h.hsr.getD 0) f else s
        if h.dst ≠ ownMac s ∧ h.dst / 2 ^ 40 % 2 = 0 then portBump s p 4
        else
          let seq : Option Nat := if hsr then h.hsr else if p < 2 ∧ prpMode s then rctOf f else none
          let exempt := (ptpAt f).isSome
          let r := match seq with
            | some k => if exempt then (s, true) else ddJudge s p h.src k
            | none => (s, true)
          let f := if hsr then dropHsr f else if seq.isSome then f.take (f.length - 6) else f
          if r.2 then takeFrame r.1 p f else r.1)

/-! ### Links and supervision (R542, R550) -/

/-- EV_BACKBONE_LINK (R542): a change of a port's link has held for bb.link.debounce. -/
def execEvBackboneLink (dt : Nat) (port : Port) (up : Bool) (s : State) : Host.Outcome State Fault Refusal :=
  live dt s (fun s =>
    let p := port.val
    let x := Machine.port s p
    if x.up = up then s
    else
      let s := setPort s p { x with up := up }
      let s := if up then applyKind s (.linkUp p) else portBump s p 21
      raiseEv s 238 (at' 0 p ||| at' 2 up.toNat) 0)

/-- The supervision frame of IEC 62439-3 (R550). -/
def supervision (s : State) (hsr : Bool) (seq : Nat) : Octets :=
  let dst := beOctets 5 0x01154E0001 ++ [BitVec.ofNat 8 (par s 0x9805)]
  dst ++ beOctets 6 (ownMac s) ++ [0x88, 0xFB] ++ beOctets 2 1 ++ beOctets 2 seq ++ [if hsr then 23 else 20, 6] ++
    beOctets 6 (ownMac s) ++ [0, 0]

/-- SUPERVISION_SEND (R550). -/
def execSupervisionSend (dt : Nat) (hsr : Bool) (s : State) : Host.Outcome State Fault Refusal :=
  live dt s (fun s =>
    let first := if hsr then 2 else 0
    let on := if hsr then hsrMode s else prpMode s
    let last := if hsr then s.bb.supHsrAt else s.bb.supPrpAt
    if on = false ∨ s.now < last + msC (par s 0x9801) then s
    else
      let seq := if hsr then s.bb.supSeqHsr else s.bb.supSeqPrp
      let f := supervision s hsr seq.toNat
      let up := membersUp s first
      if hsr then
        let s := sendHsr { s with bb := { s.bb with supHsrAt := s.now, supSeqHsr := seq + 1 } } f
        up.foldl (fun s p =>
          let x := port s p
          portBump (setPort s p { x with supAt := x.supAt.or (some s.now) }) p 19) s
      else
        let s := sendPrp { s with bb := { s.bb with supPrpAt := s.now, supSeqPrp := seq + 1 } } f
        up.foldl (fun s p => portBump s p 19) s)

/-- PRP_LAN_TIMEOUT (R550). -/
def execPrpLanTimeout (dt : Nat) (port : Port) (s : State) : Host.Outcome State Fault Refusal :=
  live dt s (fun s =>
    let p := port.val
    let x := Machine.port s p
    let y := Machine.port s (otherOf p)
    let limit := msC (par s 0x9802)
    if p < 2 ∧ prpMode s ∧ x.fault = false ∧ max x.rxAt s.pair.startAt + limit ≤ s.now ∧ s.now < y.rxAt + limit then
      raiseEv (setPort s p { x with fault := true }) 239 (at' 0 p) 0
    else s)

/-- HSR_RING_TIMEOUT (R550). -/
def execHsrRingTimeout (dt : Nat) (port : Port) (s : State) : Host.Outcome State Fault Refusal :=
  live dt s (fun s =>
    let p := port.val
    let x := Machine.port s p
    match x.supAt with
    | some t =>
      if 2 ≤ p ∧ hsrMode s ∧ x.fault = false ∧ t + msC (par s 0x9803) ≤ s.now then
        raiseEv (setPort s p { x with fault := true }) 239 (at' 0 p ||| at' 2 1) 0
      else s
    | none => s)

end Sys2Proof.Machine
end

