-- ==== Sys2Proof/Machine/DevCmds.lean ====
section
/-!
DEFINITION. The commands of the device range that touch no other block (R122, R126, R127, R131, R155, R575 to R577),
the event queue and coalescing (R153 to R158), and the error log's reading (R178).
-/

namespace Sys2Proof.Machine

/-- NOP (R122). -/
def execNop (dt : Nat) (hc : Hc) (s : State) : Host.Outcome State Fault Refusal :=
  command dt hc 0x000 0 0 s (fun _ s => .done s stOk [])

/-- DEVICE_INFO's result words (R576). -/
def deviceInfoWords (s : State) : List Word :=
  [BitVec.ofNat 72 (0x197403AB + 2 ^ 32 * (startStatus s).toNat), BitVec.ofNat 72 (fld s.otp 127 64),
   BitVec.ofNat 72 (fld s.otp 63 0),
   BitVec.ofNat 72 ((devStatus s).toNat + 2 ^ 32 * s.start.detail.toNat)] ++
  (List.range 10).map (fun i => peek s i) ++ [0, 0]

/-- DEVICE_INFO (R576). -/
def execDeviceInfo (dt : Nat) (hc : Hc) (s : State) : Host.Outcome State Fault Refusal :=
  command dt hc 0x001 0 16 s (fun _ s => .done s stOk (deviceInfoWords s))

/-- A fuse bit as a reader other than Anvil sees it: ROOT_KEY reads zero (R90, R577). -/
def fuseBit (s : State) (i : Nat) : Bool := if 144 ≤ i ∧ i ≤ 399 then false else s.otp.getLsbD i

/-- Fuse bits `first` to `first + count − 1`, packed 72 to a word (R577). -/
def fuseWords (s : State) (first count : Nat) : List Word :=
  (List.range ((count + 71) / 72)).map (fun w =>
    (List.range 72).foldl (fun d j =>
      if decide (72 * w + j < count) && fuseBit s (first + 72 * w + j) then d ||| (1#72 <<< j) else d) 0)

/-- OTP_READ (R577). -/
def execOtpRead (dt : Nat) (hc : Hc) (s : State) : Host.Outcome State Fault Refusal :=
  command dt hc 0x004 1 32 s (fun p s =>
    let w := p.word 1
    let n := fld w 25 14
    if reservedSet w (bits 25 0) then .undef 8
    else if n = 0 ∨ 2304 < n then .done s stLength []
    else .done s stOk (fuseWords s (fld w 13 0) n))

/-- RESOURCE_CLAIM (R126, R162). -/
def execResourceClaim (dt : Nat) (hc : Hc) (s : State) : Host.Outcome State Fault Refusal :=
  command dt hc 0x008 1 1 s (fun p s =>
    let w := p.word 1
    let k := resKey (fld w 7 0) (fld w 23 8)
    if reservedSet w (bits 23 0) then .undef 8
    else if isResource (fld w 7 0) (fld w 23 8) = false then .undef 7
    else match tblGet s.owners k with
      | none => .done { s with owners := tblPut s.owners k (.host hc) } stOk [holderWord (some (.host hc))]
      | some h =>
        if h = .host hc then .done s stOk [holderWord (some h)] else .done s stResourceHeld [holderWord (some h)])

/-- Detaches a pin's function and returns it to its state of R37 (R155, R161). -/
def releasePin (s : State) (pin : Nat) : State :=
  let s := { s with pins := { s.pins with fn := tblErase s.pins.fn pin, level := tblErase s.pins.level pin } }
  if pin < 32 then
    { s with pins := { s.pins with gpioOut := s.pins.gpioOut &&& ~~~(1#32 <<< pin),
                                   gpioOe := s.pins.gpioOe &&& ~~~(1#32 <<< pin) } }
  else if 52 ≤ pin then
    { s with pinRoutes := s.pinRoutes.filter (fun e => e.1 % 4 != pin - 52),
             latches := s.latches.filter (fun e => e.1 / 8 != pin - 52) }
  else s

/-- RESOURCE_RELEASE (R126, R161). -/
def execResourceRelease (dt : Nat) (hc : Hc) (s : State) : Host.Outcome State Fault Refusal :=
  command dt hc 0x009 1 0 s (fun p s =>
    let w := p.word 1
    let cls := fld w 7 0
    let idx := fld w 23 8
    if reservedSet w (bits 23 0) then .undef 8
    else if isResource cls idx = false then .undef 7
    else if owns s hc cls idx = false then .done s stNotOwner []
    else
      let s := { s with owners := tblErase s.owners (resKey cls idx) }
      .done (if cls = 5 then releasePin s idx else s) stOk [])

/-- RESOURCE_QUERY (R124). -/
def execResourceQuery (dt : Nat) (hc : Hc) (s : State) : Host.Outcome State Fault Refusal :=
  command dt hc 0x00A 1 1 s (fun p s =>
    let w := p.word 1
    if reservedSet w (bits 23 0) then .undef 8
    else if isResource (fld w 7 0) (fld w 23 8) = false then .undef 7
    else .done s stOk [holderWord (tblGet s.owners (resKey (fld w 7 0) (fld w 23 8)))])

/-- The groups of a mask, ascending. -/
def groupsOf (mask : Nat) : List Nat := (List.range 64).filter (fun g => mask.testBit g)

/-- LOCK_ACQUIRE (R127, R128): every group of the mask, or none. -/
def execLockAcquire (dt : Nat) (hc : Hc) (s : State) : Host.Outcome State Fault Refusal :=
  command dt hc 0x010 2 1 s (fun p s =>
    let gs := groupsOf (fld (p.word 1) 63 0)
    if reservedSet (p.word 1) (bits 63 0) ∨ reservedSet (p.word 2) (bits 15 0) then .undef 8
    else match gs.findSome? (lockedBy s hc) with
      | some other => .done s stLocked [holderWord (some (.host other))]
      | none =>
        let ms := fld (p.word 2) 15 0
        .done { s with locks := gs.foldl (fun t g => tblPut t g ⟨hc, ms, s.now + leaseOf s ms⟩) s.locks } stOk [])

/-- LOCK_RELEASE (R127): groups not held refuse it with ST_NOT_OWNER (R119). -/
def execLockRelease (dt : Nat) (hc : Hc) (s : State) : Host.Outcome State Fault Refusal :=
  command dt hc 0x011 1 0 s (fun p s =>
    let gs := groupsOf (fld (p.word 1) 63 0)
    if reservedSet (p.word 1) (bits 63 0) then .undef 8
    else if gs.all (fun g => match tblGet s.locks g with | some l => l.hc == hc | none => false) then
      .done { s with locks := gs.foldl tblErase s.locks } stOk []
    else .done s stNotOwner [])

/-- A PARAM_GET result word (R147). -/
def paramWord (s : State) (id : Nat) : Word :=
  match paramRow id with
  | none => at' 70 1
  | some _ => (parStored s id).setWidth 72 ||| (if parPending s id then at' 71 1 else 0)

/-- PARAM_GET (R128, R129, R131, R147). -/
def execParamGet (dt : Nat) (hc : Hc) (s : State) : Host.Outcome State Fault Refusal :=
  command dt hc 0x018 1 255 s (fun p s =>
    let ws := p.payload.take 255
    if ws.any (fun w => reservedSet w (bits 15 0)) then .undef 8
    else
      let ids := ws.map (fun w => fld w 15 0)
      let named := ids.filter (fun id => (paramRow id).isSome)
      .done (named.foldl (fun s id => renew hc s (groupOf id)) s) stOk (ids.map (paramWord s)))

/-- TXN_BEGIN (R131). -/
def execTxnBegin (dt : Nat) (hc : Hc) (s : State) : Host.Outcome State Fault Refusal :=
  command dt hc 0x01A 0 0 s (fun _ s => .done (setCtx s hc { ctx s hc with txn := some [] }) stOk [])

/-- TXN_ABORT (R122). -/
def execTxnAbort (dt : Nat) (hc : Hc) (s : State) : Host.Outcome State Fault Refusal :=
  command dt hc 0x01C 0 0 s (fun _ s => .done (setCtx s hc { ctx s hc with txn := none }) stOk [])

/-- Closes a route's open window, its pending entry written at once under the present vector (R157). -/
def closeWindow (s : State) (hc : Hc) (k : Nat) : State :=
  let r := tblAt s.routes k {}
  let s := { s with routes := tblPut s.routes k { r with opened := none, held := none } }
  match r.held with
  | some e => { s with evOut := s.evOut ++ [⟨hc, r.vector, e⟩] }
  | none => s

/-- EVENT_ROUTE (R155, R157). DESIGN CHOICES: a coalescing window above 10,000 is out of range for either target, and a route
command that repeats the present values closes an open window like one that changes them (log 206). -/
def execEventRoute (dt : Nat) (hc : Hc) (s : State) : Host.Outcome State Fault Refusal :=
  command dt hc 0x020 2 0 s (fun p s =>
    let w := p.word 1
    let src := fld w 7 0
    let target := fld w 9 8
    let pin := fld w 12 11
    let window := fld (p.word 2) 15 0
    if reservedSet w (bits 17 0) ∨ reservedSet (p.word 2) (bits 15 0) then .undef 8
    else if 1 < target ∨ 10000 < window then .undef 7
    else if target = 1 then
      if owns s hc 5 (52 + pin) = false then .done s stNotOwner []
      else .done { s with pinRoutes := if w.getLsbD 10 then tblPut s.pinRoutes (4 * src + pin) true
                                       else tblErase s.pinRoutes (4 * src + pin) } stOk []
    else
      let k := 4 * src + hc.val
      let s := closeWindow s hc k
      .done { s with routes := tblPut s.routes k { on := w.getLsbD 10, vector := max 1 (fld w 17 13), window := window } }
        stOk [])

/-- MEM_READ (R575): reserved addresses read as zero; a poisoned word ends it (R171 code 13). -/
def execMemRead (dt : Nat) (hc : Hc) (s : State) : Host.Outcome State Fault Refusal :=
  command dt hc 0x800 1 255 s (fun p s =>
    let w := p.word 1
    if reservedSet w (bits 30 0) then .undef 8
    else if fld w 30 23 = 0 then .undef 7
    else match hostReads 13 (fld w 30 23) (fld w 22 0) s with
      | (s, .inl ws) => .done s stOk ws
      | (s, .inr i) => .done s stPoisoned [at' 0 i])

/-- MEM_WRITE (R575): full words into the context's own SQ and host window; elsewhere it is action 1 of R569. -/
def execMemWrite (dt : Nat) (hc : Hc) (s : State) : Host.Outcome State Fault Refusal :=
  command dt hc 0x801 2 0 s (fun p s =>
    let w := p.word 1
    let n := fld w 30 23
    if reservedSet w (bits 30 0) then .undef 8
    else if n = 0 then .undef 7
    else if p.payload.length < n + 1 then .done s stLength []
    else match hostWriteRun hc (fld w 22 0) ((p.payload.drop 1).take n) s with
      | .ok s => .done s stOk []
      | .error k => .undef k)

/-- The error log's entries from index `i` on, oldest first: 16 slots beginning at NEXT (R177, R178). -/
def logWords (l : ErrLog) : List Word :=
  let slots := (List.range 16).map (fun i => tblAt l.entries ((l.next.toNat + i) % 16) ⟨0, 0⟩)
  let held := slots.filter (fun e => e.a.getLsbD 31)
  (held ++ List.replicate (16 - held.length) (⟨0, 0⟩ : LogEntry)).flatMap (fun e : LogEntry => [e.a.setWidth 72, e.b.setWidth 72])

/-- ERRLOG_READ (R178): the log is returned and emptied, NEXT unchanged. -/
def execErrlogRead (dt : Nat) (hc : Hc) (s : State) : Host.Outcome State Fault Refusal :=
  command dt hc 0x803 0 32 s (fun _ s =>
    .done { s with errLog := { s.errLog with entries := [], overwritten := 0 } } stOk (logWords s.errLog))

/-- OPCODE_REFUSED (R119, R122): a packet whose opcode the catalogue lacks is consumed and refused. -/
def execOpcodeRefused (dt : Nat) (hc : Hc) (s : State) : Host.Outcome State Fault Refusal :=
  let op := match sqHeader s hc with
    | .clean h => fld h 11 0
    | .corrected h => fld h 11 0
    | .invalid => 0x000
    | _ => 0xFFF
  if (catalogued op).isSome then .next (advance dt s)
  else
    let s := advance dt s
    let c := ctx s hc
    if !(serving s && c.st == 1 && !c.stopped && decide (0 < sqCount c)) then .next s
    else match sqHeader s hc with
      | .poisoned => .next (stopAtHeader s hc)
      | .bad => .next (stopAtHeader s hc)
      | _ =>
        let r := readWord s (ringBase hc + c.sqHead.toNat % 1024) 11
        let h := r.2.getD 0
        if consumable s hc h 1 = false then .next s
        else if fld h 45 41 ≠ 0 ∨ fld h 71 48 ≠ 0 then .fault (.undefinedHostAction 8)
        else
          .next (completeAs (consume r.1 hc h) hc op h (if fld h 47 46 ≠ hc.val then stNotOwner else stOpcode) [])

/-! ### Event queues -/

/-- The four words of an entry (R153). -/
def entryWords (e : Entry) (seq : BitVec 16) : List Word :=
  [at' 0 e.source.toNat ||| at' 8 (min 65535 e.count) ||| at' 24 seq.toNat, e.time, e.w2, e.w3]

/-- Writes an entry at the EQ's tail and signals its vector (R101, R153, R159). -/
def writeEntry (s : State) (hc : Hc) (vector : Nat) (e : Entry) : State :=
  let c := ctx s hc
  let s := ringWrite (ringBase hc + 0x800) 512 s c.eqTail.toNat (entryWords e c.seq)
  let c := { c with eqTail := c.eqTail + 4, seq := c.seq + 1 }
  if 2 ≤ vector then signal (setCtx s hc c) hc vector
  else if c.vec1 then signal (setCtx s hc { c with vec1 := false }) hc 1
  else setCtx s hc c

/-- An entry finds the EQ as R158 says: written, replaced by EV_EQ_OVERFLOW, or lost. -/
def postEntry (s : State) (hc : Hc) (vector : Nat) (e : Entry) : State :=
  let c := ctx s hc
  if !c.eqFull && decide (8 ≤ eqFree c) then writeEntry s hc vector e
  else
    let lost := sat32 c.eqLost
    let s := setCtx s hc { c with eqLost := lost }
    if !c.eqFull && decide (4 ≤ eqFree c) then
      writeEntry (setCtx s hc { c with eqLost := lost, eqFull := true }) hc 1
        { source := 9, count := 1, time := time s, w2 := at' 0 (min 65535 lost.toNat), w3 := 0 }
    else s

/-- The oldest waiting entry of a context, and the rest. -/
def takeEntry (hc : Hc) : List EvOut → Option (EvOut × List EvOut)
  | [] => none
  | e :: es => if e.hc = hc then some (e, es) else (takeEntry hc es).map (fun r => (r.1, e :: r.2))

/-- EQ_ENTRY_WRITE (R153, R158, R159): the oldest raised entry of a context reaches its EQ. -/
def execEqEntryWrite (dt : Nat) (hc : Hc) (s : State) : Host.Outcome State Fault Refusal :=
  always dt s (fun s =>
    if serving s then match takeEntry hc s.evOut with
      | some (e, es) => postEntry { s with evOut := es } hc e.vector e.entry
      | none => s
    else s)

/-- COALESCE_WINDOW_END (R157). -/
def execCoalesceWindowEnd (dt : Nat) (hc : Hc) (source : BitVec 8) (s : State) : Host.Outcome State Fault Refusal :=
  always dt s (fun s =>
    let k := 4 * source.toNat + hc.val
    let r := tblAt s.routes k {}
    match r.opened with
    | none => s
    | some t =>
      if serving s && due s t then
        match r.held with
        | none => { s with routes := tblPut s.routes k { r with opened := none } }
        | some e =>
          { s with evOut := s.evOut ++ [⟨hc, r.vector, e⟩],
                   routes := tblPut s.routes k { r with opened := some (t + usC r.window), held := none } }
      else s)

end Sys2Proof.Machine
end

