-- ==== Sys2Proof/Machine/MacRx.lean ====
section
/-!
DEFINITION. The receive MAC engines (chapter 11): parsing, replay, keys and MIC, timing, acknowledgements, and the
pruning of shadow items (R350 to R361, R370 to R373, R443, R460, R466, R578).
-/

namespace Sys2Proof.Machine

/-! ### Parsing (R350 to R352) -/

/-- A parsed frame: its header, security level (0: none), header IEs, and where its parts begin. -/
structure Parsed where
  hdr : MacHdr
  level : Nat
  ies : List (Nat × Octets)
  auxAt : Nat
  bodyAt : Nat
  /-- the header IEs end with termination 1: payload IEs follow -/
  payloadIes : Bool

/-- Octets of an auxiliary security header by its first octet (IEEE 802.15.4-2020). -/
def auxLen (o : Nat) : Nat :=
  let id := o / 8 % 4
  1 + (if o.testBit 5 then 0 else 4) + (if id = 0 then 0 else if id = 1 then 1 else if id = 2 then 5 else 9)

/-- Parses a frame without its FCS (R351). -/
def parseFrame (os : Octets) : Option Parsed :=
  match parseHdr os with
  | none => none
  | some h =>
    let o := oct' os h.len
    let a := if h.fcf.secured then auxLen o else 0
    let level := if h.fcf.secured then o % 8 else 0
    if os.length < h.len + a then none
    else if h.fcf.ies = false then
      (if os.length < h.len + a + micLen level then none else some ⟨h, level, [], h.len, h.len + a, false⟩)
    else match headerIes 64 (os.drop (h.len + a)) with
      | none => none
      | some (ies, n) =>
        let last := leField os (h.len + a + n - 2) 2 / 128 % 256
        if os.length < h.len + a + n + micLen level then none else some ⟨h, level, ies, h.len, h.len + a + n, n != 0 && last == 0x7E⟩
where
  /-- An octet, as a number. -/
  oct' (os : Octets) (i : Nat) : Nat := (os.getD i 0).toNat

/-- The payload after payload IEs, through their termination (IEEE 802.15.4-2020). -/
def skipPayloadIes : Nat → Octets → Octets
  | 0, os => os
  | fuel + 1, os =>
    if os.length < 2 then []
    else
      let h := leField os 0 2
      if h / 2048 % 16 = 0xF then os.drop (2 + h % 2048) else skipPayloadIes fuel (os.drop (2 + h % 2048))

/-- Content of a header IE. -/
def ieOf (p : Parsed) (id : Nat) : Option Octets := (p.ies.find? (fun e => e.1 == id)).map (·.2)

/-- The Origin IE: domain, origin and ASN (R352). -/
def originOf (p : Parsed) (id : Nat) : Option (BitVec 8 × Eui × Nat) :=
  match ieOf p id with
  | some c => if c.length = 14 then some (c.getD 0 0, BitVec.ofNat 64 (beField c 1 8), beField c 9 5) else none
  | none => none

/-- The Pair IE: TAG, INDEX and final destination (R373). -/
def pairOf (p : Parsed) (id : Nat) : Option (BitVec 32 × BitVec 8 × Eui) :=
  match ieOf p id with
  | some c => if c.length = 13 then some (BitVec.ofNat 32 (leField c 0 4), c.getD 4 0, BitVec.ofNat 64 (beField c 5 8)) else none
  | none => none

/-! ### The replay filter (R355, R356) -/

/-- The lowest ASN of the filter. -/
def lowestAsn (es : List (BitVec 8 × Eui × Nat)) : Nat := es.foldl (fun m e => min m e.2.2) (2 ^ 40)

/-- Inserts a frame in the filter (R356). -/
def replayInsert (s : State) (n : Nat) (e : BitVec 8 × Eui × Nat) : State :=
  let es := s.mac.replay
  if es.length < 16384 then { s with mac := { s.mac with replay := es ++ [e] } }
  else
    let kept := es.filter (fun x => decide (n - replayWindow s ≤ x.2.2))
    if kept.length < es.length then { s with mac := { s.mac with replay := kept ++ [e] } }
    else
      let a := lowestAsn es
      match es.find? (fun x => x.2.2 == a) with
      | some x => bump { s with mac := { s.mac with replay := es.erase x ++ [e], replayFloor := a } } 0xE80
      | none => s

/-! ### Pair mode (R370, R371, R373, R443) -/

/-- The acting preferred unit (R557). -/
def preferred (s : State) : Bool := s.pair.acting.getD (parB s 0x9001)

/-- Whether a watched beacon cell falls at an ASN (R370). -/
def watchedAt (s : State) (a : Nat) : Bool :=
  (cells s).any (fun c => c.use == 3 && c.sf == par s 0x9400 && c.band == par s 0x9401 && cellFalls s c a)

/-- The first start of a slotframe at or after a base slot. -/
def startFrom (s : State) (f a : Nat) : Nat :=
  let p := sfMult s f * sfLen s f
  if p = 0 then a else (a + p - 1) / p * p

/-- A partner beacon that passed R353 (R370, R371). -/
def hearBeacon (s : State) (a : Nat) (rxTime : Time72) : State :=
  let f := par s 0x9400
  let m := sfMult s f
  let inSlot : Bool := match asnNow s with | some n => decide (a ≤ n ∧ n < a + m) | none => false
  if watchedAt s a ∧ inSlot then
    let due := if s.pairRole = 1 ∧ preferred s then some ((2 : BitVec 2), 3, startFrom s f ((asnNow s).getD 0 + 1)) else s.pair.due
    bump { s with pair := { s.pair with heardAsn := some a, heardTime := rxTime, due := due } } 0xE82
  else s

/-- Ends a shadow item that the partner has sent (R373, R443). -/
def pruneItem (s : State) (i : Item) : State :=
  let s := bump s 0xE84
  match i.src with
  | .flow _ _ _ =>
    let b := i.band.val
    endItem { s with shape := { s.shape with v := tblPut s.shape.v b (max (vNow s b) i.tag) } } { i with shadow := false } stOk 0
  | _ => endItem s { i with shadow := false } stShadowPruned 0

/-- Prunes the shadow items of a partner frame's TAG, INDEX and domain (R373). -/
def pruneShadows (s : State) (d : BitVec 8) (tag : BitVec 32) (index : BitVec 8) : State :=
  if standby s then
    (s.mac.items.filter (fun i => i.pairTag == tag && i.pairIndex == index && i.domain == d &&
      (i.st == .queued || i.st == .held))).foldl pruneItem s
  else s

/-- A partner frame is remembered for a second (R558). -/
def overhear (s : State) (d : BitVec 8) (tag : BitVec 32) (index : BitVec 8) : State :=
  let kept := s.pair.overheard.filter (fun e => decide (s.now < e.2.2.2 + secC 1))
  pruneShadows { s with pair := { s.pair with overheard := kept ++ [(d, tag, index, s.now)] } } d tag index

/-! ### Acknowledgements (R357 to R361, R366, R578) -/

/-- Centre frequency of a receive channel, kHz (R262). -/
def chanFreq (s : State) (b ch : Nat) : Nat :=
  let d := (chanOf s (chanKey b ch)).def_
  let fine : Int := (d.extractLsb' 16 16).toInt
  ((windowLo s b : Int) + (2 * (fld d 10 1) + defBins d - 1 : Nat) * 25 - 25600 + roundDiv fine 1000).toNat

/-- A Time Correction IE's content (IEEE 802.15.4-2020), for a correction that its 12 bits hold; a free value for another. -/
def corrContent (s : State) (c : Int) : State × Octets :=
  if -2048 ≤ c ∧ c < 2048 then (s, leOctets 2 ((BitVec.ofInt 12 c).toNat))
  else
    let r := drawFree s
    (r.1, leOctets 2 (fld r.2 11 0))

/-- The time correction of a group entry, a free value where 16 bits do not hold it. -/
def corr16 (s : State) (c : Int) : State × BitVec 16 :=
  if -32768 ≤ c ∧ c < 32768 then (s, BitVec.ofInt 16 c)
  else
    let r := drawFree s
    (r.1, BitVec.ofNat 16 (fld r.2 15 0))

/-- What an acknowledgement needs to know of the frame it acknowledges. -/
structure AckFor where
  band : Band
  ch : Nat
  profile : Nat
  endAt : Nat
  hdr : MacHdr
  /-- domain and sub-slot that verified the frame; none for a plain frame -/
  key : Option (BitVec 8 × Nat)
  corr : Int
  rxAsn : Nat

/-- The acknowledgement frame before security (R357, R578). -/
def ackFrame (a : AckFor) (content : Octets) : Octets :=
  let h := a.hdr
  let fcf := 2 + 0x40 + 0x200 + 0x2000 + (if h.fcf.srcMode = 3 then 0xC00 else 0x800) + (if h.fcf.seqSup then 0x100 else 0)
  leOctets 2 fcf ++ (if h.fcf.seqSup then [] else [h.seq]) ++ leOctets (addrLen h.fcf.srcMode) h.src ++
    headerIe 0x1E content

/-- The highest-numbered chain in RX with no transmission over an item's span (R357). -/
def ackChain (s : State) (i : Item) : Option Item :=
  let b := i.band.val
  let only := modeCh0 (txMode s b i.mode) || modePhy (packetMode s b i.mode) == 2
  (if only then [4 * b] else [4 * b + 3, 4 * b + 2, 4 * b + 1, 4 * b]).findSome? (fun c =>
    let j := spanOn s i c
    let x := chainSt s c
    if x.st = .rx ∧ x.target.isNone ∧ !s.mac.items.any (fun k => booked k && k.chain == some (Fin.ofNat 12 c) && overlaps k j) then some j
    else none)

/-- Whether one key serves at an ASN already (R354). -/
def keyUsed (s : State) (i : Item) : Bool :=
  match keyId i with
  | some k => s.mac.used.contains (k.1, k.2, i.asn)
  | none => false

/-- Places an immediate acknowledgement, or none where it is skipped (R354, R357). -/
def immediateAck (s : State) (a : AckFor) : Option State :=
  let b := a.band.val
  let at_ := a.endAt + usC (par s (0x28C0 + b))
  let mode := par s (0x2900 + 32 * b + a.profile)
  let r := corrContent s a.corr
  let frame := ackFrame a r.2
  let instant := timeAt s at_
  let secured := a.key.isSome
  let key : SecKey := match a.key with
    | some (d, _) => .node (keyWord d (BitVec.ofNat 64 a.hdr.src))
    | none => .plain
  let i : Item := { id := 0, src := .ack, band := a.band, cell := .given, domain := (a.key.map (·.1)).getD 0, mode := mode,
                    key := key, sub := a.key.map (·.2), hdrLen := frame.length, frame := frame,
                    psdu := frame.length + overhead s b mode secured (par s 0xC000) -
                      (if secured ∧ paired s then 15 else 0),
                    st := .eligible, asn := (asnOf s instant).getD 0, slot := instant, instant := instant,
                    freq := chanFreq s b a.ch }
  if at_ < s.now + usC 60 ∨ keyUsed s i ∨ (secured ∧ a.hdr.fcf.srcMode ≠ 3) then none
  else (ackChain s i).map (fun j =>
    let s := addItem r.1 j
    match keyId j with
    | some k => { s with mac := { s.mac with used := s.mac.used ++ [(k.1, k.2, j.asn)] } }
    | none => s)

/-- A frame joins the group list (R358, R359). -/
def groupAck (s : State) (a : AckFor) : State :=
  match a.key with
  | some (d, _) =>
    let r := corr16 s a.corr
    placeGroup r.1 0 { band := a.band, domain := d, tag := BitVec.ofNat 32 (autoHash s (BitVec.ofNat 64 a.hdr.src) false),
                       seq := if a.hdr.fcf.seqSup then 0 else a.hdr.seq, rxAsn := a.rxAsn, tcorr := r.2, asn := 0, cell := 0 }
  | none => s

/-- Acknowledges a frame that R578 acknowledges, in its channel's mode. -/
def acknowledge (s : State) (a : AckFor) : State :=
  let b := a.band.val
  let mode := par s (0x2800 + 64 * b + a.ch)
  if mode = 1 ∨ mode = 3 then
    match immediateAck s a with
    | some s => s
    | none =>
      let s := bump s (0xE0B + 32 * b)
      if mode = 3 then groupAck s a else s
  else if mode = 2 then groupAck s a
  else s

/-- ACK_KIND, ACK_RSSI and ACK_CORR (R367). -/
def ackWord (rssi : Nat) (c : Int) : Word := at' 0 1 ||| at' 2 rssi ||| at' 16 (BitVec.ofInt 16 c).toNat

/-- The time correction that an Enhanced Acknowledgement carries, µs. -/
def corrOf (p : Parsed) : Int :=
  match ieOf p 0x1E with
  | some c => (BitVec.ofNat 12 (leField c 0 2 % 4096)).toInt
  | none => 0

/-- The item that an acknowledgement answers: it waits on the band for its destination's answer to its sequence number (R366,
R367). -/
def ackedItem (s : State) (b : Band) (p : Parsed) (origin : Option Eui) (t : Nat) : Option Item :=
  s.mac.items.find? (fun i => i.st == .awaitAck && i.band == b && decide (t ≤ i.ackAt) &&
    (let h := parseHdr i.frame
     let sameSeq : Bool := match h with | some h => p.hdr.fcf.seqSup || h.fcf.seqSup || p.hdr.seq == h.seq | none => true
     sameSeq && (match origin, i.node with
       | some e, some w => keyEui w == e
       | some e, none => (h.map (·.dst)) == some e.toNat
       | none, _ => i.key == .plain)))

/-- An acknowledgement for a device frame: a contact of its node, and the item's end (R360, R366, R367). -/
def takeAck (s : State) (b : Band) (p : Parsed) (origin : Option Eui) (rssi endAt : Nat) (rxTime : Time72) : State :=
  match ackedItem s b p origin endAt with
  | none => s
  | some i =>
    let c := corrOf p
    let s := match i.node with
      | some w =>
        (match timingPlace s w with
         | some pl =>
           let d := predicted (placeNode s pl) i.txTime.toNat
           contactAt s (match pl with | .slot p _ => p | .victim p => p | .overflow p _ => p) pl (roundDiv (d * 1000000) (2 ^ 32) + c) rxTime.toNat
         | none => s)
      | none => s
    endItem s i stOk (ackWord rssi c)

/-! ### RX_FRAME_PROCESS -/

/-- Drops a frame: its buffer returns and it gives up its place (R13, R290). -/
def discardFrame (s : State) (f : RxFrame) : State :=
  returnBuffer { s with rx := { s.rx with frames := s.rx.frames.erase f } } f.band.val f.buffer

/-- Combined SNR in 0.5 dB steps above −32 dB, saturating (R381). -/
def lqOf (snr : BitVec 10) : BitVec 8 := BitVec.ofInt 8 (max 0 (min 255 (snr.toInt / 2 + 64)))

/-- Strongest antenna (R381). -/
def bestRssi (w : Word) : Nat := max (max (fld w 7 0) (fld w 15 8)) (max (fld w 23 16) (fld w 31 24))

/-- The key a secured frame is verified with: broadcast, or a node's (R352, R373, R460). -/
def verifyNode (s : State) (p : Parsed) (pairId : Nat) (d : BitVec 8) (origin : Eui) : Option Word :=
  let h := p.hdr
  if paired s ∧ origin.toNat = par s 0x9003 then
    match pairOf p pairId with
    | some (_, _, e) => some (keyWord d e)
    | none => if h.fcf.dstMode = 3 then some (keyWord d (BitVec.ofNat 64 h.dst)) else none
  else if h.fcf.type = 0 ∨ (h.fcf.dstMode = 2 ∧ h.dst = 0xFFFF) then none
  else some (keyWord d origin)

/-- What trying a frame's keys comes to: the sub-slot and text of the first that verifies, no key verifies, or a key is refused as
poisoned. -/
inductive Tried where
  | verified (sub : Nat) (text : Octets)
  | failed
  | refused

/-- Tries the sub-slots in order (R460). -/
def tryKeys (d : Nat) (node : Option Word) (nonce aData text : Octets) (level : Nat) : List Nat → State → State × Tried
  | [], s => (s, .failed)
  | sub :: subs, s =>
    match frameKey s d sub node with
    | (s, none) => (s, .refused)
    | (s, some key) =>
      match ccmOpen key nonce aData text level with
      | some m => (s, .verified sub m)
      | none => tryKeys d node nonce aData text level subs s

/-- The refusal counters of a band (R466). -/
def keyRefusal (b : Nat) (st : Status) : Nat :=
  0x1400 + 8 * b + (if st = stKeyOrphaned then 1 else if st = stKeyUsage then 2 else if st = stPoisoned then 3 else 0)

/-- What a frame has proved by R353. -/
structure Verified where
  domain : BitVec 8
  origin : Eui
  asn : Nat
  sub : Nat
  text : Octets

/-- The request that a receive ME presents for a frame that it claims, by the origin in the frame's octets: the reference to the first
sub-slot that R460 has it try, where one is loaded (R464; log 234). -/
def requestOf (s : State) (os : Octets) : Option KeyRef :=
  match descriptorOf s (leField os 0 2), parseFrame os with
  | some d, some p =>
    (match originOf p (fld d.2 7 0) with
     | some (dom, origin, _) =>
       (match rxSubs s (verifyNode s p (fld d.2 15 8) dom origin).isNone dom.toNat with
        | .inl (sub :: _) => if fld d.1 34 33 = 1 then none else some (refOf s dom.toNat sub)
        | _ => none)
     | none => none)
  | _, _ => none

/-- R353, R460 and R464: the checks of a secured frame in order; a failure is counted. A request whose reference is stale at the grant
fails ST_KEY_ORPHANED. -/
def verifyFrame (ref : Option KeyRef) (s : State) (b : Nat) (d : Word × Word) (os : Octets) (p : Parsed) : State × Option Verified :=
  let c (k : Nat) : State × Option Verified := (bump s (0xE00 + 32 * b + k), none)
  match asnNow s with
  | none => c 9
  | some n =>
    match originOf p (fld d.2 7 0) with
    | none => c 3
    | some (dom, origin, a) =>
      if p.level < fld d.1 37 35 then c 4
      else if a + replayWindow s < n ∨ n + replayWindow s < a then c 5
      else if a ≤ s.mac.replayFloor then c 6
      else if s.mac.replay.contains (dom, origin, a) then c 7
      else
        if (ref.map (refStale s)).getD false then (bump s (keyRefusal b stKeyOrphaned), none)
        else
          let node := verifyNode s p (fld d.2 15 8) dom origin
          let q := ensureDomain s dom.toNat
          let s := q.1
          match rxSubs s node.isNone dom.toNat with
          | .inr st => (bump s (keyRefusal b (refusalOf q.2 st)), none)
          | .inl subs =>
            let aData := (os.take p.bodyAt).drop p.auxAt
            match tryKeys dom.toNat node (nonceOf origin a) aData (os.drop p.bodyAt) p.level subs s with
            | (s, .failed) => (bump s (0xE08 + 32 * b), none)
            | (s, .refused) => (bump s (keyRefusal b stPoisoned), none)
            | (s, .verified sub text) =>
              let prev : Bool := match currentSub s dom.toNat with | some cur => cur != sub | none => false
              let s := if prev then bump s (0x1404 + 8 * b) else s
              (replayInsert s n (dom, origin, a), some ⟨dom, origin, a, sub, text⟩)

/-- Measured offset of a direct frame, µs (R360). -/
def frameOffset (s : State) (v : Verified) (rxTime : Time72) : Int :=
  let cls := match timingPlace s (keyWord v.domain v.origin) with | some c => (placeNode s c).cls.toNat | none => 0
  let d : Int := (rxTime.toNat : Int) - (slotStart s v.asn : Int)
  roundDiv (d * 1000000) (2 ^ 32) - ((par s 0x2C02 + par s (0x2C20 + cls) : Nat) : Int)

/-- The reception ASN: that of the base slot containing RX_TIME. -/
def receptionAsn (s : State) (rxTime : Time72) : Nat := (asnOf s rxTime.toNat).getD 0

/-- Hands a frame to its DEST with what the ME found (R353, R378). -/
def deliver (s : State) (f : RxFrame) (m : RxMeta) : State :=
  if m.dest = 2 then discardFrame s f
  else { s with rx := { s.rx with frames := s.rx.frames.map (fun x => if x = f then { f with place := .finished, info := some m } else x) } }

/-- A frame after its words are read (R351, R353, R360, R578). -/
def processFrame (ref : Option KeyRef) (s : State) (f : RxFrame) (ws : List Word) (os : Octets) : State :=
  let b := f.band.val
  let fail (s : State) (k : Nat) : State := discardFrame (bump s (0xE00 + 32 * b + k)) f
  if os.length < 2 then fail s 2
  else match descriptorOf s (leField os 0 2) with
    | none => fail s 0
    | some d =>
      if 2 ≤ fld d.1 34 33 then fail s 1
      else match parseFrame os with
        | none => fail s 2
        | some p =>
          let h := p.hdr
          let rxTime := ws.getD 1 0
          let w0 := ws.getD 0 0
          let w2 := ws.getD 2 0
          let plain := fld d.1 34 33 == 1
          let dest := if fld d.1 39 38 = 3 then 1 else fld d.1 39 38
          let wants := d.1.getLsbD 40 && h.fcf.ackReq && h.fcf.dstMode == 3 && h.dst == devEui s && !standby s
          let payload (text : Octets) : Octets := if p.payloadIes then skipPayloadIes 64 text else text
          let ack (s : State) (key : Option (BitVec 8 × Nat)) (corr : Int) : State :=
            if wants then acknowledge s { band := f.band, ch := fld w0 19 14, profile := fld w0 25 21, endAt := f.endAt, hdr := h,
                                          key := key, corr := corr, rxAsn := receptionAsn s rxTime }
            else s
          let info : RxMeta :=
            { domain := 0, origin := BitVec.ofNat 64 h.src, secured := false, direct := true, asn := receptionAsn s rxTime,
              src := h.src, srcLen := addrLen h.fcf.srcMode, dst := h.dst, dstLen := addrLen h.fcf.dstMode, keyGen := 0,
              timing := none, corrected := false, dest := dest, payload := payload (os.drop p.bodyAt), frame := os,
              time := rxTime, ants := BitVec.ofNat 4 (fld w0 40 37), rssi := BitVec.ofNat 8 (bestRssi w2),
              lq := lqOf (BitVec.ofNat 10 (fld w2 41 32)) }
          if plain then
            let s := if h.fcf.type = 2 then takeAck s f.band p none (bestRssi w2) f.endAt rxTime else s
            let r := drawFree (ack s none 0)
            deliver r.1 f { info with domain := BitVec.ofNat 8 (fld r.2 7 0) }
          else match verifyFrame ref s b d os p with
            | (s, none) => discardFrame s f
            | (s, some v) =>
              let direct := h.fcf.srcMode == 3 && h.src == v.origin.toNat
              let e := frameOffset s v rxTime
              let s := if h.fcf.type = 2 then takeAck s f.band p (some v.origin) (bestRssi w2) f.endAt rxTime else s
              let partner : Bool := paired s && v.origin.toNat == par s 0x9003
              let s := if partner ∧ h.fcf.type = 0 then hearBeacon s v.asn rxTime else s
              let s := match partner, pairOf p (fld d.2 15 8) with
                | true, some (tag, index, _) => overhear s v.domain tag index
                | _, _ => s
              let s := ack s (some (v.domain, v.sub)) (if direct then -e else 0)
              deliver s f { info with domain := v.domain, origin := v.origin, secured := true, direct := direct, asn := v.asn,
                                      keyGen := BitVec.ofNat 8 ((subGen s v.domain.toNat v.sub).getD 0),
                                      timing := if direct then some (e, rxTime) else none, corrected := wants && direct,
                                      payload := payload v.text, frame := os.take p.bodyAt ++ v.text }

/-- Whether the reorder window of a band is full: 64 of its frames stand finished behind an earlier one still in process (R13). -/
def windowFull (s : State) (b : Band) : Bool :=
  let fs := s.rx.frames.filter (fun f => f.band == b)
  let early := fs.dropWhile (fun f => f.place == .finished)
  (match early.head? with | some f => f.place != .waiting | none => false) &&
    decide (64 ≤ (early.filter (fun f => f.place == .finished)).length)

/-- The frame that a receive ME works on: the one it has claimed, else the oldest unclaimed of any band whose window has room (R13). -/
def nextFrame (s : State) (engine : Fin 4) : Option RxFrame :=
  match s.rx.frames.find? (fun f => f.place == .claimed engine) with
  | some f => some f
  | none => s.rx.frames.find? (fun f => f.place == .waiting && !windowFull s f.band)

/-- RX_FRAME_PROCESS (R13, R171 code 3, R350 to R361, R578): a receive ME claims a frame, or with `ends` completes the one it works on. A
gated receive ME wakes for it (R221). -/
def execRxFrameProcess (dt : Nat) (engine : Fin 4) (ends : Bool) (s : State) : Host.Outcome State Fault Refusal :=
  live dt s (fun s =>
    if engineRuns s (14 + engine.val) = false then s
    else match nextFrame s engine with
      | none => s
      | some f =>
        let s := setGate s (14 + engine.val) 0
        let a := bufferAddr f.band.val f.buffer
        if ends = false then
          let os := ((unpackWords ((List.range ((f.octets + 8) / 9)).map (fun i => peek s (a + 4 + i)))).take f.octets).take (f.octets - f.fcs)
          let refs := match f.place, requestOf s os with
            | .waiting, some r => tblPut s.anvil.refs engine.val r
            | .waiting, none => tblErase s.anvil.refs engine.val
            | _, _ => s.anvil.refs
          { s with anvil := { s.anvil with refs := refs },
                   rx := { s.rx with frames := s.rx.frames.map (fun x => if x = f then { f with place := .claimed engine } else x) } }
        else
          let ref := if f.place = .claimed engine then tblGet s.anvil.refs engine.val else none
          match readWords 3 (4 + (f.octets + 8) / 9) a s with
          | (s, .inr _) => discardFrame s f
          | (s, .inl ws) => processFrame ref s f ws (((unpackWords (ws.drop 4)).take f.octets).take (f.octets - f.fcs)))

end Sys2Proof.Machine
end

