-- ==== Sys2Proof/Machine/Shape.lean ====
section
/-!
DEFINITION. Airtime shaping (chapter 13): classification, cost, the two-bucket meter, admission to the flow queues, and the
flow commands.
-/

namespace Sys2Proof.Machine

/-! ### Flow records (R426) -/

def Flow.enabled (x : Flow) : Bool := x.w1.getLsbD 12
def Flow.ack (x : Flow) : Bool := x.w1.getLsbD 21
def Flow.retries (x : Flow) : Nat := fld x.w1 24 22
def Flow.lifetime (x : Flow) : Nat := fld x.w1 40 25
/-- QMAX; 0 is taken as 4,095. -/
def Flow.qmax (x : Flow) : Nat := if fld x.w1 52 41 = 0 then 4095 else fld x.w1 52 41
def Flow.mode (x : Flow) : Nat := fld x.w1 60 56

/-- Frames that a flow holds. -/
def flowHeld (s : State) (f : Nat) : Nat := (s.mac.items.filter (fun i => isFlow i && itemFlow i == f)).length

/-! ### Classification (R423 to R425) -/

/-- Whether a rule of shape.class.rule matches a packet of a domain (R425). -/
def ruleMatches (r : BitVec 64) (domain : Nat) (p : Octets) : Bool :=
  let c := chain6 p
  let lo := fld r 46 31
  let hi := fld r 62 47
  let ports := (c.proto == 17 || c.proto == 6) && !c.hidden
  let d := beField p (c.off + 2) 2
  r.getLsbD 0 && (r.getLsbD 9 || fld r 8 1 == domain) &&
    ((ip6Class p / 4) &&& fld r 21 16) == (fld r 15 10 &&& fld r 21 16) &&
    (r.getLsbD 30 || fld r 29 22 == c.proto) &&
    (if ports then decide (lo ≤ d ∧ d ≤ hi) else lo == 0 && hi == 65535)

/-- The flow that the rules give, 0 where none matches. -/
def ruleFlow (s : State) (domain : Nat) (p : Octets) : Nat :=
  match (List.range 256).find? (fun i => ruleMatches (parV s (0x4900 + i)) domain p) with
  | some i => par s (0x4A00 + i)
  | none => 0

/-- The flow of a packet: the FLOW word of its injection, the rules, DEFAULT_FLOW of its entry, its domain's flow, or the
default (R423). -/
def chooseFlow (s : State) (word domain : Nat) (entry : Option Node) (p : Octets) : Nat :=
  let r := ruleFlow s domain p
  let e := match entry with | some n => n.flow.toNat | none => 0
  if word ≠ 0 then word else if r ≠ 0 then r else if e ≠ 0 then e
  else if par s (0x4B00 + domain) ≠ 0 then par s (0x4B00 + domain) else par s 0x4800

/-- The flow taken after R424: an injection's disabled flow, or none where the packet is dropped. -/
def classify (s : State) (word domain : Nat) (entry : Option Node) (p : Octets) : State × (Nat ⊕ Status) :=
  let f := chooseFlow s word domain entry p
  if (flow s f).enabled then (s, .inl f)
  else if word ≠ 0 then (s, .inr stFlowDisabled)
  else
    let s := bump s 0x1240
    if (flow s (par s 0x4800)).enabled then (s, .inl (par s 0x4800)) else (bump s 0x1241, .inr 0)

/-! ### Cost (R428) -/

/-- The longest ramp among a band's enabled chains. -/
def longestRamp (s : State) (b : Nat) : Nat :=
  ([0, 1, 2, 3].filter (fun k => chainEnabled s (4 * b + k))).foldl (fun m k => max m (ramp s (4 * b + k))) 0

/-- The cost of a frame in whole µs. -/
def frameCost (s : State) (b mode psdu : Nat) (ack : Bool) : Nat :=
  let phy := modePhy (packetMode s b mode)
  (airtime6 s b mode psdu (longestRamp s b) + 5) / 6 + par s (0x4000 + 4 * b + phy) +
    (if ack then par s (0x4010 + 4 * b + phy) else 0)

/-! ### Metering and admission (R429 to R436) -/

/-- The colours of R429. -/
inductive Colour where
  | green | yellow | red
deriving DecidableEq, Repr

/-- The meter's judgement of a packet of cost `c` (R429). -/
def meterPacket (x : Flow) (c : Nat) : Flow × Colour :=
  if x.meter = false then ({ x with green := sat64 x.green }, .green)
  else if x.pb < c then ({ x with red := sat64 x.red }, .red)
  else if x.cb < c then ({ x with pb := x.pb - c, yellow := sat64 x.yellow }, .yellow)
  else ({ x with cb := x.cb - c, pb := x.pb - c, green := sat64 x.green }, .green)

/-- Whether the flow drops a colour. -/
def Flow.drops (x : Flow) : Colour → Bool
  | .green => false
  | .yellow => x.w1.getLsbD 53
  | .red => !x.w1.getLsbD 54

/-- Whether a packet of `n` frames and `blocks` blocks fits a flow (R433, R434). -/
def admits (s : State) (f n blocks : Nat) : Bool :=
  decide (flowHeld s f + n ≤ (flow s f).qmax ∧ blocks + par s 0x4806 ≤ poolFree s)

/-- The packet number of a flow item. -/
def packetOf (i : Item) : Nat := match i.src with | .flow _ p _ => p | _ => 0

/-- The newest marked packet of a flow whose frames are all QUEUED or HELD. -/
def newestMarked (s : State) (f : Nat) : Option Nat :=
  let mine := s.mac.items.filter (fun i => isFlow i && itemFlow i == f)
  let free (p : Nat) : Bool := mine.all (fun i => packetOf i != p || i.st == .queued || i.st == .held)
  (mine.filter (fun i => i.marked && free (packetOf i))).foldl (fun m i => match m with
    | none => some (packetOf i)
    | some p => some (max p (packetOf i))) none

/-- Displaces a packet of a flow (R433). -/
def displace (s : State) (f p : Nat) : State :=
  let out := s.mac.items.filter (fun i => isFlow i && itemFlow i == f && packetOf i == p)
  let s := setItems s (fun is => is.filter (fun i => !(isFlow i && itemFlow i == f && packetOf i == p)))
  let s := bumpBy (bumpBy s 0x1243 out.length) 0x1245 out.length
  let s := setFlow s f { flow s f with queueDropped := min (2 ^ 64 - 1) ((flow s f).queueDropped + out.length) }
  out.foldl (fun s i => match i.src with
    | .flow _ _ (some (hc, job)) => injectEnd s hc job false stFlowQueueFull i.aired
    | _ => s) s

/-- Displaces marked packets until a packet fits; nothing is displaced where it never would. -/
def makeRoom (f n blocks : Nat) : Nat → State → Option State
  | 0, s => if admits s f n blocks then some s else none
  | fuel + 1, s =>
    if admits s f n blocks then some s
    else match newestMarked s f with
      | some p => makeRoom f n blocks fuel (displace s f p)
      | none => none

/-- An arriving packet is dropped at admission (R433). -/
def admissionDrop (s : State) (f n : Nat) (poolShort : Bool) : State :=
  let s := bump s (if poolShort then 0x1244 else 0x1243)
  let x := flow s f
  let s := setFlow s f { x with queueDropped := min (2 ^ 64 - 1) (x.queueDropped + n) }
  let quiet : Bool := match x.fullAt with | some t => decide (s.now < t + secC 1) | none => false
  if quiet then s else raiseEv (setFlow s f { flow s f with fullAt := some s.now }) 198 (at' 0 f) 0

/-- Puts an admitted frame, with its data, on its sub-queue (R435, R436). -/
def enqueueFrame (f : Nat) (marked : Bool) (s : State) (e : Item × Octets) : State :=
  let blocks := takeBlocks s (blocksFor e.2.length)
  let r := tagItem s f { e.1 with length := e.2.length, blocks := blocks, marked := marked }
  writeFrame (addItem r.1 r.2) blocks e.2

/-- Meters a packet's frames, whose costs stand in the items, and queues them on a flow, or gives the status of what
became of the packet (R429, R430, R433). -/
def queuePacket (s : State) (f : Nat) (frames : List (Item × Octets)) : State × Option Status :=
  let n := frames.length
  let c := (frames.map (·.1.cost)).sum
  let blocks := (frames.map (fun e => blocksFor e.2.length)).sum
  let before := flow s f
  let m := meterPacket before c
  let s := setFlow s f m.1
  if m.1.drops m.2 then
    let back := { m.1 with cb := before.cb, pb := before.pb, meterDropped := min (2 ^ 64 - 1) (m.1.meterDropped + n) }
    (bump (setFlow s f back) 0x1242, some stMeterDrop)
  else
    let room := if m.2 = .green then makeRoom f n blocks (flowHeld s f) s else if admits s f n blocks then some s else none
    match room with
    | some s => (frames.foldl (enqueueFrame f (m.2 != .green)) s, none)
    | none =>
      let short := decide (poolFree s < blocks + par s 0x4806)
      let s := setFlow s f { flow s f with cb := before.cb, pb := before.pb }
      (admissionDrop s f n short, some (if short then stTxPoolEmpty else stFlowQueueFull))

/-! ### The refill tick (R427, R432) -/

/-- One flow over `k` ticks of `tick` µs: the values in force, then the refill. -/
def refillFlow (tick k : Nat) (x : Flow) : Flow :=
  let cir := min 4000000 (fld x.w2 21 0)
  let pir := max cir (min 4000000 (fld x.w2 43 22))
  let cbs := max 1 (fld x.w2 57 44)
  let pbs := max cbs (fld x.w2 71 58)
  let cap := 1000 * cbs
  let peak := 1000 * pbs
  let cb := if x.fill then cap else min cap x.cb
  let pb := if x.fill then peak else min peak x.pb
  let x := { x with meter := x.w1.getLsbD 55, cir := cir, pir := pir, cbs := cap, pbs := peak, fill := false, cb := cb, pb := pb }
  if x.meter ∧ x.enabled then
    let c := cir * tick * k + x.remC
    let p := pir * tick * k + x.remP
    { x with cb := min cap (cb + c / 1000000), remC := c % 1000000, pb := min peak (pb + p / 1000000), remP := p % 1000000 }
  else x

/-- METER_TICK (R427, R432, R442): ticks missed in a restart are applied at the first tick. -/
def execMeterTick (dt : Nat) (s : State) : Host.Outcome State Fault Refusal :=
  live dt s (fun s =>
    let h := s.shape
    let len := usC h.tick
    let k := if len = 0 then 0 else (s.now - h.tickAt) / len
    if k = 0 then s
    else
      let s := { s with shape := { h with flows := h.flows.map (fun e => (e.1, refillFlow h.tick k e.2)),
                                          tickAt := h.tickAt + k * len } }
      let s := applyKind s .meterTick
      { s with shape := { s.shape with tick := par s 0x4400 } })

/-! ### FLOW_CONFIG and FLOW_STATS (R426, R427, R444) -/

/-- The records of a payload. -/
def flowRecords : List Word → List (Word × Word)
  | a :: b :: ws => (a, b) :: flowRecords ws
  | _ => []

/-- Stores one record (R427). -/
def storeFlow (s : State) (r : Word × Word) : State :=
  let f := fld r.1 11 0
  let x := flow s f
  let y := { x with w1 := r.1, w2 := r.2 }
  let starts := (!x.enabled && y.enabled) || (!x.w1.getLsbD 55 && y.w1.getLsbD 55)
  setFlow s f { y with fill := x.fill || starts }

/-- FLOW_CONFIG (R426). -/
def execFlowConfig (dt : Nat) (hc : Hc) (s : State) : Host.Outcome State Fault Refusal :=
  command dt hc 0x400 2 0 s (fun p s =>
    let rs := flowRecords (p.payload.take 12)
    if rs.any (fun r => reservedSet r.1 (bits 60 0)) then .undef 8
    else if rs.any (fun r => fld r.1 11 0 == 0) then .done s stFlowRange []
    else if rs.all (fun r => owns s hc 2 (fld r.1 11 0)) = false then .done s stNotOwner []
    else .done (rs.foldl storeFlow s) stOk [])

/-- FLOW_STATS (R444). -/
def execFlowStats (dt : Nat) (hc : Hc) (s : State) : Host.Outcome State Fault Refusal :=
  command dt hc 0x401 1 12 s (fun p s =>
    let w := p.word 1
    let f := fld w 11 0
    if reservedSet w (bits 12 0) then .undef 8
    else if f = 0 then .done s stFlowRange []
    else
      let x := flow s f
      let mine := s.mac.items.filter (fun i => isFlow i && itemFlow i == f)
      let held := (mine.filter (fun i => i.st == .held)).length
      let ws : List Word := [x.w1, x.w2, at' 0 x.green, at' 0 x.yellow, at' 0 x.red, at' 0 x.meterDropped, at' 0 x.queueDropped,
        at' 0 x.sent, at' 0 x.failed, at' 0 x.expired, at' 0 x.airUs,
        at' 0 (min 4095 mine.length) ||| at' 12 x.cb ||| at' 36 x.pb ||| at' 60 (min 4095 held)]
      let y := { x with green := 0, yellow := 0, red := 0, meterDropped := 0, queueDropped := 0, sent := 0, failed := 0,
                        expired := 0, airUs := 0 }
      .done (if w.getLsbD 12 then setFlow s f y else s) stOk ws)

end Sys2Proof.Machine
end

