-- ==== Sys2Proof/Machine/Forward.lean ====
section
/-!
DEFINITION. The forwarding pipelines' packet paths (chapter 12): uplink reassembly, checks and disposal, downlink mapping,
routing and queueing, the exception path to posted buffers, and the commands FRAME_INJECT and BUF_POST.
-/

namespace Sys2Proof.Machine

/-! ### Partner messages (R556, R558) -/

/-- Sends a partner message of a type. -/
def sendPartner (s : State) (mirror : Bool) (type : Nat) (body : Octets) : State :=
  match partnerPort s with
  | some p =>
    let f := beOctets 6 (par s 0x9004) ++ beOctets 6 (ownMac s) ++ [0x88, 0xB5, 1, BitVec.ofNat 8 type] ++ beOctets 8 (devEui s) ++ body
    enqueueEth s p { cls := 2, octets := padFrame 0 f, mirror := mirror }
  | none => s

/-- The active unit mirrors a downlink packet or a TX_SUBMIT frame. -/
def mirrorOut (s : State) (flow kind : Nat) (body : Octets) : State :=
  if s.pairRole = 1 then sendPartner s true 4 (beOctets 2 flow ++ [BitVec.ofNat 8 kind] ++ body) else s

/-! ### Domains (R399, R407) -/

def prefixOf (s : State) (d : Nat) : Nat := par s (0x3C00 + d)

/-- The lowest-numbered domain whose prefix an address lies in. -/
def domainOf (s : State) (a : Nat) : Option Nat :=
  (List.range 256).find? (fun d => prefixOf s d != 0 && prefixOf s d == a / 2 ^ 64)

/-- The prefix of a compression context, for a domain: 0 where it is undefined (R405). -/
def contextOf (s : State) (d k : Nat) : Nat := if k = 0 then prefixOf s d else par s (0x3E00 + k)

/-! ### Downlink (R29, R399 to R409) -/

/-- Port code, origin key and form fields that an exception of a downlink packet carries (R413). -/
def downSource (s : State) : DownSrc → Nat × Word
  | .port p _ => (p.val + 3, 0)
  | .hairpin b w => (b.val, w)
  | .mirror _ => (5 + par s 0x9005, 0)
  | .inject _ _ _ _ => (7, 0)

/-- FLOW word of a packet (R423, R558). -/
def downFlow : DownSrc → Nat
  | .inject _ _ f _ => f
  | .mirror f => f
  | _ => 0

/-- Override key of an injected packet (R399); 0 for none. -/
def downKey : DownSrc → Word
  | .inject _ _ _ w => w
  | _ => 0

/-- A packet as the exception path takes it: a hairpinned one entered the downlink with its hop limit decremented (R378 step 6). -/
def downPacket (d : Down) : Octets := match d.src with | .hairpin _ _ => decHop d.packet | _ => d.packet

/-- Ends a packet that is not queued: an injected packet's command completes, with a status of its own or that of its reason;
another packet goes to the exception path where it has a reason. -/
def failDown (s : State) (p : Nat) (d : Down) (reason : Nat) (status : Status) : State :=
  match d.src with
  | .inject hc job f _ => finishJob s hc job status (injectWords 0 reason f 0) false
  | src =>
    if reason = 0 then s
    else exception s p { octets := downPacket d, reason := reason, source := (downSource s src).1, form := 0,
                         node := (downSource s src).2, time := d.time }

/-- A pipeline reads an entry where it is held; a poisoned word drops the frame in process (R171). -/
def readEntry (own : Nat) (c : Place) (s : State) : State × Option Node :=
  match c with
  | .slot p k =>
    (match readWords (5 + own) 4 (tableBase p + 4 * k) s with
     | (s, .inl [a, b, c, d]) => (s, some (nodeOf a b c d))
     | (s, .inl _) => (s, none)
     | (s, .inr _) => (if own = p then putNode s (.slot p k) none else s, none))
  | .overflow p i =>
    (match readWord s (overflowBase p + i) (5 + own), overflowBase p + 4096 + 3 * i with
     | (s, some a), o =>
       (match readWords (5 + own) 3 o s with
        | (s, .inl [b, c, d]) => (s, some (nodeOf a b c d))
        | (s, _) => (s, none))
     | (s, none), _ => (s, none))
  | .victim p => (s, some (placeNode s (.victim p)))

/-- A route walk reads the element of a reference that resolves through the move map, and answers the place it names; nothing where
the word is poisoned (R171, R390). -/
def readMap (own : Nat) (n : Node) (s : State) : State × Option (Option Place) :=
  if viaMap s n then
    match readWord s (mapWord (parentPos n)).1 (5 + own) with
    | (s, none) => (s, none)
    | (s, some _) => (s, some (parentPlace s n))
  else (s, some (parentPlace s n))

/-- What a route walk finds: the entries from the destination to the first hop, a reason of R411, or a poisoned word. -/
inductive Walk where
  | route (vs : List (Place × Node))
  | fail (reason : Nat)
  | poisoned

/-- R402, from the visited entries, the latest first. -/
def walkFrom (own : Nat) : Nat → Place × Node → List (Place × Node) → State → State × Walk
  | 0, _, _, s => (s, .fail 0xC)
  | fuel + 1, e, before, s =>
    let visited := e :: before
    if e.2.parentKind = 1 then (s, .route visited.reverse)
    else if e.2.parentKind = 0 then (s, .fail 9)
    else match readMap own e.2 s with
      | (s, none) => (s, .poisoned)
      | (s, some none) => (s, .fail 0xA)
      | (s, some (some c)) =>
        match readEntry own c s with
        | (s, none) => (s, .poisoned)
        | (s, some n) =>
          if n.occupied = false ∨ n.domain ≠ e.2.domain ∨ tagOf n.key ≠ e.2.parentTag then (s, .fail 0xA)
          else if visited.any (fun v => v.1 == c) then (s, .fail 0xB)
          else if visited.length = 16 then (s, .fail 0xC)
          else walkFrom own fuel (c, n) visited s

/-- The lookups of R400: the place that holds a key, none for a miss; nothing where a poisoned word is met. -/
def lookup (s : State) (p : Nat) (w : Word) : State × Option (Option Place) :=
  match lookupIn p p w s (candidateSlots s p w) with
  | (s, none) => (s, none)
  | (s, some (some c)) => (fwdBump s p 5, some (some c))
  | (s, some none) =>
    match lookupIn p (1 - p) w s (candidateSlots s (1 - p) w) with
    | (s, none) => (s, none)
    | (s, some (some c)) => (fwdBump s p 6, some (some c))
    | (s, some none) => (fwdBump s p 7, some none)

/-- Raises EV_ROUTE_LOOP, at most once a second (R403). -/
def routeLoop (s : State) (p : Nat) (w : Word) : State :=
  let f := fwd s p
  let quiet : Bool := match f.loopEv with | some t => decide (s.now < t + secC 1) | none => false
  if quiet then s else raiseEv (setFwd s p { f with loopEv := some s.now }) 196 (at' 0 p) w

/-- A packet on its way to its frames: destination key, first hop, band, and whether it goes by miss policy 2. -/
structure Plan where
  key : Word
  hop : Word
  band : Band
  wake : Bool

/-- The 21-octet MAC header of R409 with the header termination IE that follows it. -/
def downHeader (s : State) (ack : Bool) (hop : Eui) : Octets :=
  leOctets 2 (0xEE01 + (if ack then 0x20 else 0)) ++ [s.mac.seqNo] ++ leOctets 2 Config.panId.toNat ++
    leOctets 8 hop.toNat ++ leOctets 8 (ownEui s).toNat ++ headerIe 0x7F []

/-- A flow frame of fragment number `k` with its octets. -/
def downFrame (s : State) (f : Nat) (d : Down) (pl : Plan) (tag : BitVec 32) (k : Nat) (payload : Octets) : Item × Octets :=
  let x := flow s f
  let data := downHeader s x.ack (keyEui pl.hop) ++ payload
  let mode := x.mode
  let psdu := data.length + overhead s pl.band.val mode true (par s 0xC000)
  let inject := match d.src with | .inject hc job _ _ => some (hc, job) | _ => none
  ({ id := 0, src := .flow f s.shape.packet inject, band := pl.band, cell := if pl.wake then .wake else .nodeCell,
     domain := keyDomain pl.key, node := if pl.wake then none else some pl.hop, mode := mode, ack := x.ack, key := .node pl.key,
     retries := x.retries, expiry := if x.lifetime = 0 then none else some (s.now + msC x.lifetime), hdrLen := 23,
     psdu := psdu, cost := frameCost s pl.band.val mode psdu x.ack, pairTag := tag, pairIndex := BitVec.ofNat 8 k,
     final := keyEui pl.key, shadow := standby s }, data)

/-- The frames of a packet, each with its own sequence number. -/
def downFrames (f : Nat) (d : Down) (pl : Plan) (tag : BitVec 32) : Nat → List Octets → State → State × List (Item × Octets)
  | _, [], s => (s, [])
  | k, os :: rest, s =>
    let e := downFrame s f d pl tag k os
    let r := downFrames f d pl tag (k + 1) rest { s with mac := { s.mac with seqNo := s.mac.seqNo + 1 } }
    (r.1, e :: r.2)

/-- Steps 5 and 6 of R29 on a packet whose hop limit is decremented and whose route stands in it. -/
def queueDown (s : State) (p : Nat) (d : Down) (pl : Plan) (entry : Option Node) (routed : Octets) : State :=
  let word := downFlow d.src
  let dom := (keyDomain pl.key).toNat
  let r := classify s word dom entry d.packet
  match r.2 with
  | .inr st => failDown r.1 p d 0 (if st = 0 then stFlowDisabled else st)
  | .inl f =>
    let b := pl.band.val
    let cap := par s (0x3E10 + b) - (23 + overhead s b (flow s f).mode true (par s 0xC000))
    let tag := (fwd s p).dgTag
    match fragments cap tag.toNat (pack6 routed (prefixOf s dom) (keyEui pl.hop).toNat) with
    | none => failDown s p d 0xD stInjectDropped
    | some os =>
      if par s 0x3E13 < os.length then failDown s p d 0xD stInjectDropped
      else
        let s := if 1 < os.length then setFwd r.1 p { fwd r.1 p with dgTag := tag + 1 } else r.1
        let crc := crc32 d.packet
        let e := downFrames f d pl crc 0 os s
        match queuePacket e.1 f e.2 with
        | (s, some st) =>
          (match d.src with
           | .inject hc job _ _ => finishJob s hc job st (injectWords os.length 0 f pl.hop) false
           | _ => s)
        | (s, none) =>
          let s := fwdBump { s with shape := { s.shape with packet := s.shape.packet + 1 } } p 4
          match d.src with
          | .inject hc job _ _ =>
            { s with injections := s.injections ++ [{ hc := hc, job := job, frames := os.length, flow := f, firstHop := pl.hop }] }
          | .mirror _ =>
            (s.pair.overheard.filter (fun x => x.2.1 == crc && decide (s.now < x.2.2.2 + secC 1))).foldl
              (fun s x => pruneShadows s x.1 x.2.1 x.2.2.1) s
          | _ => s

/-- A packet with its hop limit decremented; the result for a hop limit of 0 is free. -/
def spendHop (s : State) (p : Octets) : State × Octets :=
  if ip6Hop p = 0 then
    let r := drawFree s
    (r.1, p.take 7 ++ [BitVec.ofNat 8 (fld r.2 7 0)] ++ p.drop 8)
  else (s, decHop p)

/-- From the lookup on (R400 to R404). -/
def routeDown (s : State) (p : Nat) (d : Down) (key : Word) : State :=
  let dom := (keyDomain key).toNat
  let drop (s : State) : State := failDown s p d 0 stPoisoned
  let carries := (chain6 d.packet).rh3
  match lookup (fwdBump s p 3) p key with
  | (s, none) => drop s
  | (s, some none) =>
    let policy := par s (0x3F00 + p)
    if policy = 0 then
      let s := fwdBump s p 20
      (match d.src with | .inject _ _ _ _ => failDown s p d 8 stNodeUnknown | _ => s)
    else if policy = 1 then failDown s p d 8 stNodeUnknown
    else if carries then failDown s p d 0xF stInjectDropped
    else
      let r := spendHop (fwdBump s p 21) d.packet
      queueDown r.1 p d ⟨key, key, Fin.ofNat 3 (par s (0x3F02 + p)), true⟩ none r.2
  | (s, some (some c)) =>
    let e := placeNode s c
    match walkFrom p 17 (c, e) [] s with
    | (s, .poisoned) => drop s
    | (s, .fail reason) => failDown (if reason = 0xB then routeLoop s p key else s) p d reason stRouteFailed
    | (s, .route vs) =>
      if carries then failDown s p d 0xF stInjectDropped
      else
        let hop := ((vs.getLast?).map (·.2)).getD e
        let r := spendHop s d.packet
        let addr (v : Place × Node) : Nat := nodeAddress (prefixOf s dom) v.2.eui.toNat
        let routed := if vs.length ≤ 1 then r.2
          else insertRoute r.2 (nodeAddress (prefixOf s dom) hop.eui.toNat)
            (((vs.drop 1).dropLast).reverse.map addr ++ [ip6Dst r.2])
        queueDown r.1 p d ⟨key, hop.key, Fin.ofNat 3 hop.lastBand.toNat, false⟩ (some e) routed

/-- A downlink packet in its pipeline: mirrored, mapped to a node key (R399, R418, R558), and routed. -/
def downlink (s : State) (p : Nat) (d : Down) : State :=
  let word := downFlow d.src
  let s := match d.src with | .mirror _ => s | _ => mirrorOut s word 0 d.packet
  let pkt := d.packet
  let injected : Bool := match d.src with | .inject _ _ _ _ => true | _ => false
  if injected ∧ ip6Ok pkt = false then failDown s p d 0x10 stInjectDropped
  else if word ≠ 0 ∧ (flow s word).enabled = false then failDown s p d 0 stFlowDisabled
  else if downKey d.src ≠ 0 then routeDown s p d (downKey d.src)
  else if isMulticast (ip6Dst pkt) then failDown s p d 7 stInjectDropped
  else match domainOf s (ip6Dst pkt) with
    | none => failDown s p d 6 stInjectDropped
    | some dom =>
      let tagged : Bool := match d.src with | .port _ (some v) => v != par s (0x3D00 + dom) | _ => false
      if tagged then fwdBump s p 23
      else routeDown s p d (keyWord (BitVec.ofNat 8 dom) (BitVec.ofNat 64 (iidOf (ip6Dst pkt % 2 ^ 64))))

/-- The FRAME_INJECT source buffer that a packet in host memory comes from. -/
def injectBuf (s : State) (d : Down) : Option PostedBuf :=
  match d.src with
  | .inject hc job _ _ => (ctx s hc).injects.find? (fun b => b.job == job)
  | _ => none

/-- The endpoint that carries a context's frame DMA (R103). -/
def dmaEndpoint (s : State) (hc : Hc) : Option (Fin 2) :=
  match pcieOf (bindOf s hc) with
  | some e => if endpointOn s e then some e else none
  | none => none

/-- Reads outstanding at an endpoint (R103). -/
def readsOut (s : State) (e : Fin 2) : Nat :=
  (((fwd s 0).down ++ (fwd s 1).down).map (fun d => match d.reads with | some (_, x, n) => if x = e then n else 0 | none => 0)).sum

/-- The pieces of at most `size` octets of a transfer: offset and length. -/
def pieces (size len : Nat) : List (Nat × Nat) :=
  (List.range ((len + size - 1) / size)).map (fun k => (size * k, min size (len - size * k)))

/-- Issues the reads of the packet at an index of a pipeline's queue, if it lies in host memory, has none issued, and the endpoint
has room for all of them among its 32 (R103; log 222). -/
def issueAt (p : Nat) (s : State) (k : Nat) : State :=
  match (fwd s p).down[k]? with
  | none => s
  | some d =>
    match d.src, injectBuf s d, d.hostMem && d.reads.isNone with
    | .inject hc _ _ _, some b, true =>
      (match dmaEndpoint s hc with
       | some e =>
         let ps := pieces 512 b.length
         if readsOut s e + ps.length ≤ 32 then
           ps.foldl (fun s x => emit s (.dmaRead hc (b.addr + BitVec.ofNat 64 x.1) x.2))
             (setFwd s p { fwd s p with down := (fwd s p).down.set k { d with reads := some (s.now, e, ps.length) } })
         else s
       | none => s)
    | _, _, _ => s

/-- Issues the reads that there is room for. -/
def issueReads (s : State) : State :=
  [0, 1].foldl (fun s p => (List.range (fwd s p).down.length).foldl (issueAt p) s) s

/-- DOWNLINK_PACKET (R29, R103): the pipeline takes its next packet; `dma` is what the frame DMA of a packet in host memory
delivers, none where it fails. A context no longer bound to a PCIe endpoint fails it. -/
def execDownlinkPacket (dt : Nat) (pipe : Pipe) (dma : Option Octets) (s : State) : Host.Outcome State Fault Refusal :=
  live dt s (fun s =>
    let p := pipe.val
    let f := fwd s p
    match f.down with
    | [] => s
    | d :: ds =>
      let s' := setFwd s p { f with down := ds }
      if d.hostMem = false then downlink s' p d
      else
        let bound_ : Bool := match d.src with | .inject hc _ _ _ => (dmaEndpoint s hc).isSome | _ => false
        match (if bound_ then dma else none), injectBuf s d with
        | none, _ => issueReads (failDown s' p d 0 stDmaError)
        | some os, some b =>
          if d.reads.isSome ∧ os.length = b.length then issueReads (downlink s' p { d with packet := ip6Trim os }) else s
        | some _, none => s)

/-- DMA_COMPLETION_TIMEOUT (R103): the read of a context's oldest injected packet in host memory has had no completion for
50 ms. -/
def execDmaCompletionTimeout (dt : Nat) (hc : Hc) (s : State) : Host.Outcome State Fault Refusal :=
  live dt s (fun s =>
    let waits (d : Down) : Bool :=
      match d.reads, d.src with
      | some (t, _, _), .inject h _ _ _ => due s (t + msC 50) && h == hc
      | _, _ => false
    match [0, 1].find? (fun p => (fwd s p).down.any waits) with
    | none => s
    | some p =>
      match (fwd s p).down.find? waits with
      | some d => issueReads (failDown (setFwd s p { fwd s p with down := (fwd s p).down.erase d }) p d 0 stDmaError)
      | none => s)

/-! ### Uplink (R378, R405 to R407, R552, R554) -/

/-- Octets at their positions in a datagram: none where one of them differs from an octet already there. -/
def layDown (got : SMap Octet) (at_ : Nat) : Octets → Option (SMap Octet)
  | [] => some got
  | o :: os =>
    match tblGet got at_ with
    | some x => if x = o then layDown got (at_ + 1) os else none
    | none => layDown (tblPut got at_ o) (at_ + 1) os

/-- What becomes of an uplink frame at steps 2 and 3 of R378. -/
inductive Lifted where
  /-- the packet, with the ASN of its first octet -/
  | packet (p : Octets) (asn : Nat)
  | held
  | exception (reason : Nat)

/-- A fragment enters its reassembly context (R406): octets at a position, with what FRAG1 alone gives. -/
def reassemble (s : State) (p : Nat) (m : RxMeta) (size tag at_ : Nat) (os : Octets) (first : Option (Nat × Option Nat)) :
    State × Lifted :=
  let f := fwd s p
  let mine (r : Reasm) : Bool := r.domain == m.domain && r.origin == m.origin && r.dgTag.toNat == tag && r.size == size
  let slot := match f.reasm.find? (fun e => mine e.2) with
    | some e => some e.1
    | none => (List.range 512).find? (fun k => (tblGet f.reasm k).isNone)
  match slot with
  | none => (fwdBump s p 26, .held)
  | some k =>
    let r := tblAt f.reasm k ⟨m.domain, m.origin, BitVec.ofNat 16 tag, size, [], s.now, none, none⟩
    let laid := if at_ + os.length ≤ size then layDown r.got at_ os else none
    match laid with
    | none => (fwdBump (setFwd s p { f with reasm := tblErase f.reasm k }) p 25, .held)
    | some got =>
      let r := { r with got := got }
      let r := match first with | some (asn, udp) => { r with asn := some asn, udpAt := udp } | none => r
      if got.length = size then
        (setFwd s p { f with reasm := tblErase f.reasm k }, .packet (finishUdp (got.map (·.2)) r.udpAt) (r.asn.getD m.asn))
      else (setFwd s p { f with reasm := tblPut f.reasm k r }, .held)

/-- Steps 2 and 3 of R378. -/
def lift (s : State) (p : Nat) (m : RxMeta) : State × Lifted :=
  let os := m.payload
  let b := oct os 0
  let size := beField os 0 2 % 2048
  let tag := beField os 2 2
  let ctx6 := contextOf s m.domain.toNat
  let src := macIid m.srcLen m.src
  let dst := macIid m.dstLen m.dst
  if b / 8 = 0x18 ∧ 4 ≤ os.length then
    if par s 0x3E14 < size then (fwdBump s p 24, .held)
    else match unpack6 ctx6 src dst (some size) (os.drop 4) with
      | .ok pkt udp => reassemble s p m size tag 0 pkt (some (m.asn, udp))
      | .dispatch => (s, .exception 4)
      | .context => (s, .exception 5)
  else if b / 8 = 0x1C ∧ 5 ≤ os.length then
    if par s 0x3E14 < size then (fwdBump s p 24, .held)
    else reassemble s p m size tag (8 * oct os 4) (os.drop 5) none
  else match unpack6 ctx6 src dst none os with
    | .ok pkt udp => (s, .packet (finishUdp pkt udp) m.asn)
    | .dispatch => (s, .exception 4)
    | .context => (s, .exception 5)

/-- The source address check of R407. -/
def sourceOk (s : State) (m : RxMeta) (pkt : Octets) : Bool :=
  let a := ip6Src pkt
  let iid := if m.secured then iidOf m.origin.toNat else macIid m.srcLen m.src
  let up := a / 2 ^ 64
  let d := m.domain.toNat
  a % 2 ^ 64 == iid && (up == 0xFE80 * 2 ^ 48 || ((List.range 16).any (fun k => contextOf s d k != 0 && contextOf s d k == up)))

/-- The origin key of a radio frame, 0 for a plain one (R413). -/
def originKey (m : RxMeta) : Word := if m.secured then keyWord m.domain m.origin else 0

/-- A radio frame to the exception path. -/
def radioException (s : State) (p : Nat) (b : Band) (m : RxMeta) (form reason : Nat) (os : Octets) : State :=
  exception s p { octets := os, reason := reason, source := b.val, form := form, node := originKey m, time := m.time }

/-- The pair-mode trailer (R554). -/
def trailer (s : State) (m : RxMeta) (asn : Nat) (pkt : Octets) : Octets :=
  [1, BitVec.ofNat 8 (par s 0x9002 + (if s.pairRole = 1 then 2 else 0) + (if m.secured then 0 else 4)), m.domain] ++
    beOctets 8 (if m.secured then m.origin.toNat else m.src) ++ beOctets 5 asn ++ beOctets 2 pkt.length ++ [0xA5, 0x97]

/-- An uplink packet, its hop limit decremented, to the backbone (R552). -/
def toBackbone (s : State) (p : Nat) (b : Band) (m : RxMeta) (asn : Nat) (pkt out : Octets) : State :=
  let d := m.domain.toNat
  let dmac := par s (0x9D00 + d)
  if dmac = 0 then radioException s p b m 0 0x24 pkt
  else
    let vlan := par s (0x3D00 + d)
    let tag : Octets := if vlan = 0 then [] else [0x81, 0] ++ beOctets 2 vlan
    let adds := pairMode s && parB s 0x9804
    let f := beOctets 6 dmac ++ beOctets 6 (ownMac s) ++ tag ++ [0x86, 0xDD] ++ out ++ (if adds then trailer s m asn out else [])
    let s := if adds then bump s 0x1A87 else s
    fwdBump (sendOn s (par s (0x9E00 + d)) f) p 1

/-- Step 6 of R378. -/
def dispose (s : State) (p : Nat) (b : Band) (m : RxMeta) (asn : Nat) (pkt : Octets) : State :=
  let pfx := prefixOf s m.domain.toNat
  let root := par s 0x3F0A
  if icmpType pkt = some 155 then radioException s p b m 0 1 pkt
  else if root ≠ 0 ∧ pfx ≠ 0 ∧ ip6Dst pkt = pfx * 2 ^ 64 + root then radioException s p b m 0 2 pkt
  else if ip6Hop pkt ≤ 1 then radioException s p b m 0 3 pkt
  else if (domainOf s (ip6Dst pkt)).isSome then
    let s := fwdBump s p 2
    if standby s then s
    else downlink s p { src := .hairpin b (originKey m), packet := pkt, time := m.time, at_ := s.now }
  else toBackbone s p b m asn pkt (decHop pkt)

/-- Step 5 of R378, for a frame that passed R353; a frame that carries a time correction to a node of a class that adjusts
leaves its OFFSET 0 (R361). -/
def teach (s : State) (p : Nat) (b : Band) (m : RxMeta) : State × Bool :=
  if m.secured = false then (s, true)
  else
    let r := learn s p { key := keyWord m.domain m.origin, band := b, keyGen := m.keyGen, direct := m.direct, ants := m.ants,
                         rssi := m.rssi, lq := m.lq, timing := m.timing.map (fun t => (t.1, t.2.toNat)) }
    match m.corrected, findIn r.1 p (keyWord m.domain m.origin) with
    | true, some c =>
      let n := placeNode r.1 c
      (if parB r.1 (0x2C28 + n.cls.toNat) then putNode r.1 c (some { n with offset := 0 }) else r.1, r.2)
    | _, _ => r

/-- The pipeline looks a secured frame's origin up in its own table; false where it meets a poisoned word, which drops the frame
(R171). -/
def meetOrigin (s : State) (p : Nat) (m : RxMeta) : State × Bool :=
  if m.secured then
    match lookupIn p p (originKey m) s (candidateSlots s p (originKey m)) with
    | (s, none) => (s, false)
    | (s, some _) => (s, true)
  else (s, true)

/-- Steps 1 to 6 of R378 on a frame. -/
def uplink (s : State) (p : Nat) (b : Band) (m : RxMeta) : State :=
  if m.dest = 1 then radioException s p b m 1 0xE m.frame
  else match lift s p m with
    | (s, .held) => s
    | (s, .exception r) => radioException s p b m 1 r m.frame
    | (s, .packet pkt asn) =>
      if sourceOk s m pkt = false then fwdBump s p 22
      else match meetOrigin s p m with
        | (s, false) => s
        | (s, true) =>
          let r := teach s p b m
          if r.2 then dispose r.1 p b m asn pkt else r.1

/-- The frame a pipeline takes next: the oldest finished one of its bands that has no earlier frame of its band before it
(R13). -/
def nextUplink (s : State) (p : Nat) : Option RxFrame :=
  let fs := s.rx.frames
  fs.find? (fun f => pipeOf s f.band.val == p && f.place == .finished && fs.find? (fun g => g.band == f.band) == some f)

/-- UPLINK_FRAME (R171 codes 5 and 6, R378, R379). -/
def execUplinkFrame (dt : Nat) (pipe : Pipe) (s : State) : Host.Outcome State Fault Refusal :=
  live dt s (fun s =>
    let p := pipe.val
    match nextUplink s p with
    | none => s
    | some f =>
      let s := fwdBump s p 0
      match readWords (5 + p) (4 + (f.octets + 8) / 9) (bufferAddr f.band.val f.buffer) s, f.info with
      | (s, .inl _), some m => discardFrame (uplink s p f.band m) f
      | (s, _), _ => discardFrame s f)

/-- REASM_TIMEOUT (R406). -/
def execReasmTimeout (dt : Nat) (pipe : Pipe) (ctx : Fin 512) (s : State) : Host.Outcome State Fault Refusal :=
  live dt s (fun s =>
    let p := pipe.val
    let f := fwd s p
    match tblGet f.reasm ctx.val with
    | some r =>
      if due s (r.since + secC (par s 0x3E15)) then fwdBump (setFwd s p { f with reasm := tblErase f.reasm ctx.val }) p 27 else s
    | none => s)

/-! ### Exceptions to posted buffers (R410, R412, R413) -/

/-- The first buffer of a context that no frame has filled. -/
def openBuffer (s : State) (hc : Hc) : Option PostedBuf :=
  let c := ctx s hc
  c.bufs.find? (fun b => c.journal.any (fun r => r.id == b.job && !r.done))

/-- The result words of a filled buffer (R413). -/
def filledWords (p : Nat) (e : ExcSlot) (room : Nat) : List Word :=
  [at' 0 e.length ||| at' 12 e.reason ||| at' 20 e.source ||| at' 23 p ||| at' 24 (if room < e.length then 1 else 0) |||
     at' 25 e.form, e.node, e.time]

/-- Writes octets to a context's host memory, at most 256 in a write (R103). -/
def dmaOut (s : State) (hc : Hc) (addr : BitVec 64) (os : Octets) : State :=
  (pieces 256 os.length).foldl (fun s x => emit s (.dma hc (addr + BitVec.ofNat 64 x.1) ((os.drop x.1).take x.2))) s

/-- EXCEPTION_DELIVERY (R103, R171, R410, R413): `dmaOk` is whether a frame DMA to host memory can be issued. A poisoned word of the
frame ends a buffer in host memory with ST_POISONED (code 10); on the way into SHM it is the pipeline that meets it, which drops the
frame (codes 5 and 6; DEDUCED, log 223). -/
def execExceptionDelivery (dt : Nat) (pipe : Pipe) (dmaOk : Bool) (s : State) : Host.Outcome State Fault Refusal :=
  live dt s (fun s =>
    let p := pipe.val
    let f := fwd s p
    match f.excQ with
    | [] => s
    | e :: es =>
      if par s (0x3F04 + p) = 4 then s
      else
        let hc : Hc := Fin.ofNat 4 (par s (0x3F04 + p))
        match openBuffer s hc with
        | none => s
        | some b =>
          let s := setFwd s p { f with excQ := es }
          let n := min e.length b.length
          if b.shm = false ∧ (dmaOk = false ∨ (dmaEndpoint s hc).isNone) then finishJob s hc b.job stDmaError [] false
          else match readWords (if b.shm then 5 + p else 10) ((n + 8) / 9) (excAddr p e.place) s with
            | (s, .inr _) => if b.shm then s else finishJob s hc b.job stPoisoned [] false
            | (s, .inl ws) =>
              let os := (unpackWords ws).take n
              let s := if b.shm then writeWords s b.addr.toNat (packWords 8192 os) else dmaOut s hc b.addr os
              finishJob (fwdBump s p 32) hc b.job stOk (filledWords p e b.length) false)

/-- Whether a buffer's address, space and length obey R412. -/
def bufferOk (s : State) (hc : Hc) (shm : Bool) (addr len : Nat) : Bool :=
  if shm then decide (windowBase hc ≤ addr ∧ addr + (len + 8) / 9 ≤ windowBase hc + 65536)
  else (pcieOf (bindOf s hc)).isSome

/-- Units that a buffer spans: words of SHM or octets of host memory. -/
def bufSpan (b : PostedBuf) : Nat := if b.shm then (b.length + 8) / 9 else b.length

/-- Whether two buffers overlap (R569 action 4). -/
def bufsOverlap (a b : PostedBuf) : Bool :=
  a.shm == b.shm && decide (a.addr.toNat < b.addr.toNat + bufSpan b ∧ b.addr.toNat < a.addr.toNat + bufSpan a)

/-- BUF_POST (R412). -/
def execBufPost (dt : Nat) (hc : Hc) (s : State) : Host.Outcome State Fault Refusal :=
  command dt hc 0x301 2 3 s (fun p s =>
    let w := p.word 1
    let len := fld (p.word 2) 15 0
    let b : PostedBuf := ⟨p.id, w.getLsbD 64, w.setWidth 64, len⟩
    if reservedSet w (bits 64 0) ∨ reservedSet (p.word 2) (bits 15 0) then .undef 8
    else if len < 64 ∨ bufferOk s hc b.shm b.addr.toNat len = false then .done s stBufSpace []
    else if (ctx s hc).bufs.any (bufsOverlap b) then .undef 4
    else .work (setCtx s hc { ctx s hc with bufs := (ctx s hc).bufs ++ [b] }) .elsewhere)

/-- FRAME_INJECT (R418): a LENGTH outside its range is refused with ST_BUF_SPACE. -/
def execFrameInject (dt : Nat) (hc : Hc) (s : State) : Host.Outcome State Fault Refusal :=
  command dt hc 0x300 3 2 s (fun p s =>
    let w := p.word 1
    let w2 := p.word 2
    let len := fld w2 10 0
    let q := fld w2 11 11
    let f := fld (p.word 3) 11 0
    let b : PostedBuf := ⟨p.id, w.getLsbD 64, w.setWidth 64, len⟩
    if reservedSet w (bits 64 0) ∨ reservedSet w2 (bits 11 0) ∨ reservedSet (p.word 3) (bits 11 0) then .undef 8
    else if f ≠ 0 ∧ owns s hc 2 f = false then .done s stNotOwner []
    else if len < 40 ∨ 1500 < len ∨ bufferOk s hc b.shm b.addr.toNat len = false then .done s stBufSpace []
    else
      let d : Down := { src := .inject hc p.id f (p.word 4), packet := [], hostMem := !b.shm, time := time s, at_ := s.now }
      let put (s : State) (d : Down) : State :=
        let s := setFwd s q { fwd s q with down := (fwd s q).down ++ [d] }
        setCtx s hc { ctx s hc with injects := (ctx s hc).injects ++ [b] }
      if b.shm then
        match readWords (5 + q) ((len + 8) / 9) b.addr.toNat s with
        | (s, .inr _) => .done s stPoisoned []
        | (s, .inl ws) => .work (put s { d with packet := ip6Trim ((unpackWords ws).take len) }) .elsewhere
      else .work (issueReads (put s d)) .elsewhere)

end Sys2Proof.Machine
end

