-- ==== Sys2Proof/Machine/TxCmds.lean ====
section
/-!
DEFINITION. The schedule and transmit commands (chapter 11): SLOTFRAME_SET, CELL_WRITE, TX_SUBMIT and TX_CANCEL.
-/

namespace Sys2Proof.Machine

/-! ### SLOTFRAME_SET (R342) -/

/-- The parameter values of one slotframe record. -/
def slotframeValues (r : Word × Word) : List (Nat × BitVec 64) :=
  let w := r.1
  let f := fld w 3 0
  [(0x2000 + f, BitVec.ofNat 64 (fld w 4 4)), (0x2040 + f, BitVec.ofNat 64 (fld w 15 5)),
   (0x2080 + f, BitVec.ofNat 64 (fld w 18 16)), (0x2100 + f, BitVec.ofNat 64 (fld w 34 19)),
   (0x2140 + f, BitVec.ofNat 64 (fld w 50 35)), (0x2180 + f, BitVec.ofNat 64 (fld r.2 21 0))]

/-- SLOTFRAME_SET (R129, R342); the holder word of R123 has room beside R122's (log 40). -/
def execSlotframeSet (dt : Nat) (hc : Hc) (s : State) : Host.Outcome State Fault Refusal :=
  command dt hc 0x200 2 1 s (fun p s =>
    let rs := flowRecords (p.payload.take 16)
    let vs := rs.flatMap slotframeValues
    if rs.any (fun r => reservedSet r.1 (bits 50 0) || reservedSet r.2 (bits 21 0)) then .undef 8
    else if (lockedBy s hc 8).isSome then .done s stLocked [holderWord ((lockedBy s hc 8).map .host)]
    else if vs.all (fun e => paramInRange s e.1 e.2) = false then .undef 7
    else .done (storeAll s vs) stOk [])

/-! ### CELL_WRITE (R343, R344) -/

/-- Writes one cell; what it held stays in effect until the start of the slotframe that the new content names. -/
def writeCell (s : State) (i : Nat) (a b : Word) : State :=
  let old := (peek s (0x20000 + 2 * i), peek s (0x20001 + 2 * i))
  let keep := if s.mac.asnSet && (tblGet s.mac.oldCells i).isNone then tblPut s.mac.oldCells i old else s.mac.oldCells
  writeWord (writeWord { s with mac := { s.mac with oldCells := keep } } (0x20000 + 2 * i) a) (0x20001 + 2 * i) b

/-- Writes cells from a number on. -/
def writeCells (s : State) : Nat → List (Word × Word) → State
  | _, [] => s
  | i, c :: cs => writeCells (writeCell s i c.1 c.2) (i + 1) cs

/-- CELL_WRITE (R344). -/
def execCellWrite (dt : Nat) (hc : Hc) (s : State) : Host.Outcome State Fault Refusal :=
  command dt hc 0x201 1 1 s (fun p s =>
    let w := p.word 1
    let first := fld w 15 0
    let n := fld w 22 16
    let cs := flowRecords ((p.payload.drop 1).take (2 * n))
    if p.payload.length < 1 + 2 * n ∨ 65536 < first + n then .done s stLength []
    else if reservedSet w (bits 22 0) ∨ cs.any (fun c => reservedSet c.1 (bits 37 0)) then .undef 8
    else .done (writeCells s first cs) stOk [at' 0 n])

/-! ### TX_SUBMIT (R365) -/

/-- Fields of payload word 1. -/
def txKind (w : Word) : Nat := fld w 15 13
def txLength (w : Word) : Nat := fld w 44 34

/-- Bands on which a use-6 cell for a node lies. -/
def dedicatedBands (s : State) (w : Word) : List Nat :=
  [0, 1, 2].filter (fun b => (cells s).any (fun c => c.use == 6 && c.band == b && c.w1 == w))

/-- The band that an item goes to: none where the order names no band. -/
def submitBand (s : State) (w : Word) (node : Word) : Option Nat :=
  let last := ((timingPlace s node).map (fun c => (placeNode s c).lastBand.toNat % 3)).getD 0
  if txKind w = 0 then some last
  else if txKind w = 1 then
    let bs := dedicatedBands s node
    some (if bs.contains last then last else bs.headD last)
  else if fld w 17 16 = 3 then none else some (fld w 17 16)

/-- Whether a cell of the order's kind exists. -/
def submitCell (s : State) (w : Word) (node : Word) : Bool :=
  match submitBand s w node with
  | none => false
  | some b =>
    if txKind w = 0 then decide (par s 0x2400 < 16)
    else if txKind w = 1 then (dedicatedBands s node).contains b
    else if txKind w = 2 then (cells s).any (fun c => c.use == 1 && c.band == b && c.sf == fld w 21 18)
    else (cells s).any (fun c => c.use == 5 && c.band == b && c.sf == fld w 21 18 && c.domain == fld w 7 0)

/-- Key with which an item is secured (R365). -/
def submitKey (w : Word) (node : Word) (data : Octets) : SecKey :=
  if w.getLsbD 23 = false then .plain
  else if txKind w ≤ 1 then .node node
  else match parseHdr data with
    | some h => if h.fcf.dstMode = 3 then .node (keyWord (w.setWidth 8) (BitVec.ofNat 64 h.dst)) else .broadcast
    | none => .broadcast

/-- The final destination that a Pair IE names: free where the frame names no EUI-64. -/
def submitFinal (s : State) (w : Word) (dst : Eui) (data : Octets) : State × Eui :=
  if txKind w ≤ 1 then (s, dst)
  else match parseHdr data with
    | some h =>
      if h.fcf.dstMode = 3 then (s, BitVec.ofNat 64 h.dst)
      else if pairMode s then
        let r := drawFree s
        (r.1, r.2.setWidth 64)
      else (s, 0)
    | none => (s, 0)

/-- Whether an order's frame goes to one node: an acknowledgement can be requested (R365). -/
def unicast (w : Word) (data : Octets) : Bool :=
  decide (txKind w ≤ 1) || (match parseHdr data with
    | some h => h.fcf.dstMode == 3 || (h.fcf.dstMode == 2 && h.dst != 0xFFFF)
    | none => false)

/-- Judges an order and queues its item, or gives the status that refuses it: R365 in order, and R434. -/
def submit (s : State) (w w2 : Word) (data : Octets) (src : ItemSrc) : State × Option Status :=
  let node := keyWord (w.setWidth 8) (w2.setWidth 64)
  let b := (submitBand s w node).getD 0
  let mode := fld w 12 8
  let secure := w.getLsbD 23
  let psdu := data.length + overhead s b mode secure (par s 0xC000)
  let timed := decide (txKind w ≤ 1)
  let n := blocksFor data.length
  if 4 ≤ txKind w then (s, some stNoCell)
  else if 2047 < psdu then (s, some stTxLength)
  else if timed ∧ (timingPlace s node).isNone then (s, some stNodeUnknown)
  else if submitCell s w node = false then (s, some stNoCell)
  else if poolFree s < n then (bump s 0x1244, some stTxPoolEmpty)
  else
    let life := fld w 60 45
    let blocks := takeBlocks s n
    let f := submitFinal s w (w2.setWidth 64) data
    let i : Item :=
      { id := 0, src := src, band := Fin.ofNat 3 b,
        cell := if txKind w = 0 then .auto else if txKind w = 1 then .dedicated else if txKind w = 2 then .shared else .wake,
        domain := w.setWidth 8, node := if timed then some node else none, sf := fld w 21 18, mode := mode, ack := w.getLsbD 22 && unicast w data,
        key := submitKey w node data, retries := fld w 26 24, expiry := if life = 0 then none else some (s.now + msC life),
        hdrLen := fld w 33 27, length := data.length, blocks := blocks, psdu := psdu, pairTag := crc32 data, final := f.2,
        shadow := standby s }
    (writeFrame (addItem f.1 i) blocks data, none)

/-- TX_SUBMIT (R365, R558). -/
def execTxSubmit (dt : Nat) (hc : Hc) (s : State) : Host.Outcome State Fault Refusal :=
  command dt hc 0x202 3 3 s (fun p s =>
    let w := p.word 1
    let n := txLength w
    let data := (unpackWords (p.payload.drop 2)).take n
    if p.payload.length < 2 + (n + 8) / 9 then .done s stLength []
    else if reservedSet w (bits 60 0) then .undef 8
    else if owns s hc 1 (fld w 7 0) = false then .done s stNotOwner []
    else if n = 0 ∨ n < fld w 33 27 then .undef 7
    else match submit s w (p.word 2) data (.host hc p.id (BitVec.ofNat 16 (fld p.hdr 27 12))) with
      | (s, some st) => .done s st []
      | (s, none) => .work (mirrorOut s 0 1 (octetsOfWord w ++ octetsOfWord (p.word 2) ++ data)) .elsewhere)

/-! ### TX_CANCEL (R368) -/

/-- TX_CANCEL (R368). -/
def execTxCancel (dt : Nat) (hc : Hc) (s : State) : Host.Outcome State Fault Refusal :=
  command dt hc 0x203 1 0 s (fun p s =>
    let tag := BitVec.ofNat 16 (fld (p.word 1) 15 0)
    let mine (i : Item) : Bool := (i.st == .queued || i.st == .held) &&
      (match i.src with | .host h _ t => h == hc && t == tag | _ => false)
    if reservedSet (p.word 1) (bits 15 0) then .undef 8
    else match s.mac.items.find? mine with
      | some i => .done (endItem s i stCancelled 0) stOk []
      | none => .done s stNotFound [])

end Sys2Proof.Machine
end

