-- ==== Sys2Proof/Machine/PairRows.lean ====
section
/-!
DEFINITION. Pair mode (chapters 11 and 17): the beacon watch, role changes and handovers, the partner link and its messages, and
the pair commands (R370 to R374, R555 to R561).
-/

namespace Sys2Proof.Machine

def stPairOff : Status := 0x900
def stPairRole : Status := 0x901
def stPairLinkDown : Status := 0x902
def stPairUnfit : Status := 0x903
def stPairAction : Status := 0x904

/-! ### Role changes (R370 to R374, R555) -/

/-- Drives the pin of pair.role.gpio: high while the unit is active (R555). -/
def driveRole (s : State) : State :=
  let g := par s 0x9006
  if g < 32 ∧ tblAt s.pins.fn g .gpio = .pairRole then
    { s with pins := { s.pins with level := tblPut s.pins.level g (s.pairRole == 1) } }
  else s

/-- An item as the unit leaves the active role: a chosen one is chosen no longer, and what waits becomes a shadow (R371, R372). -/
def shadowItem (i : Item) : Item :=
  if i.st = .queued ∨ i.st = .held then { i with shadow := true }
  else if i.st = .eligible then { i with st := .queued, chain := none, shadow := true }
  else i

/-- The unit takes a role at an ASN, for a cause (R561). -/
def changeRole (s : State) (role : BitVec 2) (cause asn : Nat) : State :=
  let items := if role = 2 then
      ((s.mac.items.filter (fun i => !(i.st == .eligible && (i.src == .beacon || i.src == .group || i.src == .ack)))).map shadowItem)
    else s.mac.items
  let s := bump { s with pairRole := role, mac := { s.mac with items := items } } 0x1A85
  driveRole { s with pair := { s.pair with due := none, misses := 0, judged := some (asn - 1), heardAsn := none,
                                           lastChange := s.now, changeAsn := asn, changeCause := cause } }

/-- The role change whose start of the watched slotframe has come. -/
def dueRole (s : State) : Option (BitVec 2 × Nat × Nat) :=
  match s.pair.due, asnNow s with
  | some d, some n => if d.2.2 ≤ n then some d else none
  | _, _ => none

/-- The first start of the watched slotframe after the present slot. -/
def nextWatchStart (s : State) : Nat := startFrom s (par s 0x9400) ((asnNow s).getD 0 + 1)

/-- EV_PAIR_TAKEOVER (R370, R559): the event carries the ASN of the slotframe start. -/
def execEvPairTakeover (dt : Nat) (s : State) : Host.Outcome State Fault Refusal :=
  live dt s (fun s =>
    match dueRole s with
    | some (role, cause, a) =>
      if role = 1 ∧ s.pairRole = 2 then
        let s := changeRole s 1 cause a
        if cause = 1 then raiseEv s 234 (at' 0 a) 0 else s
      else s
    | none => s)

/-- PAIR_YIELD (R371, R557). -/
def execPairYield (dt : Nat) (s : State) : Host.Outcome State Fault Refusal :=
  live dt s (fun s =>
    match dueRole s with
    | some (role, cause, a) => if role = 2 ∧ s.pairRole = 1 then changeRole s 2 cause a else s
    | none => s)

/-- EV_PAIR_REVERT (R372, R559): the handover ASN has come. -/
def execEvPairRevert (dt : Nat) (s : State) : Host.Outcome State Fault Refusal :=
  live dt s (fun s =>
    match s.pair.handover, asnNow s with
    | some h, some n =>
      if h.asn ≤ n then
        let s := { s with pair := { s.pair with handover := none } }
        let s := if s.pairRole = h.role then s else changeRole s h.role h.cause h.asn
        raiseEv s 235 (at' 0 h.asn) 0
      else s
    | _, _ => s)

/-! ### The beacon watch (R370) -/

/-- The watched occurrence to judge next: the oldest unjudged one whose slot has ended. -/
def endedWatch (s : State) (n : Nat) : Option Nat :=
  let m := sfMult s (par s 0x9400)
  let low := max ((s.pair.judged.map (· + 1)).getD (n - m)) (n - m - 64)
  ((List.range (n + 1 - m - low)).map (low + ·)).find? (watchedAt s)

/-- BEACON_WATCH_SLOT_END (R370). -/
def execBeaconWatchSlotEnd (dt : Nat) (s : State) : Host.Outcome State Fault Refusal :=
  live dt s (fun s =>
    match asnNow s with
    | none => s
    | some n =>
      if standby s = false ∨ n < sfMult s (par s 0x9400) then s
      else match endedWatch s n with
        | none => s
        | some a =>
          let s := { s with pair := { s.pair with judged := some a } }
          if s.pair.heardAsn = some a then { s with pair := { s.pair with misses := 0 } }
          else if preferred s = false ∧ s.now < s.pair.startAt + secC (par s 0x9404) then s
          else
            let k := min 3 (s.pair.misses + 1)
            let due : Option (BitVec 2 × Nat × Nat) := if k = 3 ∧ s.pair.due.isNone then some (1, 1, nextWatchStart s) else s.pair.due
            let s := bump { s with pair := { s.pair with misses := k, lastMiss := s.now, due := due } } 0xE83
            raiseEv s 236 (at' 0 k) 0)

/-! ### Handovers (R372, R559, R560) -/

/-- Whether no chain of the watched band is disabled or halted. -/
def pairFit (s : State) : Bool :=
  let b := par s 0x9401
  [0, 1, 2, 3].all (fun k => chainEnabled s (4 * b + k) && !(chainSt s (4 * b + k)).halted)

/-- The first start of the watched slotframe at or after pair.revert.lead from now. -/
def leadStart (s : State) : Option Nat :=
  let t := (time s).toNat + timeUs (1000 * par s 0x9403)
  (asnOf s t).map (fun a => startFrom s (par s 0x9400) (if slotStart s a < t then a + 1 else a))

/-- Octets 10 to 16 of PROPOSE and ACCEPT. -/
def proposalOctets (asn kind : Nat) (suspend : Bool) : Octets :=
  beOctets 5 asn ++ [BitVec.ofNat 8 kind, BitVec.ofNat 8 suspend.toNat]

/-- Ends the proposal in progress without an agreement. -/
def dropProposal (s : State) : State :=
  match s.pair.proposal with
  | some p =>
    let s := { s with pair := { s.pair with proposal := none } }
    (match p.job with
     | some (hc, job) => finishJob s hc job stPairLinkDown [] false
     | none => s)
  | none => s

/-- Sends a PROPOSE in place of one in progress; with the ASN unset there is no start to propose, and none is sent. -/
def propose (s : State) (kind : Nat) (suspend : Bool) (job : Option (Hc × Nat)) : State :=
  let s := dropProposal s
  match leadStart s with
  | some a =>
    sendPartner { s with pair := { s.pair with proposal := some ⟨a, kind, suspend, s.now, job⟩ } } false 2 (proposalOctets a kind suspend)
  | none => { s with pair := { s.pair with proposal := some ⟨0, kind, suspend, s.now, job⟩ } }

/-- A handover is agreed: the role this unit takes, and on the preferred unit the suspension of R560. -/
def agree (s : State) (asn kind : Nat) (suspend proposer : Bool) : State :=
  let role : BitVec 2 := if (kind = 2) = (proposer = true) then 2 else 1
  let held := if kind = 0 then s.pair.suspended else suspend && preferred s
  { s with pair := { s.pair with handover := some ⟨asn, role, if kind = 0 then 2 else 4⟩, suspended := held } }

/-- PAIR_REVERT_AGREE (R372, R560): a preferred standby proposes its revert. -/
def execPairRevertAgree (dt : Nat) (s : State) : Host.Outcome State Fault Refusal :=
  live dt s (fun s =>
    let x := s.pair
    let held := max (max x.lastMiss x.lastChange) x.unfitAt + secC (par s 0x9402)
    if standby s ∧ preferred s ∧ x.link ∧ pairFit s ∧ x.suspended = false ∧ held ≤ s.now ∧ x.handover.isNone ∧ x.proposal.isNone ∧
        (leadStart s).isSome then
      propose s 0 false none
    else s)

/-- PAIR_ROLE_TIMEOUT (R559). -/
def execPairRoleTimeout (dt : Nat) (s : State) : Host.Outcome State Fault Refusal :=
  live dt s (fun s =>
    match s.pair.proposal with
    | some p =>
      if due s (p.at_ + msC (3 * par s 0x9405)) then dropProposal s else s
    | none => s)

/-! ### The partner link (R556, R557) -/

/-- The partner link goes up or down. -/
def setLink (s : State) (up : Bool) : State :=
  if s.pair.link = up then s
  else raiseEv { s with pair := { s.pair with link := up } } 237 (at' 0 (par s 0x9005) ||| at' 1 up.toNat) 0

/-- Whether the partner link's port is up. -/
def partnerPortUp (s : State) : Bool := match partnerPort s with | some p => (port s p).up | none => false

/-- HELLO_SEND (R556): the ASN is free while it is unset. -/
def execHelloSend (dt : Nat) (s : State) : Host.Outcome State Fault Refusal :=
  live dt s (fun s =>
    if pairMode s = false ∨ s.now < s.pair.helloTx + msC (par s 0x9405) then s
    else
      let r := drawFree { s with pair := { s.pair with helloTx := s.now } }
      let asn := (asnNow s).getD (fld r.2 39 0)
      let flags := s.pairRole.toNat + 4 * (parB s 0x9001).toNat + 8 * par s 0x9002 + 16 * s.pair.suspended.toNat
      sendPartner (if (asnNow s).isSome then { s with pair := { s.pair with helloTx := s.now } } else r.1) false 1
        ([BitVec.ofNat 8 flags] ++ versionOctets s.start.version.toNat ++ beOctets 5 asn))

/-- The oldest partner message, where it has a type. -/
def partnerMessage (s : State) (type : Nat) : Option (Octets × State) :=
  match s.bb.partnerIn with
  | m :: ms => if oct m 1 = type then some (m, { s with bb := { s.bb with partnerIn := ms } }) else none
  | [] => none

/-- Conflicts that the partner's HELLO shows (R557). -/
def conflicts (s : State) : State :=
  let clash := (parB s 0x9001 && s.pair.partnerPreferred) || (par s 0x9002 == s.pair.partnerUnit.toNat)
  let s := if clash then
      (if s.pair.acting.isSome then s
       else bump { s with pair := { s.pair with acting := some (decide (devEui s < par s 0x9003)) } } 0x1A86)
    else { s with pair := { s.pair with acting := none } }
  if s.pairRole = 1 ∧ s.pair.partnerRole = 1 ∧ preferred s = false ∧ (asnNow s).isSome ∧ s.pair.due.isNone then
    { s with pair := { s.pair with due := some (2, 5, nextWatchStart s) } }
  else s

/-- PARTNER_HELLO (R556, R557). -/
def execPartnerHello (dt : Nat) (s : State) : Host.Outcome State Fault Refusal :=
  live dt s (fun s =>
    match partnerMessage s 1 with
    | none => s
    | some (m, s) =>
      let o := m.getD 10 0
      let s := bump { s with pair := { s.pair with
        helloRx := some s.now, partnerRole := o.setWidth 2, partnerPreferred := o.getLsbD 2, partnerUnit := o.getLsbD 3,
        partnerVersion := BitVec.ofNat 36 (beField m 11 5) } } 0x1A81
      conflicts (if partnerPortUp s then setLink s true else s))

/-- EV_PARTNER_LINK (R556): the link is up while its port's is and a HELLO has arrived within 3 × pair.link.hello. -/
def execEvPartnerLink (dt : Nat) (s : State) : Host.Outcome State Fault Refusal :=
  live dt s (fun s =>
    let heard : Bool := match s.pair.helloRx with | some t => decide (s.now < t + msC (3 * par s 0x9405)) | none => false
    setLink s (heard && partnerPortUp s))

/-- PARTNER_PROPOSE (R559): answered with an ACCEPT of the same fields. -/
def execPartnerPropose (dt : Nat) (s : State) : Host.Outcome State Fault Refusal :=
  live dt s (fun s =>
    match partnerMessage s 2 with
    | none => s
    | some (m, s) =>
      let asn := beField m 10 5
      let s := agree s asn (oct m 15) (m.getD 16 0 == 1) false
      sendPartner s false 3 ((m.drop 10).take 7))

/-- PARTNER_ACCEPT (R559): it answers the proposal in progress where its fields are those proposed. -/
def execPartnerAccept (dt : Nat) (s : State) : Host.Outcome State Fault Refusal :=
  live dt s (fun s =>
    match partnerMessage s 3 with
    | none => s
    | some (m, s) =>
      match s.pair.proposal with
      | none => s
      | some p =>
        if (m.drop 10).take 7 = proposalOctets p.asn p.kind p.suspend then
          let s := agree { s with pair := { s.pair with proposal := none } } p.asn p.kind p.suspend true
          match p.job with
          | some (hc, job) => finishJob s hc job stOk [] false
          | none => s
        else s)

/-- PARTNER_MIRROR (R373, R558): a standby builds shadow items; an active unit leaves the message. -/
def execPartnerMirror (dt : Nat) (s : State) : Host.Outcome State Fault Refusal :=
  live dt s (fun s =>
    match partnerMessage s 4 with
    | none => s
    | some (m, s) =>
      let s := bump s 0x1A84
      if standby s = false then s
      else if oct m 12 = 0 then
        let d : Down := { src := .mirror (beField m 10 2 % 4096), packet := ip6Trim (m.drop 13), time := time s, at_ := s.now }
        downlink s (pipeOf s (5 + par s 0x9005)) d
      else
        let w : Word := BitVec.ofNat 72 (natOfLe ((m.drop 13).take 9))
        let w2 : Word := BitVec.ofNat 72 (natOfLe ((m.drop 22).take 9))
        let data := (m.drop 31).take (txLength w)
        if data.length < txLength w then bump s 0x1A80
        else
          let s := (submit s w w2 data .mirror).1
          (s.pair.overheard.filter (fun x => x.2.1 == crc32 data && decide (s.now < x.2.2.2 + secC 1))).foldl
            (fun s x => pruneShadows s x.1 x.2.1 x.2.2.1) s)

/-! ### PAIR_ROLE and PAIR_STATUS (R559, R561) -/

/-- PAIR_ROLE (R559): actions 0 and 1 complete at the ACCEPT. -/
def execPairRole (dt : Nat) (hc : Hc) (s : State) : Host.Outcome State Fault Refusal :=
  command dt hc 0x900 1 0 s (fun p s =>
    let w := p.word 1
    let a := fld w 1 0
    let wanted : BitVec 2 := if a = 0 then 2 else 1
    if reservedSet w (bits 2 0) then .undef 8
    else if pairMode s = false then .done s stPairOff []
    else if a = 3 then .done s stPairAction []
    else if s.pairRole = wanted then .done s stPairRole []
    else if a ≤ 1 ∧ s.pair.link = false then .done s stPairLinkDown []
    else if a ≠ 0 ∧ pairFit s = false then .done s stPairUnfit []
    else if a = 2 then .done { s with pair := { s.pair with due := some (1, 4, nextWatchStart s) } } stOk []
    else .work (propose s (if a = 0 then 2 else 1) (w.getLsbD 2) (some (hc, p.id))) .elsewhere)

/-- Shadow items held now: those of a standby (R561). -/
def shadowsHeld (s : State) : Nat := if standby s then (s.mac.items.filter (·.shadow)).length else 0

/-- PAIR_STATUS (R561). -/
def execPairStatus (dt : Nat) (hc : Hc) (s : State) : Host.Outcome State Fault Refusal :=
  command dt hc 0x901 0 6 s (fun _ s =>
    let x := s.pair
    let h := match x.handover with | some h => h.asn | none => 0
    .done s stOk
      [at' 0 s.pairRole.toNat ||| at' 2 (preferred s).toNat ||| at' 3 (par s 0x9002) ||| at' 4 x.link.toNat |||
         at' 5 x.suspended.toNat ||| at' 6 x.misses ||| at' 8 h,
       at' 0 (par s 0x9003),
       at' 0 x.partnerRole.toNat ||| at' 2 x.partnerPreferred.toNat ||| at' 3 x.partnerVersion.toNat,
       at' 0 x.changeAsn ||| at' 40 x.changeCause, at' 0 (shadowsHeld s), x.heardTime])

end Sys2Proof.Machine
end

