-- ==== Sys2Proof/Machine/Time.lean ====
section
/-!
DEFINITION. The timebase and what disciplines it (chapter 15, R486 to R497): steps and rates, PPS_IN and ToD (R71, R72), the
servo, PPS_OUT's unit, and the sentences of TOD_TXD.
-/

namespace Sys2Proof.Machine

/-! ### Statuses (R516) -/

def stStepLocked : Status := 0x600
def stRateRange : Status := 0x601
def stTimeServo : Status := 0x602
def stTimeUnset : Status := 0x603
def stTeuRange : Status := 0x604
def stTimerRange : Status := 0x605

/-- The limit of r: 1,000 ppm (R487). -/
def rateLimit : Int := 281474976710

/-- Clamps a number to ± a limit. -/
def clampTo (lim v : Int) : Int := max (-lim) (min lim v)

/-! ### PPS_OUT's unit (R497, R508) -/

/-- Unit 15 armed for each whole second to come, while the timebase is SET and feature 0x01 holds it (R497, R508). -/
def armPps (s : State) : State :=
  let x := teu s 15
  if x.held && s.tb.set then
    let sec := ((time s).toNat + 2 ^ 32 - 1) / 2 ^ 32
    setTeu s 15 { x with armed := true, aligned := false, out := 1, pin := 56, gate := false, bands := 0, next := timeSec sec,
                         chosen := false, period := timeSec 1 }
  else s

/-- Feature 0x01 takes or leaves unit 15 as time.pps.out.mode says (R162, R497). -/
def trackPpsOut (s : State) : State :=
  let x := teu s 15
  let on := par s 0x6800 != 0
  if on && !x.held then
    armPps (setTeu { s with owners := tblPut s.owners (resKey 4 15) (.feature 1) } 15 { fires := x.fires, late := x.late, held := true })
  else if !on && x.held then
    setTeu { s with owners := tblErase s.owners (resKey 4 15), pins := { s.pins with level := tblErase s.pins.level 56 } } 15
      { fires := x.fires, late := x.late }
  else s

/-! ### Steps (R490) -/

/-- A step: the timebase moves by `d` and becomes SET; times captured before it move with it. `t` is the time set. -/
def stepBy (s : State) (d : BitVec 72) (t : Time72) : State :=
  let mv (c : Time72) : Time72 := c + d
  let tb := { s.tb with value := s.tb.value + (d.setWidth 120 <<< 48), set := true, armed := none,
                        pulse := s.tb.pulse.map (fun p => (mv p.1, p.2)), labelled := s.tb.labelled.map (fun p => (mv p.1, p.2)) }
  let pps := { s.pps with base := mv s.pps.base, last := if s.pps.last = 0 then 0 else mv s.pps.last,
                          edge := s.pps.edge.map (fun e => (mv e.1, e.2)) }
  armPps (asnWatch (raiseEv (rebase { s with tb := tb, pps := pps }) 227 t 0))

/-- The timebase takes a value now. -/
def stepTo (s : State) (t : Time72) : State :=
  let s' := stepBy s (t - time s) t
  rebase { s' with tb := { s'.tb with value := t.setWidth 120 <<< 48 } }

/-- TIME_SET (R490). -/
def execTimeSet (dt : Nat) (hc : Hc) (s : State) : Host.Outcome State Fault Refusal :=
  command dt hc 0x600 2 0 s (fun p s =>
    if reservedSet (p.word 2) (bits 0 0) then .undef 8
    else if s.tb.set then .done (bump s 0x1604) stStepLocked []
    else if (p.word 2).getLsbD 0 then .done { s with tb := { s.tb with armed := some (p.word 1) } } stOk []
    else .done (stepTo s (p.word 1)) stOk [])

/-- TIME_RATE (R491). -/
def execTimeRate (dt : Nat) (hc : Hc) (s : State) : Host.Outcome State Fault Refusal :=
  command dt hc 0x601 1 0 s (fun p s =>
    let r : BitVec 40 := (p.word 1).setWidth 40
    if reservedSet (p.word 1) (bits 39 0) then .undef 8
    else if par s 0x6000 ≠ 0 then .done s stTimeServo []
    else if r.toInt < -rateLimit ∨ rateLimit < r.toInt then .done s stRateRange []
    else .done (rebase { s with tb := { s.tb with rate := r } }) stOk [])

/-! ### TIME_RESET (R340, R492) -/

/-- A unit disarmed; the pin it drives returns to its state of R37 (R505, R508). -/
def disarmTeu (s : State) (u : Nat) : State :=
  let x := teu s u
  let s := if x.held then { s with pins := { s.pins with level := tblErase s.pins.level 56 } }
    else if x.out ≠ 0 ∧ tblAt s.pins.fn x.pin .gpio = .teu u then
      { s with pins := { s.pins with fn := tblErase s.pins.fn x.pin, level := tblErase s.pins.level x.pin } }
    else s
  setTeu s u { fires := x.fires, late := x.late, held := x.held }

/-- Every entry of the node tables DESYNC, without a per-node event (R340). -/
def desyncAll (s : State) : State :=
  [0, 1].foldl (fun s p => (entriesOf s p).foldl (fun s e => putNode s e.1 (some { e.2 with desync := true })) s) s

/-- EV_PTP_STATE at a change of a port's state (R154 source 229, R499). -/
def setPtpState (s : State) (p st : Nat) : State :=
  let x := tblAt s.ptp p {}
  if x.st = st then s
  else raiseEv { s with ptp := tblPut s.ptp p { x with st := st, since := s.now } } 229 (at' 0 p ||| at' 2 st) 0

/-- The servo enters HOLDOVER, the rate held at the frequency estimate (R494). -/
def servoHold (s : State) : State :=
  if par s 0x6000 = 0 then s
  else rebase { s with tb := { s.tb with servo := 3, rate := BitVec.ofInt 40 s.tb.freq, within := 0, beyond := 0, holdFrom := s.now } }

/-- Moves a port to a state; the loss of the slave port puts a PTP servo in HOLDOVER (R494, R499). -/
def movePtp (s : State) (p st : Nat) : State :=
  let was := (tblAt s.ptp p {}).st
  let s := setPtpState s p st
  if (was = 8 ∨ was = 9) ∧ st ≠ 8 ∧ st ≠ 9 then
    let x := tblAt s.ptp p {}
    let s := { s with ptp := tblPut s.ptp p { x with syncWait := none, sync := none, delay := none, mean := none } }
    if par s 0x6000 = 2 then servoHold s else s
  else s

/-- TIME_RESET (R492, R339, R340). -/
def execTimeReset (dt : Nat) (hc : Hc) (s : State) : Host.Outcome State Fault Refusal :=
  command dt hc 0x602 0 0 s (fun _ s =>
    let s := { s with tb := { s.tb with set := false, armed := none, labelled := none } }
    let s := (List.range 16).foldl disarmTeu s
    let s := [0, 1, 2, 3].foldl (fun s p =>
      let st := (tblAt s.ptp p {}).st
      if st = 5 ∨ st = 6 ∨ st = 8 ∨ st = 9 then movePtp s p 4 else s) s
    let s := asnWatch (raiseEv s 228 0 0)
    .done { desyncAll s with mac := { s.mac with replay := [], floorPending := true, groups := [] } } stOk [])

/-! ### The servo (R494) -/

/-- One update with phase error φ in ns. The spec gives the loop's bandwidth and its limits but not its terms: the frequency
estimate and the phase term are free within their limits (log 41). -/
def servoUpdate (s : State) (phi : Int) : State :=
  let ok := decide (phi.natAbs ≤ par s 0x6003)
  let a := drawFree s
  let b := drawFree a.1
  let freq := clampTo rateLimit ((a.2.setWidth 40).toInt)
  let term := clampTo (rateLimit * par s 0x6002 / 1000) ((b.2.setWidth 40).toInt)
  let rate := clampTo rateLimit (freq + term)
  let tb : Timebase := { b.1.tb with freq := freq, phase := phi, rate := BitVec.ofInt 40 rate }
  let tb : Timebase :=
    if tb.servo = 2 then
      let n := if ok then 0 else tb.beyond + 1
      if 4 ≤ n then { tb with servo := 1, within := 0, beyond := 0 } else { tb with beyond := n }
    else
      let n := if tb.servo = 3 then 0 else tb.within
      let n := if ok then n + 1 else 0
      if 16 ≤ n then { tb with servo := 2, within := 0, beyond := 0 } else { tb with servo := 1, within := n }
  rebase { b.1 with tb := tb }

/-- The phase error of a captured pulse, in ns (R494). -/
def ppsPhase (t : Time72) : Int := ((t.setWidth 32).toInt * 1000000000 + 2 ^ 31) / 2 ^ 32

/-! ### Labels (R495) -/

/-- The whole second nearest to a captured time. -/
def nearestSec (t : Time72) : Nat := (t.toNat + 2 ^ 31) / 2 ^ 32

/-- Whether two times lie one second apart within pps.window (R71). -/
def oneSecond (s : State) (from_ t : Time72) : Bool :=
  let d : Int := (t - from_).toInt - 2 ^ 32
  decide (d.natAbs * 1000000 ≤ par s 0x14 * 2 ^ 32)

/-- A pulse of captured time `t` takes the label `sec`, seconds of the PTP timescale. -/
def labelPulse (s : State) (t : Time72) (sec : Nat) : State :=
  let follows : Bool := match s.tb.labelled with
    | some (t0, l0) => sec == l0 + 1 && oneSecond s t0 t
    | none => false
  let target : Time72 := BitVec.ofNat 72 (timeSec sec)
  let s' := { s with tb := { s.tb with labelled := some (t, sec) } }
  if s.tb.set then (if sec = nearestSec t then s' else bump s' 0x1603)
  else if par s 0x6000 = 1 ∧ follows then stepBy s' (target - t) target
  else s'

/-! ### PPS_IN (R71, R72) -/

/-- An accepted pulse: the armed step, the label that waited for it, and the servo (R72, R490, R494, R495). -/
def takePulse (s : State) (t : Time72) : State :=
  let delivered : Bool := s.pps.st == 2
  let r : State × Time72 := match s.tb.armed with
    | some target => if delivered && !s.tb.set then (stepBy s (target - t) target, target) else (s, t)
    | none => (s, t)
  let s := r.1
  let s := match s.tb.label with
    | some sec => labelPulse { s with tb := { s.tb with label := none } } r.2 sec
    | none => s
  let t := match s.tb.pulse with | some p => p.1 | none => r.2
  if delivered && par s 0x6000 == 1 then servoUpdate s (ppsPhase t) else s

/-- The pending edge is judged (R71, R72). -/
def judgeEdge (s : State) : State :=
  match s.pps.edge with
  | none => s
  | some (t, i, other) =>
    let p := { s.pps with edge := none }
    let filtered : Bool := match other with
      | some o => decide ((o - i) * 10000 < par s 0x13 * 4096)
      | none => false
    if filtered then { s with pps := p }
    else if p.st = 0 ∨ p.st = 3 then
      { s with pps := { p with st := 1, from3 := p.st == 3, base := t, lastAt := i, count := 0 } }
    else if oneSecond s p.base t = false then
      let p := { p with reject := sat32 p.reject }
      { s with pps := if p.st = 1 then { p with base := t, count := 0 } else p }
    else
      let p := { p with base := t, last := t, lastAt := i }
      let p' := if p.st = 1 then { p with count := p.count + 1, st := if 2 ≤ p.count then 2 else 1 } else p
      let s := bump { s with pps := p', tb := { s.tb with pulse := some (t, i) } } 0x1600
      let s := if p.st = 1 ∧ p'.st = 2 ∧ p.from3 = true then raiseEv s 7 t 0 else s
      takePulse s t

/-- Whether the pending edge's pps.min.width has passed. -/
def edgeDue (s : State) : Bool :=
  match s.pps.edge with
  | some (_, i, _) => due s (i + nsC (par s 0x13))
  | none => false

/-- PPS_EDGE_CAPTURE (R71): an edge of the selected sense waits to be judged; an opposite one ends its level. -/
def execPpsEdgeCapture (dt : Nat) (rising : Bool) (s : State) : Host.Outcome State Fault Refusal :=
  always dt s (fun s =>
    if regsServed s then
      let s := if edgeDue s then judgeEdge s else s
      if rising == (par s 0x12 == 0) then { s with pps := { s.pps with edge := some (time s, s.now, none) } }
      else match s.pps.edge with
        | some (t, i, none) => { s with pps := { s.pps with edge := some (t, i, some s.now) } }
        | _ => s
    else s)

/-- PPS_EDGE_JUDGED (R71, R72). -/
def execPpsEdgeJudged (dt : Nat) (s : State) : Host.Outcome State Fault Refusal :=
  always dt s (fun s => if regsServed s && edgeDue s then judgeEdge s else s)

/-- PPS_LOSS_TIMEOUT (R72, R494). -/
def execPpsLossTimeout (dt : Nat) (s : State) : Host.Outcome State Fault Refusal :=
  always dt s (fun s =>
    let p := s.pps
    if regsServed s && (p.st == 1 || p.st == 2) && due s (p.lastAt + msC 1500) then
      if p.st = 1 then { s with pps := { p with st := if p.from3 then 3 else 0, count := 0 } }
      else
        let s := raiseEv { s with pps := { p with st := 3, count := 0 } } 6 p.last 0
        if par s 0x6000 = 1 then servoHold s else s
    else s)

/-! ### ToD (R495, R496) -/

/-- Splits octets at a separator. -/
def splitAt' (sep : Octet) : Octets → List Octets
  | [] => [[]]
  | o :: os =>
    match splitAt' sep os with
    | [] => [[o]]
    | f :: fs => if o = sep then [] :: f :: fs else (o :: f) :: fs

/-- A decimal field of a fixed number of digits. -/
def decimal (n : Nat) (f : Octets) : Option Nat :=
  if f.length = n ∧ f.all (fun o => decide (0x30 ≤ o.toNat ∧ o.toNat ≤ 0x39)) then
    some (f.foldl (fun v o => 10 * v + (o.toNat - 0x30)) 0)
  else none

/-- A hexadecimal digit. -/
def hexDigit (o : Octet) : Option Nat :=
  let v := o.toNat
  if 0x30 ≤ v ∧ v ≤ 0x39 then some (v - 0x30)
  else if 0x41 ≤ v ∧ v ≤ 0x46 then some (v - 0x37)
  else if 0x61 ≤ v ∧ v ≤ 0x66 then some (v - 0x57)
  else none

/-- The exclusive OR of octets. -/
def xorAll (os : Octets) : Octet := os.foldl (· ^^^ ·) 0

/-- Days from 1970-01-01 to a date of the Gregorian calendar, from 2000 on. -/
def daysTo (year month day : Nat) : Nat :=
  let y := if month ≤ 2 then year - 1 else year
  let mp := if month ≤ 2 then month + 9 else month - 3
  365 * y + y / 4 - y / 100 + y / 400 + (153 * mp + 2) / 5 + day - 719469

/-- The body of a sentence, between `$` and `*`, where it has one, and whether its checksum stands (NMEA 0183). -/
def sentenceBody (text : Octets) : Octets × Bool :=
  let t := match text with | 0x24#8 :: r => r | r => r
  let body := t.takeWhile (· != 0x2A)
  let tail := (t.dropWhile (· != 0x2A)).drop 1
  match tail with
  | a :: b :: _ =>
    (match hexDigit a, hexDigit b with
     | some x, some y => (body, 16 * x + y == (xorAll body).toNat)
     | _, _ => (body, false))
  | _ => (body, false)

/-- Seconds of the day of a time field hhmmss with hundredths, where given, zero (R495). -/
def timeField (f : Octets) : Option Nat :=
  match decimal 2 (f.take 2), decimal 2 ((f.drop 2).take 2), decimal 2 ((f.drop 4).take 2) with
  | some h, some m, some c =>
    let rest := f.drop 6
    let zero : Bool := rest.isEmpty || (rest.head? == some 0x2E && (rest.drop 1).all (· == 0x30))
    if h ≤ 23 ∧ m ≤ 59 ∧ c ≤ 59 ∧ zero then some (3600 * h + 60 * m + c) else none
  | _, _, _ => none

/-- Days to a date whose fields lie in their ranges (R495). -/
def dateOf (year month day : Option Nat) : Option Nat :=
  match year, month, day with
  | some y, some m, some d =>
    if 2000 ≤ y ∧ y ≤ 2099 ∧ 1 ≤ m ∧ m ≤ 12 ∧ 1 ≤ d ∧ d ≤ 31 then some (daysTo y m d) else none
  | _, _, _ => none

/-- The UTC seconds of a ZDA or RMC sentence; none where it is bad. -/
def sentenceTime (rmc : Bool) (fs : List Octets) : Option Nat :=
  let f (n : Nat) : Octets := fs.getD n []
  let date := if rmc then
      (if f 2 = [0x41] then
        dateOf ((decimal 2 ((f 9).drop 4)).map (· + 2000)) (decimal 2 (((f 9).drop 2).take 2)) (decimal 2 ((f 9).take 2))
       else none)
    else dateOf (decimal 4 (f 4)) (decimal 2 (f 3)) (decimal 2 (f 2))
  match timeField (f 1), date with
  | some t, some d => some (86400 * d + t)
  | _, _ => none

/-- TOD_SENTENCE (R495): the last character of a sentence arrives. -/
def execTodSentence (dt : Nat) (text : Octets) (s : State) : Host.Outcome State Fault Refusal :=
  live dt s (fun s =>
    let b := sentenceBody text
    let fs := splitAt' 0x2C b.1
    let kind := (fs.headD []).drop 2
    let rmc : Bool := kind == [0x52, 0x4D, 0x43]
    if kind ≠ [0x5A, 0x44, 0x41] ∧ rmc = false then s
    else match (if b.2 then sentenceTime rmc fs else none) with
      | none => bump s 0x1602
      | some utc =>
        let s := bump s 0x1601
        let sec := utc + par s 0x6004
        match s.tb.pulse with
        | some (t, i) =>
          if i + msC 10 ≤ s.now ∧ s.now ≤ i + msC 990 then
            if par s 0x6803 = 0 then labelPulse s t sec else { s with tb := { s.tb with label := some sec } }
          else s
        | none => s)

/-- The two decimal digits of a number. -/
def digits2 (n : Nat) : Octets := [BitVec.ofNat 8 (0x30 + n / 10 % 10), BitVec.ofNat 8 (0x30 + n % 10)]

/-- Year, month and day of a number of days since 1970-01-01. -/
def civil (days : Nat) : Nat × Nat × Nat :=
  let z := days + 719468
  let doe := z % 146097
  let yoe := (doe - doe / 1460 + doe / 36524 - doe / 146096) / 365
  let doy := doe - (365 * yoe + yoe / 4 - yoe / 100)
  let mp := (5 * doy + 2) / 153
  let m := if mp < 10 then mp + 3 else mp - 9
  (yoe + z / 146097 * 400 + (if m ≤ 2 then 1 else 0), m, doy - (153 * mp + 2) / 5 + 1)

/-- An upper-case hexadecimal digit. -/
def hexChar (n : Nat) : Octet := BitVec.ofNat 8 (if n < 10 then 0x30 + n else 0x37 + n)

/-- The ZDA sentence of a UTC second (R496; fields as NMEA 0183 gives them). -/
def zda (talker utc : Nat) : Octets :=
  let t := utc % 86400
  let c := civil (utc / 86400)
  let body : Octets := beOctets 2 talker ++ [0x5A, 0x44, 0x41, 0x2C] ++ digits2 (t / 3600) ++ digits2 (t / 60 % 60) ++ digits2 (t % 60) ++
    [0x2E, 0x30, 0x30, 0x2C] ++ digits2 c.2.2 ++ [0x2C] ++ digits2 c.2.1 ++ [0x2C] ++ digits2 (c.1 / 100) ++ digits2 (c.1 % 100) ++
    [0x2C, 0x30, 0x30, 0x2C, 0x30, 0x30]
  let x := (xorAll body).toNat
  [0x24] ++ body ++ [0x2A, hexChar (x / 16), hexChar (x % 16), 0x0D, 0x0A]

/-- TOD_OUTPUT (R496). -/
def execTodOutput (dt : Nat) (s : State) : Host.Outcome State Fault Refusal :=
  live dt s (fun s =>
    match s.tb.todOut with
    | some (i, t) =>
      if due s (i + msC 100) then
        emit { s with tb := { s.tb with todOut := none } } (.tod (zda (par s 0x6805) (t.toNat / 2 ^ 32 - par s 0x6004)))
      else s
    | none => s)

end Sys2Proof.Machine
end

