-- ==== Sys2Proof/Machine/Teu.lean ====
section
/-!
DEFINITION. Time-event units (R505 to R509) and countdown timers (R510 to R515).
-/

namespace Sys2Proof.Machine

/-! ### TEU_CONFIG (R505 to R507) -/

/-- A unit's period in µs-scaled 72-bit time: PERIOD, or the cycles of its slotframe (R505, R506). -/
def teuPeriod (s : State) (aligned : Bool) (sf period : Nat) : Nat :=
  if aligned then timeUs (period * sfCycle s sf * par s 0x2C00) else period

/-- Whether the fields of an arm lie in their ranges (R505). -/
def teuInRange (s : State) (w w2 : Word) (period : Nat) : Bool :=
  let aligned := w.getLsbD 5
  let out := fld w 8 6
  let pin := fld w 14 9
  let width := fld w 34 15
  let pinOk := out == 0 || decide (pin < 32 ∨ (48 ≤ pin ∧ pin < 52))
  let widthOk := (out != 1 && !w.getLsbD 35) || decide (1 ≤ width ∧ width ≤ 1000000)
  let targetOk := !aligned || decide (fld w2 19 4 < sfLen s (fld w2 3 0) ∧ fld w2 41 20 ≤ 4000000)
  let periodOk := aligned || period == 0 || decide (2 ^ 32 ≤ period * 1000000)
  let pulseOk := out != 1 || period == 0 || decide (width * 2 ^ 32 < teuPeriod s aligned (fld w2 3 0) period * 1000000)
  decide (out ≤ 4) && pinOk && widthOk && targetOk && periodOk && pulseOk

/-- Gives a unit its pin; a pin it drove before returns to its state of R37 (R160, R161). -/
def assignTeuPin (s : State) (u out pin : Nat) : State :=
  let x := teu s u
  let old := x.pin
  let drops := x.out != 0 && (out == 0 || old != pin) && tblAt s.pins.fn old .gpio == .teu u
  let s := if drops then
      { s with pins := { s.pins with fn := tblErase s.pins.fn old, level := tblErase s.pins.level old } }
    else s
  if out = 0 then s else { s with pins := { s.pins with fn := tblPut s.pins.fn pin (.teu u) } }

/-- Arms a unit (R506, R507). -/
def armTeu (s : State) (u : Nat) (w w2 : Word) (period : Nat) : State :=
  let aligned := w.getLsbD 5
  let s := assignTeuPin s u (fld w 8 6) (fld w 14 9)
  let x := teu s u
  let now := (time s).toNat
  let t := w2.toNat
  let passed : Bool := !aligned && decide (t < now)
  let x' : Teu :=
    { armed := true, aligned := aligned, out := fld w 8 6, pin := fld w 14 9, width := fld w 34 15, gate := w.getLsbD 35,
      bands := BitVec.ofNat 3 (fld w 38 36), period := period, fires := x.fires, late := if passed then x.late + 1 else x.late,
      sf := if aligned then fld w2 3 0 else 0, slot := if aligned then fld w2 19 4 else 0,
      offset := if aligned then fld w2 41 20 else 0,
      till := if fld w 8 6 = 1 ∧ x.out = 1 ∧ x.pin = fld w 14 9 then x.till else none,
      next := if aligned then 0 else if passed && period != 0 then t + (now - t + period - 1) / period * period else t }
  chooseCycle (setTeu s u x') u

/-- TEU_CONFIG (R161, R505 to R507). -/
def execTeuConfig (dt : Nat) (hc : Hc) (s : State) : Host.Outcome State Fault Refusal :=
  command dt hc 0x604 2 1 s (fun p s =>
    let w := p.word 1
    let w2 := p.word 2
    let u := fld w 3 0
    let out := fld w 8 6
    let pin := fld w 14 9
    let period := if w.getLsbD 5 then fld (p.word 3) 15 0 else (p.word 3).toNat
    let fn := tblAt s.pins.fn pin .gpio
    if reservedSet w (bits 38 0) then .undef 8
    else if owns s hc 4 u = false then .done s stNotOwner []
    else if w.getLsbD 4 = false then .done (setTeu s u { teu s u with armed := false }) stOk []
    else if out ≠ 0 ∧ owns s hc 5 pin = false then .done s stNotOwner []
    else if teuInRange s w w2 period = false then .done s stTeuRange []
    else if w.getLsbD 5 = false ∧ s.tb.set = false then .done s stTimeUnset []
    else if out ≠ 0 ∧ fn ≠ .gpio ∧ fn ≠ .teu u then .done s stResourceHeld [holderWord (tblGet s.owners (resKey 5 pin))]
    else .done (armTeu s u w w2 period) stOk [])

/-! ### Firing (R497, R506) -/

/-- Drives the pin of a unit, while the pin carries it. -/
def driveTeu (s : State) (u : Nat) (f : Bool → Bool) : State :=
  let x := teu s u
  if x.held ∨ (x.out ≠ 0 ∧ tblAt s.pins.fn x.pin .gpio = .teu u) then
    { s with pins := { s.pins with level := tblPut s.pins.level x.pin (f (tblAt s.pins.level x.pin false)) } }
  else s

/-- Whether PPS_OUT pulses now (R497). -/
def ppsPulses (s : State) : Bool :=
  let limit := par s 0x11
  s.tb.set && (par s 0x6800 == 1 ||
    (par s 0x6800 == 2 && (s.tb.servo == 2 ||
      (s.tb.servo == 3 && (limit == 0 || decide (s.now < s.tb.holdFrom + secC limit))))))

/-- What a firing does to the output: a pulse or window runs for WIDTH (R505, R509). -/
def fireOutput (s : State) (u : Nat) (x : Teu) : State :=
  let till := some (s.now + usC x.width)
  let s := if x.out = 1 ∨ x.gate = true then setTeu s u { x with till := till } else setTeu s u x
  if x.out = 1 ∨ x.out = 2 then driveTeu s u (fun _ => true)
  else if x.out = 3 then driveTeu s u (fun _ => false)
  else if x.out = 4 then driveTeu s u (fun b => !b)
  else s

/-- Unit 15's firing for PPS_OUT: the values of the next pulse come into force, and a sentence follows the pulse
(R149, R496, R497). -/
def firePps (s : State) (x : Teu) (at_ : Nat) : State :=
  let s := applyKind s .nextPulse
  let x := { x with width := par s 0x6801 }
  if ppsPulses s then
    let s := fireOutput s 15 x
    if parB s 0x6804 then { s with tb := { s.tb with todOut := some (s.now, BitVec.ofNat 72 at_) } } else s
  else setTeu s 15 x

/-- The unit after a firing: the next one a period later, or disarmed (R506). -/
def afterFiring (s : State) (x : Teu) : Teu :=
  if x.period = 0 then { x with armed := false, fires := x.fires + 1 }
  else { x with next := x.next + (if x.aligned then x.period * sfCycle s x.sf else x.period), fires := x.fires + 1 }

/-- TEU_FIRE (R506). -/
def execTeuFire (dt : Nat) (unit : Fin 16) (s : State) : Host.Outcome State Fault Refusal :=
  always dt s (fun s =>
    let u := unit.val
    let x := teu s u
    match firingTime s x with
    | some f =>
      if regsServed s && decide (f ≤ (time s).toNat) then
        if x.held then firePps s (afterFiring s x) f else fireOutput s u (afterFiring s x)
      else s
    | none => s)

/-- TEU_WIDTH_END (R505, R509). -/
def execTeuWidthEnd (dt : Nat) (unit : Fin 16) (s : State) : Host.Outcome State Fault Refusal :=
  always dt s (fun s =>
    let u := unit.val
    let x := teu s u
    match x.till with
    | some t =>
      if due s t then
        let s := if x.out = 1 then driveTeu s u (fun _ => false) else s
        setTeu s u { x with till := none }
      else s
    | none => s)

/-! ### Countdown timers (R510 to R514) -/

def timer (s : State) (n : Nat) : Timer := tblAt s.timers n {}
def setTimer (s : State) (n : Nat) (x : Timer) : State := { s with timers := tblPut s.timers n x }

/-- The pin of TMR_IOn; timers 16 to 31 have none (R125). -/
def tmrPin (n : Nat) : Option Nat := if n < 16 then some (32 + n) else none

/-- The pins that the control fields of a TIMER_CONFIG name; none in the list is a pin that does not exist (R510). -/
def timerPins (n : Nat) (w : Word) : List (Option Nat) :=
  let cap := fld w 25 20
  (if w.getLsbD 15 ∨ cap = 1 then [tmrPin n] else []) ++ (if 32 ≤ cap then [some (cap - 32)] else [])

/-- Whether a pin may carry a function of timer n (R161). -/
def pinFree (s : State) (n pin : Nat) : Bool :=
  let fn := tblAt s.pins.fn pin .gpio
  fn == .gpio || fn == .timer n || fn == .capture n

/-- Detaches every pin from a timer. -/
def detachTimer (s : State) (n : Nat) : State :=
  let mine := (s.pins.fn.filter (fun e => e.2 == .timer n || e.2 == .capture n)).map (·.1)
  { s with pins := { s.pins with fn := s.pins.fn.filter (fun e => !(e.2 == .timer n || e.2 == .capture n)),
                                 level := s.pins.level.filter (fun e => !mine.contains e.1) } }

/-- Drives TMR_IOn, while the pin carries the timer (R513). -/
def driveTimer (s : State) (n : Nat) (level : Bool) : State :=
  let s := setTimer s n { timer s n with level := level }
  if tblAt s.pins.fn (32 + n) .gpio = .timer n then { s with pins := { s.pins with level := tblPut s.pins.level (32 + n) level } }
  else s

/-- Stores the control fields (R510, R511). -/
def storeControl (s : State) (n : Nat) (w : Word) : State :=
  let x := timer s n
  let cap := fld w 25 20
  let s := detachTimer s n
  let fn := if n < 16 ∧ (w.getLsbD 15 ∨ cap = 1) then tblPut s.pins.fn (32 + n) (.timer n) else s.pins.fn
  let fn := if 32 ≤ cap then tblPut fn (cap - 32) (.capture n) else fn
  let s := { s with pins := { s.pins with fn := fn } }
  let starts := w.getLsbD 8 && !x.run
  let x' := { x with run := w.getLsbD 8, oneShot := w.getLsbD 9, prescale := fld w 14 11, outEn := w.getLsbD 15,
                     matchAct := fld w 17 16, reloadAct := fld w 19 18, capSel := cap, capInv := w.getLsbD 26,
                     filter := fld w 42 27, init := w.getLsbD 43, matches_ := 0, starting := x.starting && w.getLsbD 8 || starts,
                     edgeAt := if starts then s.now + 2 ^ fld w 14 11 else x.edgeAt }
  let s := setTimer s n x'
  if w.getLsbD 15 then driveTimer s n (w.getLsbD 43) else s

/-- TIMER_CONFIG (R161, R510). -/
def execTimerConfig (dt : Nat) (hc : Hc) (s : State) : Host.Outcome State Fault Refusal :=
  command dt hc 0x603 2 1 s (fun p s =>
    let w := p.word 1
    let w2 := p.word 2
    let n := fld w 4 0
    let ctrl := w.getLsbD 5
    let cap := fld w 25 20
    let pins := timerPins n w
    let owned (q : Option Nat) : Bool := match q with | some k => owns s hc 5 k | none => false
    if reservedSet w (bits 44 0) ∨ reservedSet w2 (bits 63 0) then .undef 8
    else if owns s hc 3 n = false ∨ (ctrl = true ∧ pins.all owned = false) then .done s stNotOwner []
    else if ctrl = true ∧ 2 ≤ cap ∧ cap < 32 then .done s stTimerRange []
    else match (if ctrl then pins.find? (fun q => match q with | some k => !pinFree s n k | none => false) else none) with
      | some q => .done s stResourceHeld [holderWord (tblGet s.owners (resKey 5 (q.getD 0)))]
      | none =>
        let s := if ctrl then storeControl s n w else s
        let x := timer s n
        let x := if w.getLsbD 10 then { x with force := true } else x
        let x := if w.getLsbD 6 then { x with buffer := w2.setWidth 32 } else x
        let x := if w.getLsbD 7 then { x with compare := (w2 >>> 32).setWidth 32, fresh := true } else x
        let x := if w.getLsbD 44 then { x with capRise := 0, capFall := 0, width := 0 } else x
        .done (setTimer s n x) stOk [])

/-- The level after an action: 0 none, 1 high, 2 low, 3 toggle (R510). -/
def actLevel (act : Nat) (level : Bool) : Bool :=
  if act = 1 then true else if act = 2 then false else if act = 3 then !level else level

/-- What an edge makes of the count: the timer, and whether it was a reload (R511). -/
def timerCount (x : Timer) : Timer × Bool :=
  if x.starting ∨ x.force ∨ (x.count = 0 ∧ x.oneShot = false) then
    ({ x with count := x.buffer, starting := false, force := false, reloaded := true }, true)
  else if x.count = 0 then ({ x with run := false }, false)
  else ({ x with count := x.count - 1 }, false)

/-- Whether an edge matches, and whether it fires as passed; `moved` tells that the edge set the count (R512). -/
def timerMatch (x : Timer) (moved : Bool) : Bool × Bool :=
  if x.fresh then (decide (x.count ≤ x.compare), decide (x.count < x.compare))
  else (moved && x.compare == x.count, false)

/-- One edge of a running timer (R511 to R513). -/
def timerStep (s : State) (n : Nat) : State :=
  let x := timer s n
  let r := timerCount x
  let m := timerMatch r.1 (r.2 || r.1.run)
  let y := r.1
  let y := { y with edgeAt := x.edgeAt + 2 ^ x.prescale, fresh := false, widthCtr := sat32 x.widthCtr,
                    matched := y.matched || m.1, late := y.late || m.2,
                    matches_ := if m.1 then min (2 ^ 64 - 1) (y.matches_ + 1) else y.matches_ }
  let s := setTimer s n y
  if y.outEn then
    let l := if r.2 then actLevel y.reloadAct y.level else y.level
    let l := if m.1 then actLevel y.matchAct l else l
    if l = y.level then s else driveTimer s n l
  else s

/-- TIMER_EDGE (R511 to R513). -/
def execTimerEdge (dt : Nat) (timer : Fin 32) (s : State) : Host.Outcome State Fault Refusal :=
  always dt s (fun s =>
    let x := Machine.timer s timer.val
    if regsServed s && x.run && due s x.edgeAt then timerStep s timer.val else s)

/-- Whether a capture input reaches a timer: its pin carries the timer still (R161, R510). -/
def captures (s : State) (n : Nat) (x : Timer) : Bool :=
  if x.capSel = 1 then tblAt s.pins.fn (32 + n) .gpio == .timer n
  else decide (32 ≤ x.capSel) && tblAt s.pins.fn (x.capSel - 32) .gpio == .capture n

/-- TIMER_CAPTURE (R514): an edge that the filter accepts; `rising` is the edge at the pin. -/
def execTimerCapture (dt : Nat) (timer : Fin 32) (rising : Bool) (s : State) : Host.Outcome State Fault Refusal :=
  always dt s (fun s =>
    let n := timer.val
    let x := Machine.timer s n
    if regsServed s && captures s n x then
      let x := if x.capSel = 1 ∧ x.outEn = false then { x with level := rising } else x
      if rising != x.capInv then setTimer s n { x with capRise := x.count, widthCtr := 0 }
      else setTimer s n { x with capFall := x.count, width := x.widthCtr, capNew := true, capOverrun := x.capOverrun || x.capNew }
    else s)

end Sys2Proof.Machine
end

