-- ==== Sys2Proof/Machine/Ptp.lean ====
section
/-!
DEFINITION. PTP (R498 to R502): the messages a port receives and sends, the BMCA with its timeouts, and the updates of the servo.
Message layouts and the BMCA's comparison and state decision are those of IEEE 1588-2019, which R498 cites (log 43).
-/

namespace Sys2Proof.Machine

/-! ### Ports (R498, R499) -/

def ptp (s : State) (p : Nat) : PtpPort := tblAt s.ptp p {}
def setPtp (s : State) (p : Nat) (x : PtpPort) : State := { s with ptp := tblPut s.ptp p x }

/-- Counter k of a PTP port (R518). -/
def ptpBump (s : State) (p k : Nat) : State := bump s (0x1620 + 16 * p + k)

/-- Whether a port is enabled; the partner link carries no PTP (R498, R556). -/
def ptpOn (s : State) (p : Nat) : Bool := par s 0x6400 != 0 && parB s (0x6402 + p) && !isPartnerPort s p

/-- TIME cycles in 2^log s. -/
def logCycles (log : Int) : Nat := if 0 ≤ log then secC 1 * 2 ^ log.toNat else secC 1 / 2 ^ (-log).toNat

/-- The device's announce interval. -/
def announceCycles (s : State) : Nat := logCycles (par s 0x6413)

/-- The identity of a port: DEV_EUI64 and the port's number, from 1 (log 43). -/
def portIdentity (s : State) (p : Nat) : Nat := devEui s * 65536 + p + 1

/-- A port is enabled or disabled as its parameters say (R498); a port that no parameter enables after a reset is DISABLED from
the start, without EV_PTP_STATE (DESIGN CHOICE, log 48). -/
def trackPtp (s : State) : State :=
  [0, 1, 2, 3].foldl (fun s p =>
    let st := (ptp s p).st
    if ptpOn s p then
      (if st = 1 ∨ st = 3 then movePtp (setPtp s p { ptp s p with announceAt := s.now }) p 4 else s)
    else if st = 3 then s
    else if st = 1 then setPtp s p { ptp s p with st := 3 }
    else
      let s := movePtp s p 3
      setPtp s p { ptp s p with foreign := [] }) s

/-! ### Fields of messages -/

/-- A 64-bit signed field in 2^-16 ns, in ns. -/
def ptpCorrection (m : Octets) : Int := (BitVec.ofNat 64 (beField m 8 8)).toInt / 65536
def ptpSource (m : Octets) : Nat := beField m 20 10
def ptpSeq (m : Octets) : Nat := beField m 30 2
/-- The timestamp at octet 34, in ns. -/
def ptpStamp (m : Octets) : Int := beField m 34 6 * 1000000000 + beField m 40 4

/-- The 72-bit time of a number of ns (R501 turned round, to the nearest unit). -/
def timeOfNs (n : Int) : Time72 :=
  BitVec.ofInt 72 (n / 1000000000 * 2 ^ 32 + (n % 1000000000 * 2 ^ 32 + 500000000) / 1000000000)

/-- An ingress time in ns, with time.ptp.ingress.lat (R500). -/
def ingressNs (s : State) (p : Nat) (t : Time72) : Int := (ptpNs t + par s (0x640E + p) : Nat)

/-! ### Taking messages (R190, R194, R500) -/

/-- The oldest waiting message of a type, and the inbox without it. -/
def takeType (type : Nat) : List PtpMsg → Option (PtpMsg × List PtpMsg)
  | [] => none
  | m :: ms =>
    if oct m.octets 0 % 16 = type then some (m, ms) else (takeType type ms).map (fun r => (r.1, m :: r.2))

/-- Takes the oldest general message of a type from a port's inbox. -/
def takeGeneral (s : State) (p type : Nat) : Option (State × PtpMsg) :=
  (takeType type (ptp s p).inbox).map (fun r => (setPtp s p { ptp s p with inbox := r.2 }, r.1))

/-- Whether the capture at the head of the draining bank is of a radio frame event: it stamps no message that waits in an inbox. -/
def radioCapture (s : State) : Bool :=
  match (fifo s 3).draining with
  | (a, _) :: _ :: _ => !s.ptp.any (fun e => e.2.inbox.any (fun m => fifoWord m.at_ == a))
  | _ => false

/-- MC firmware takes the captures of radio frame events that stand before the next message's (R190). -/
def skipRadio : Nat → State → State
  | 0, s => s
  | n + 1, s => if radioCapture s then skipRadio n (readFifo s 3 [] 2).1 else s

/-- Takes the oldest event message of a type with its capture, once the capture has reached the draining bank of the timestamp
FIFO; an entry with an uncorrectable word discards its message, and a read that finds nothing sets the underrun bit (R190, R193, R194,
R500). `flips` are the bits of the entry's two words that have changed since. -/
def takeEvent (s : State) (p type : Nat) (flips : List (BitVec 80)) : State × Option PtpMsg :=
  let s := skipRadio 32 s
  let x := fifo s 3
  match takeGeneral s p type, x.draining with
  | some (_, _), [] => (if swapDue 3 x then s else setCounter s 0x11B 1, none)
  | some (s', m), (a, _) :: _ :: _ =>
    if a = fifoWord m.at_ then
      let r := readFifo s' 3 ((List.range flips.length).zip flips) 2
      match r.2.findSome? (·.2) with
      | some bad => (reportFifo r.1 3 bad, none)
      | none => (r.1, some m)
    else (s, none)
  | _, _ => (s, none)

/-! ### The BMCA (R498, R499) -/

/-- What a data set comparison weighs: grandmaster attributes, steps, and sender and receiver. -/
structure DataSet where
  gm : List Nat
  identity : Nat
  steps : Nat
  sender : Nat
  receiver : Nat
deriving DecidableEq, Repr

/-- clockClass of the device: 6 or 7 as a grandmaster candidate under source 1, which alone locks its servo without a master (R499;
with source 2 248, DEDUCED, log 235). -/
def clockClass (s : State) : Nat :=
  if par s 0x6000 = 1 ∧ s.tb.servo = 2 then 6 else if par s 0x6000 = 1 ∧ s.tb.servo = 3 then 7 else 248

/-- The device's own data set. -/
def ownData (s : State) : DataSet :=
  { gm := [par s 0x6415, clockClass s, Config.clockAccuracy.toNat, Config.clockVariance.toNat, par s 0x6416],
    identity := devEui s, steps := 0, sender := devEui s, receiver := 0 }

/-- The data set that an Announce on a port gives. -/
def announceData (s : State) (p : Nat) (m : Octets) : DataSet :=
  { gm := [oct m 47, oct m 48, oct m 49, beField m 50 2, oct m 52], identity := beField m 53 8, steps := beField m 61 2,
    sender := beField m 20 8, receiver := portIdentity s p }

/-- Lexicographic order. -/
def lexLess : List Nat → List Nat → Bool
  | a :: as, b :: bs => decide (a < b) || (a == b && lexLess as bs)
  | _, _ => false

/-- How one data set stands to another: better outright, better by topology only, or neither. -/
inductive Standing where
  | better
  | topology
  | worse
deriving DecidableEq, Repr

/-- The data set comparison of IEEE 1588: A against B. -/
def compareData (a b : DataSet) : Standing :=
  if a.identity ≠ b.identity then (if lexLess (a.gm ++ [a.identity]) (b.gm ++ [b.identity]) then .better else .worse)
  else if a.steps + 1 < b.steps then .better
  else if a.steps < b.steps then (if b.receiver / 65536 < b.sender then .better else .topology)
  else if b.steps < a.steps then .worse
  else if lexLess [a.sender, a.receiver] [b.sender, b.receiver] then .topology
  else .worse

/-- Whether A goes before B. -/
def beats (a b : DataSet) : Bool := compareData a b != .worse

/-- The qualified foreign masters of a port: two Announces within four announce intervals. -/
def qualified (s : State) (p : Nat) : List Foreign :=
  (ptp s p).foreign.filter (fun f => match f.before with
    | some b => decide (s.now ≤ b + 4 * announceCycles s)
    | none => false)

/-- The best of the Announces of a port. -/
def bestOf (s : State) (p : Nat) : Option Foreign :=
  (qualified s p).foldl (fun r f => match r with
    | none => some f
    | some g => if beats (announceData s p f.announce) (announceData s p g.announce) then some f else some g) none

/-- The best Announce of all ports, with its port. -/
def bestOfAll (s : State) : Option (Nat × Foreign) :=
  [0, 1, 2, 3].foldl (fun r p => match (if ptpOn s p then bestOf s p else none), r with
    | none, r => r
    | some f, none => some (p, f)
    | some f, some (q, g) =>
      if beats (announceData s p f.announce) (announceData s q g.announce) then some (p, f) else some (q, g)) none

/-- What the state decision recommends: a master after some qualification intervals, a slave, passive, or to listen on. -/
inductive Advice where
  | master (intervals : Nat)
  | slave (sender : Nat)
  | passive
  | listen
deriving DecidableEq, Repr

/-- The state decision algorithm for a port; no port enters SLAVE unless the source is 2 (R499). -/
def advise (s : State) (p : Nat) (ebest : Option (Nat × Foreign)) : Advice :=
  let own := ownData s
  let mine := (bestOf s p).map (fun f => (f, announceData s p f.announce))
  if mine.isNone ∧ (ptp s p).st = 4 then .listen
  else if clockClass s < 128 then
    match mine with
    | some (_, d) => if beats own d then .master 0 else .passive
    | none => .master 0
  else match ebest with
    | none => .master 0
    | some (q, f) =>
      let e := announceData s q f.announce
      if beats own e then .master 0
      else if q = p then (if par s 0x6000 = 2 then .slave (ptpSource f.announce) else .passive)
      else match mine with
        | some (_, d) => if compareData e d = .topology then .passive else .master (e.steps + 1)
        | none => .master (e.steps + 1)

/-- A port follows its advice (R499): PRE_MASTER before MASTER, UNCALIBRATED before SLAVE, no MASTER while the timebase is UNSET.
`direct` leaves the qualification out. -/
def follow (s : State) (p : Nat) (direct : Bool) (a : Advice) : State :=
  let st := (ptp s p).st
  match a with
  | .listen => s
  | .passive => movePtp s p 7
  | .slave sender =>
    if (st = 8 ∨ st = 9) ∧ (ptp s p).master = sender then s
    else
      let s := movePtp s p 8
      setPtp s p { ptp s p with master := sender, syncWait := none, sync := none, delay := none, mean := none }
  | .master n =>
    if s.tb.set = false then movePtp s p 4
    else if st = 6 ∨ (st = 5 ∧ direct = false) then s
    else if direct then movePtp s p 6
    else
      let s := movePtp s p 5
      setPtp s p { ptp s p with qualAt := s.now + n * announceCycles s }

/-- The BMCA over every enabled port; `direct` names a port whose receipt timeout has run out. -/
def runBmca (s : State) (direct : Option Nat) : State :=
  let e := bestOfAll s
  let advice := ([0, 1, 2, 3].filter (ptpOn s)).map (fun p =>
    (p, if direct = some p ∧ advise s p e = .listen then Advice.master 0 else advise s p e))
  advice.foldl (fun s a => follow s a.1 (direct == some a.1) a.2) s

/-- Enters an Announce in a port's list of foreign masters. -/
def hearForeign (s : State) (p : Nat) (m : Octets) : State :=
  let x := ptp s p
  let mine (f : Foreign) : Bool := ptpSource f.announce == ptpSource m
  let f : Foreign := match x.foreign.find? mine with
    | some f => { announce := m, last := s.now, before := some f.last }
    | none => { announce := m, last := s.now, before := none }
  setPtp s p { x with foreign := x.foreign.filter (fun f => !mine f) ++ [f] }

/-- PTP_ANNOUNCE_RX (R499). -/
def execPtpAnnounceRx (dt : Nat) (port : Port) (s : State) : Host.Outcome State Fault Refusal :=
  live dt s (fun s =>
    let p := port.val
    match takeGeneral s p 11 with
    | none => s
    | some (s, m) =>
      let s := ptpBump s p 4
      let m := m.octets
      if ptpOn s p = false ∨ m.length < 64 ∨ 255 ≤ beField m 61 2 ∨ beField m 20 8 = devEui s then s
      else
        let s := hearForeign s p m
        let best : Bool := match bestOf s p with | some f => ptpSource f.announce == ptpSource m | none => true
        let s := if best then setPtp s p { ptp s p with announceAt := s.now } else s
        runBmca s none)

/-- ANNOUNCE_RECEIPT_TIMEOUT (R494, R499): three announce intervals without an Announce of the best master. -/
def execAnnounceReceiptTimeout (dt : Nat) (port : Port) (s : State) : Host.Outcome State Fault Refusal :=
  live dt s (fun s =>
    let p := port.val
    let x := ptp s p
    let listens : Bool := x.st == 4 || x.st == 7 || x.st == 8 || x.st == 9
    if ptpOn s p && listens && due s (x.announceAt + 3 * announceCycles s) then
      runBmca (setPtp s p { x with foreign := [], announceAt := s.now }) (some p)
    else s)

/-- PTP_QUALIFICATION_TIMEOUT (R499). -/
def execPtpQualificationTimeout (dt : Nat) (port : Port) (s : State) : Host.Outcome State Fault Refusal :=
  live dt s (fun s =>
    let x := ptp s port.val
    if x.st = 5 ∧ due s x.qualAt = true ∧ s.tb.set = true then movePtp s port.val 6 else s)

/-! ### Frames that the device sends (R498, R502) -/

/-- A message header. -/
def ptpHeader (s : State) (p type length seq control : Nat) (flags : BitVec 8) (corr : Octets) (interval : Int) : Octets :=
  [BitVec.ofNat 8 type, 0x12] ++ beOctets 2 length ++ [BitVec.ofNat 8 (par s 0x6401), 0, 0, flags] ++ corr ++
    [0, 0, 0, 0] ++ beOctets 10 (portIdentity s p) ++ beOctets 2 seq ++ [BitVec.ofNat 8 control, BitVec.ofInt 8 interval]

/-- The link-local address of the device. -/
def linkLocal (s : State) : Octets := [0xFE, 0x80, 0, 0, 0, 0, 0, 0] ++ beOctets 8 (devEui s ^^^ 2 ^ 57)

/-- The UDP packet of a message, with two octets after it (R502). -/
def ptpUdp (s : State) (udpPort : Nat) (m : Octets) : Octets :=
  let len := 8 + m.length + 2
  let p : Octets := [0x60, 0, 0, 0] ++ beOctets 2 len ++ [17, Config.ptpHopLimit] ++ linkLocal s ++
    [0xFF, 0x0E, 0, 0, 0, 0, 0, 0, 0, 0, 0, 0, 0, 0, 0x01, 0x81] ++
    beOctets 2 udpPort ++ beOctets 2 udpPort ++ beOctets 2 len ++ [0, 0] ++ m ++ [0, 0]
  setUdpChecksum p 40

/-- The frame of a message on a port's transport. -/
def ptpFrame (s : State) (p : Nat) (event : Bool) (m : Octets) : Octets :=
  let src := beOctets 6 (ownMac s)
  if parB s (0x6406 + p) then
    [0x33, 0x33, 0x00, 0x00, 0x01, 0x81] ++ src ++ [0x86, 0xDD] ++ ptpUdp s (if event then 319 else 320) m
  else [0x01, 0x1B, 0x19, 0x00, 0x00, 0x00] ++ src ++ [0x88, 0xF7] ++ m

/-- Sends a message on one port, without an RCT; on the ring it carries the HSR tag (R551, R553). -/
def sendPtp (s : State) (p : Nat) (event : Bool) (stamp : Stamp) (m : Octets) : State :=
  let f := ptpFrame s p event m
  let cls := if event then 0 else 2
  if 2 ≤ p ∧ hsrMode s = true then
    let n := s.bb.seqHsr.toNat
    enqueueEth { s with bb := { s.bb with seqHsr := s.bb.seqHsr + 1 } } p { cls := cls, octets := addHsr n f, stamp := stamp }
  else enqueueEth s p { cls := cls, octets := padFrame 0 f, stamp := stamp }

/-- PTP_SYNC_TX (R498, R502). -/
def execPtpSyncTx (dt : Nat) (port : Port) (s : State) : Host.Outcome State Fault Refusal :=
  live dt s (fun s =>
    let p := port.val
    let x := ptp s p
    if ptpOn s p && x.st == 6 && due s (x.sentSync + logCycles (parI s 0x6412)) then
      let s := ptpBump (setPtp s p { x with sentSync := s.now, seqSync := x.seqSync + 1 }) p 5
      sendPtp s p true .sync (ptpHeader s p 0 44 x.seqSync.toNat 0 0x08 (beOctets 8 0) (parI s 0x6412) ++ beOctets 10 0)
    else s)

/-- PTP_DELAY_REQ_TX (R498). -/
def execPtpDelayReqTx (dt : Nat) (port : Port) (s : State) : Host.Outcome State Fault Refusal :=
  live dt s (fun s =>
    let p := port.val
    let x := ptp s p
    if ptpOn s p && (x.st == 8 || x.st == 9) && due s (x.sentDelay + logCycles (parI s 0x6414)) then
      let s := ptpBump (setPtp s p { x with sentDelay := s.now, seqDelay := x.seqDelay + 1, delay := some (x.seqDelay.toNat, none) }) p 6
      sendPtp s p true .delayReq (ptpHeader s p 1 44 x.seqDelay.toNat 1 0x08 (beOctets 8 0) 127 ++ beOctets 10 0)
    else s)

/-- The Announce of the slave port's master, while there is one. -/
def parentAnnounce (s : State) : Option Octets :=
  [0, 1, 2, 3].findSome? (fun p =>
    let x := ptp s p
    if x.st = 8 ∨ x.st = 9 then (x.foreign.find? (fun f => ptpSource f.announce == x.master)).map (·.announce) else none)

/-- The octets of an Announce from 34 on, and its second flag octet: the parent's grandmaster data set, or the device's own (R499). -/
def announceBody (s : State) : BitVec 8 × Octets :=
  match parentAnnounce s with
  | some m =>
    (m.getD 7 0, beOctets 10 0 ++ (m.drop 44).take 2 ++ [0] ++ (m.drop 47).take 14 ++ beOctets 2 (beField m 61 2 + 1) ++ (m.drop 63).take 1)
  | none =>
    (Config.announceFlags, beOctets 10 0 ++ beOctets 2 (par s 0x6004) ++ [0, BitVec.ofNat 8 (par s 0x6415), BitVec.ofNat 8 (clockClass s),
      Config.clockAccuracy] ++ beOctets 2 Config.clockVariance.toNat ++ [BitVec.ofNat 8 (par s 0x6416)] ++ beOctets 8 (devEui s) ++
      beOctets 2 0 ++ [if par s 0x6000 = 1 then 0x20 else 0xA0])

/-- PTP_ANNOUNCE_TX (R499). -/
def execPtpAnnounceTx (dt : Nat) (port : Port) (s : State) : Host.Outcome State Fault Refusal :=
  live dt s (fun s =>
    let p := port.val
    let x := ptp s p
    if ptpOn s p && x.st == 6 && due s (x.sentAnnounce + announceCycles s) then
      let s := ptpBump (setPtp s p { x with sentAnnounce := s.now, seqAnnounce := x.seqAnnounce + 1 }) p 8
      let b := announceBody s
      sendPtp s p false .none (ptpHeader s p 11 64 x.seqAnnounce.toNat 5 b.1 (beOctets 8 0) (par s 0x6413) ++ b.2)
    else s)

/-! ### Slave and master (R494, R498, R501) -/

/-- A Sync whose master time, corrections included, is known: the first set, SLAVE once meanPathDelay is measured, and the
servo's update (R494, R501). -/
def acceptSync (s : State) (p : Nat) (master : Int) (at_ : Time72) : State :=
  let s := setPtp s p { ptp s p with sync := some (master, at_), syncWait := none }
  match (ptp s p).mean with
  | none => s
  | some mean =>
    let phi := ingressNs s p at_ - master - mean
    let s := if (ptp s p).st = 8 then setPtpState s p 9 else s
    if s.tb.set then servoUpdate s phi
    else
      let t := timeOfNs (master + mean)
      let d := t - timeOfNs (ingressNs s p at_)
      let s := stepBy s d t
      let s := setPtp s p { ptp s p with sync := some (master, at_ + d) }
      servoUpdate s 0

/-- Whether a message comes from the master of a slave port, with source 2. -/
def fromMaster (s : State) (p : Nat) (m : Octets) : Bool :=
  let x := ptp s p
  ptpOn s p && par s 0x6000 == 2 && (x.st == 8 || x.st == 9) && ptpSource m == x.master

/-- PTP_SYNC_RX (R498, R500, R501). -/
def execPtpSyncRx (dt : Nat) (port : Port) (flips : List (BitVec 80)) (s : State) : Host.Outcome State Fault Refusal :=
  live dt s (fun s =>
    let p := port.val
    match takeEvent s p 0 flips with
    | (s, none) => s
    | (s, some m) =>
      let s := ptpBump s p 0
      let o := m.octets
      if fromMaster s p o = false ∨ o.length < 44 then s
      else if (o.getD 6 0).getLsbD 1 then setPtp s p { ptp s p with syncWait := some (ptpSeq o, m.at_, ptpCorrection o) }
      else acceptSync s p (ptpStamp o + ptpCorrection o) m.at_)

/-- PTP_FOLLOW_UP_RX (R498). -/
def execPtpFollowUpRx (dt : Nat) (port : Port) (s : State) : Host.Outcome State Fault Refusal :=
  live dt s (fun s =>
    let p := port.val
    match takeGeneral s p 8 with
    | none => s
    | some (s, m) =>
      let s := ptpBump s p 1
      let o := m.octets
      match (ptp s p).syncWait with
      | some (seq, t, c) =>
        if fromMaster s p o && decide (44 ≤ o.length) && ptpSeq o == seq then acceptSync s p (ptpStamp o + ptpCorrection o + c) t else s
      | none => s)

/-- PTP_DELAY_REQ_RX (R498, R500): a MASTER port answers. -/
def execPtpDelayReqRx (dt : Nat) (port : Port) (flips : List (BitVec 80)) (s : State) : Host.Outcome State Fault Refusal :=
  live dt s (fun s =>
    let p := port.val
    match takeEvent s p 1 flips with
    | (s, none) => s
    | (s, some m) =>
      let s := ptpBump s p 2
      let o := m.octets
      if ptpOn s p = false ∨ (ptp s p).st ≠ 6 ∨ o.length < 44 then s
      else
        let t := ptpNs m.at_ + par s (0x640E + p)
        let r := ptpHeader s p 9 54 (ptpSeq o) 3 0x08 ((o.drop 8).take 8) (parI s 0x6414) ++ beOctets 6 (t / 1000000000) ++
          beOctets 4 (t % 1000000000) ++ (o.drop 20).take 10
        sendPtp (ptpBump s p 7) p false .none r)

/-- PTP_DELAY_RESP_RX (R498): meanPathDelay from one exchange. -/
def execPtpDelayRespRx (dt : Nat) (port : Port) (s : State) : Host.Outcome State Fault Refusal :=
  live dt s (fun s =>
    let p := port.val
    match takeGeneral s p 9 with
    | none => s
    | some (s, m) =>
      let s := ptpBump s p 3
      let o := m.octets
      let x := ptp s p
      match x.delay, x.sync with
      | some (seq, some sent), some (master, at_) =>
        if fromMaster s p o && decide (54 ≤ o.length) && ptpSeq o == seq && beField o 44 10 == portIdentity s p then
          let t2 := ingressNs s p at_
          let t3 : Int := (ptpNs sent + par s (0x640A + p) : Nat)
          let t4 := ptpStamp o - ptpCorrection o
          setPtp s p { x with delay := none, mean := some (((t2 - master) + (t4 - t3)) / 2) }
        else s
      | _, _ => s)

end Sys2Proof.Machine
end

