-- ==== Sys2Proof/Machine/Update.lean ====
section
/-!
DEFINITION. Flash, manifests and their verification, the update session, confirmation, and the settings (chapter 16); and the
response of ATTEST (R481), which digests the running set.
-/

namespace Sys2Proof

/-- The running image's tables, decoded from the octets of a table image part: the spec gives the records of the tables and not
their arrangement in the part (log 44). -/
opaque Config.tableImage : Octets → Machine.TableImage

/-- The settings that MC firmware makes of a record of an older format that its part lists as convertible (R536; log 44). -/
opaque Config.convertSettings : (format : Nat) → (entries : List (Nat × BitVec 64)) → Option (List (Nat × BitVec 64))

namespace Machine

/-! ### Statuses (R538) -/

def stUpdateBusy : Status := 0x700
def stUpdateSource : Status := 0x701
def stUpdateFormat : Status := 0x702
def stUpdateTarget : Status := 0x703
def stUpdateAuth : Status := 0x704
def stUpdateSignature : Status := 0x705
def stUpdateSvn : Status := 0x706
def stUpdateProbation : Status := 0x707
def stUpdateSequence : Status := 0x708
def stUpdateManifest : Status := 0x709
def stUpdateDigest : Status := 0x70A
def stUpdateRegAuth : Status := 0x70B
def stUpdateIncomplete : Status := 0x70C
def stUpdateVerify : Status := 0x70D
def stFlashError : Status := 0x70E
def stUpdateNotProbation : Status := 0x70F

/-! ### Boot control (R520) -/

/-- A boot control record. -/
structure Boot where
  seq : Nat := 0
  active : Nat := 0
  previous : Nat := 255
  /-- 1 NORMAL, 2 PENDING, 3 PROBATION -/
  state : Nat := 1
  prob : Nat := 0
  digest : Nat := 0
deriving DecidableEq, Repr

/-- The record of a copy, where it is good. -/
def bootCopy (os : Octets) : Option Boot :=
  if os.length = 64 ∧ beField os 62 1 = 0xC3 ∧ beField os 60 2 = (crc16 (os.take 60)).toNat then
    some { seq := beField os 1 4, active := beField os 5 1, previous := beField os 6 1, state := beField os 7 1,
           prob := beField os 8 4, digest := beField os 12 32 }
  else none

/-- The record in force, and whether it stands in copy 1. -/
def bootOf (f : Flash) : Boot × Bool :=
  match bootCopy f.boot0, bootCopy f.boot1 with
  | some a, some b => if a.seq < b.seq then (b, true) else (a, false)
  | some a, none => (a, false)
  | none, some b => (b, true)
  | none, none => ({}, true)

/-- The octets of a record. -/
def bootOctets (b : Boot) : Octets :=
  let body : Octets := [1] ++ beOctets 4 b.seq ++ beOctets 1 b.active ++ beOctets 1 b.previous ++ beOctets 1 b.state ++
    beOctets 4 b.prob ++ beOctets 32 b.digest ++ List.replicate 16 0
  body ++ beOctets 2 (crc16 body).toNat ++ [0xC3, 0]

/-- Writes a record into the other copy. -/
def writeBoot (f : Flash) (b : Boot) : Flash :=
  let r := bootOf f
  let os := bootOctets { b with seq := r.1.seq + 1 }
  if r.2 then { f with boot0 := os } else { f with boot1 := os }

/-- A set region. -/
def setRegion (f : Flash) (r : Nat) : Octets := if r = 0 then f.set0 else f.set1
def putRegion (f : Flash) (r : Nat) (os : Octets) : Flash := if r = 0 then { f with set0 := os } else { f with set1 := os }

/-! ### Manifests (R521 to R524) -/

def hdrTotal (h : Octets) : Nat := beField h 16 4
def hdrVersion (h : Octets) : Nat := beField h 8 5 % 2 ^ 36
def hdrSvn (h : Octets) : Nat := beField h 7 1
def hdrFormat (h : Octets) : Nat := beField h 13 1

/-- Entry i of a part table. -/
def partEntry (t : Octets) (i : Nat) : Octets := (t.drop (48 * i)).take 48
def partVersion (t : Octets) (i : Nat) : Nat := beField (partEntry t i) 1 5 % 2 ^ 36
def partOffset (t : Octets) (i : Nat) : Nat := beField (partEntry t i) 8 4
def partSize (t : Octets) (i : Nat) : Nat := beField (partEntry t i) 12 4
/-- Part i of the part data. -/
def partData (t d : Octets) (i : Nat) : Octets := (d.drop (partOffset t i)).take (partSize t i)

/-- The value of a thermometer field of `n` fuses (R93). -/
def thermo (s : State) (lo n : Nat) : Nat := ((List.range n).takeWhile (fun i => s.otp.getLsbD (lo + i))).length
def fwSvn (s : State) : Nat := thermo s 1974 128
def regSvn (s : State) : Nat := thermo s 2102 64

/-- Whether a key's hash is the authority's fuse and its revocation bit is clear (R90, R524). -/
def authorityOk (s : State) (key : Octets) (hashLo revokeLo n i : Nat) : Bool :=
  decide (i < n) && (sha256 key).toNat == fld s.otp (hashLo + 256 * i + 255) (hashLo + 256 * i) &&
    !s.otp.getLsbD (revokeLo + i)

/-- Check 4 of R526: FORMAT, PARTS, TOTAL_LEN and the reserved octets. -/
def headerForm (h : Octets) : Bool :=
  beField h 0 1 == 1 && beField h 2 1 == 6 && decide (1 ≤ hdrTotal h ∧ hdrTotal h ≤ 4190208) && beField h 14 2 == 0

/-- Checks 5 to 8 of R526: the first that fails. -/
def headerRefusal (s : State) (h : Octets) : Option Status :=
  let auth := beField h 1 1
  if beField h 4 2 ≠ 0x9740 ∨ 1 < beField h 6 1 then some stUpdateTarget
  else if authorityOk s ((h.drop 52).take 64) 416 1440 4 auth = false ∨ (beField h 3 1).testBit auth = true then some stUpdateAuth
  else if ecdsaVerify ((h.drop 52).take 64) (sha256 (h.take 116)) ((h.drop 116).take 64) = false then
    some stUpdateSignature
  else if hdrSvn h < fwSvn s then some stUpdateSvn
  else none

/-- A header that meets R521 and R526. -/
def headerMeets (s : State) (h : Octets) : Bool :=
  h.length == 180 && headerForm h && decide (beField h 3 1 < 64 ∧ hdrSvn h ≤ 128 ∧ 1 ≤ hdrFormat h) && (headerRefusal s h).isNone

/-- R522, and TABLE_DIGEST. -/
def tableMeets (h t : Octets) : Bool :=
  let entryOk (i : Nat) : Bool :=
    let e := partEntry t i
    let limit := if i < 3 then 147456 else if i = 5 then 65536 else 4190208
    let start := if i = 0 then 0 else partOffset t (i - 1) + partSize t (i - 1)
    beField e 0 1 == i + 1 && beField e 6 2 == 0 && partOffset t i == start && decide (1 ≤ partSize t i ∧ partSize t i ≤ limit) &&
      (i != 4 || decide (181 ≤ partSize t i ∧ (partSize t i - 181) % 18 = 0))
  t.length == 288 && (List.range 6).all entryOk && partOffset t 5 + partSize t 5 == hdrTotal h &&
    (sha256 t).toNat == beField h 20 32

/-- Whether part i matches its DIGEST. -/
def partMeets (t d : Octets) (i : Nat) : Bool :=
  (partData t d i).length == partSize t i && (sha256 (partData t d i)).toNat == beField (partEntry t i) 16 32

/-- The profile of a regulatory part, as words (R523). -/
def regProfile (p : Octets) : List Word := packWords (p.length / 9) ((p.drop 8).take (p.length - 136))

/-- Key, signature and REG_SVN of a regulatory part (R523, R524). -/
def regMeets (s : State) (p : Octets) : Bool :=
  let n := p.length - 64
  let len := beField p 4 4
  beField p 0 1 == 1 && beField p 3 1 == 0 && decide (beField p 2 1 ≤ 64) && p.length == 136 + len && len % 18 == 9 &&
    authorityOk s ((p.drop (8 + len)).take 64) 1444 1956 2 (beField p 1 1) &&
    ecdsaVerify ((p.drop (8 + len)).take 64) (sha256 (p.take n)) (p.drop n) && decide (regSvn s ≤ beField p 2 1)

/-- Whether a table image meets R300. -/
def imageMeets (s : State) (p : Octets) : Bool :=
  let s := { s with image := Config.tableImage p }
  [0, 1, 2].all (fun b => (List.range 32).all (fun m => txModeOk s b (txMode s b m)))

/-- Whether a set verifies (R524): header, table and part data, as stored. -/
def setVerifies (s : State) (set : Octets) : Bool :=
  let h := set.take 180
  let t := (set.drop 180).take 288
  let d := set.drop 468
  headerMeets s h && tableMeets h t && (List.range 6).all (partMeets t d) && regMeets s (partData t d 4) &&
    profileValid (regProfile (partData t d 4)) && imageMeets s (partData t d 3)

/-- Parts of a set as stored. -/
def setPart (set : Octets) (i : Nat) : Octets := partData ((set.drop 180).take 288) (set.drop 468) i

/-! ### The session (R525 to R530) -/

/-- A session ends: it is free at once and the staging record goes (R530). -/
def closeSession (s : State) : State :=
  { s with flashA := { s.flashA with staged := none },
           update := { s.update with holder := none, header := [], table := [], next := 0 } }

/-- A session ends without staging, with EV_UPDATE_ABANDONED (R530). -/
def abandon (s : State) : State :=
  match s.update.holder with
  | some hc => raiseEv (closeSession s) 230 (at' 0 hc.val) (BitVec.ofNat 72 (hdrVersion s.update.header))
  | none => s

/-- Whether a context holds the session. -/
def holdsSession (s : State) (hc : Hc) : Bool := s.update.holder == some hc

/-- The holder word and the version of the session. -/
def sessionWords (s : State) : List Word :=
  [holderWord (s.update.holder.map .host), BitVec.ofNat 72 (hdrVersion s.update.header)]

/-- UPDATE_BEGIN (R525, R526). -/
def execUpdateBegin (dt : Nat) (hc : Hc) (s : State) : Host.Outcome State Fault Refusal :=
  command dt hc 0x700 4 2 s (fun p s =>
    let h := (unpackWords (p.payload.drop 1)).take 180
    let boot := (bootOf s.flashA).1
    if reservedSet (p.word 1) (bits 7 0) then .undef 8
    else if (par s 0x7800).testBit hc.val = false then .done s stUpdateSource []
    else if s.update.holder.isSome then .done s stUpdateBusy (sessionWords s)
    else if boot.state = 3 then .done s stUpdateProbation []
    else if fld (p.word 1) 7 0 ≠ 180 ∨ p.payload.length ≠ 21 ∨ headerForm h = false then .done s stUpdateFormat []
    else match headerRefusal s h with
      | some st => .done s st []
      | none =>
        let f := if boot.state = 2 then writeBoot s.flashA { boot with state := 1 } else s.flashA
        let s := { s with flashA := { f with staged := none, data := [] },
                          update := { s.update with holder := some hc, header := h, table := [], next := 0, since := s.now } }
        .done s stOk (sessionWords s))

/-- UPDATE_DATA (R527, R528): judged at the end of its work. -/
def execUpdateData (dt : Nat) (hc : Hc) (s : State) : Host.Outcome State Fault Refusal :=
  command dt hc 0x701 2 1 s (fun p s =>
    let w := p.word 1
    let n := fld w 43 32
    if reservedSet w (bits 43 0) then .undef 8
    else if n = 0 ∨ 2295 < n then .undef 7
    else if p.payload.length < 1 + (n + 8) / 9 then .done s stLength []
    else if holdsSession s hc = false then .done s stNotOwner []
    else .work { s with update := { s.update with since := s.now } } .updateData)

/-- UPDATE_END (R527, R529): carried out at the end of its work. -/
def execUpdateEnd (dt : Nat) (hc : Hc) (s : State) : Host.Outcome State Fault Refusal :=
  command dt hc 0x702 1 1 s (fun p s =>
    if reservedSet (p.word 1) (bits 0 0) then .undef 8
    else if holdsSession s hc = false then .done s stNotOwner []
    else .work { s with update := { s.update with since := s.now } } .updateEnd)

/-- UPDATE_ABORT (R527, R530). -/
def execUpdateAbort (dt : Nat) (hc : Hc) (s : State) : Host.Outcome State Fault Refusal :=
  command dt hc 0x704 0 0 s (fun _ s =>
    if holdsSession s hc = false then .done s stNotOwner [] else .done (closeSession s) stOk [])

/-- The first failure among what the stream has brought, X having gone from `x` to `y` (R528). -/
def streamFailure (s : State) (x y : Nat) : Option Status :=
  let h := s.update.header
  let t := s.update.table
  let d := s.flashA.data
  if x < 288 ∧ 288 ≤ y ∧ tableMeets h t = false then some stUpdateManifest
  else
    let ends := (List.range 6).filter (fun i =>
      let e := 288 + partOffset t i + partSize t i
      decide (288 ≤ y ∧ x < e ∧ e ≤ y))
    ends.findSome? (fun i =>
      if partMeets t d i = false then some stUpdateDigest
      else if i = 4 ∧ regMeets s (partData t d 4) = false then some stUpdateRegAuth
      else none)

/-- UPDATE_DATA's work (R528); `flashOk` tells that flash programs and reads back. -/
def updateDataWork (s : State) (hc : Hc) (ws : List Word) (flashOk : Bool) : State × Status × List Word :=
  let w := ws.getD 0 0
  let off := fld w 31 0
  let n := fld w 43 32
  let x := s.update.next
  let new := (unpackWords (ws.drop 1)).take n
  if holdsSession s hc = false then (s, stNotOwner, [])
  else if 288 + hdrTotal s.update.header < off + n then (s, stUpdateSequence, [BitVec.ofNat 72 x])
  else if off = x then
    let table := s.update.table ++ new.take (288 - x)
    let data := s.flashA.data ++ new.drop (288 - x)
    let y := x + n
    let s' := { s with update := { s.update with table := table, next := y }, flashA := { s.flashA with data := data } }
    if 288 < y ∧ flashOk = false then (abandon s', stFlashError, [BitVec.ofNat 72 y])
    else match streamFailure s' x y with
      | some st => (abandon s', st, [BitVec.ofNat 72 y])
      | none => (s', stOk, [BitVec.ofNat 72 y])
  else if off + n ≤ x then (s, stOk, [BitVec.ofNat 72 x])
  else (s, stUpdateSequence, [BitVec.ofNat 72 x])

/-- UPDATE_END's work (R529). -/
def updateEndWork (s : State) (hc : Hc) (ws : List Word) (flashOk : Bool) : State × Status × List Word :=
  let u := s.update
  let v := hdrVersion u.header
  if holdsSession s hc = false then (s, stNotOwner, [])
  else if u.next < 288 + hdrTotal u.header then (s, stUpdateIncomplete, [])
  else if setVerifies s (u.header ++ u.table ++ s.flashA.data) = false then (abandon s, stUpdateVerify, [BitVec.ofNat 72 v])
  else if flashOk = false then (abandon s, stFlashError, [BitVec.ofNat 72 v])
  else
    let f := { s.flashA with staged := some (u.header ++ u.table) }
    let f := writeBoot f { (bootOf f).1 with state := 2 }
    let restart := if (ws.getD 0 0).getLsbD 0 then some (s.now + msC 10) else u.restartAt
    let s := { closeSession s with flashA := f }
    (raiseEv { s with update := { s.update with restartAt := restart } } 231 (BitVec.ofNat 72 v) 0, stOk, [BitVec.ofNat 72 v])

/-- UPDATE_SESSION_IDLE (R530). -/
def execUpdateSessionIdle (dt : Nat) (s : State) : Host.Outcome State Fault Refusal :=
  always dt s (fun s =>
    if serving s && s.update.holder.isSome && due s (s.update.since + secC (par s 0x7000)) then abandon s else s)

/-! ### Probation and confirmation (R533, R534) -/

/-- The set that ACTIVE names. -/
def activeSet (s : State) : Octets := setRegion s.flashA (bootOf s.flashA).1.active

/-- Whether the running set is the confirmed one: the active set of FLASH_A, or of the mirror it was taken from. DEDUCED: where R85 fell
back past an active set that does not verify, R534 has nothing of it to complete (log 236). -/
def runsActive (s : State) : Bool :=
  s.update.running == activeSet s ||
    (s.start.flashBUsed && s.update.running == setRegion s.flashB (bootOf s.flashB).1.active)

/-- EV_PROBATION_EXPIRED (R533). -/
def execEvProbationExpired (dt : Nat) (s : State) : Host.Outcome State Fault Refusal :=
  live dt s (fun s =>
    let b := (bootOf s.flashA).1
    if b.state = 3 ∧ s.update.expired.isNone ∧ secC b.prob ≤ s.update.probation + (s.now - s.update.readyAt) then
      raiseEv { s with update := { s.update with expired := some (s.now + msC 100) } } 233 (BitVec.ofNat 72 (hdrVersion s.update.running)) 0
    else s)

/-- UPDATE_CONFIRM (R534): its first step; the others follow. -/
def execUpdateConfirm (dt : Nat) (hc : Hc) (s : State) : Host.Outcome State Fault Refusal :=
  command dt hc 0x703 0 0 s (fun _ s =>
    let b := (bootOf s.flashA).1
    if b.state ≠ 3 then .done s stUpdateNotProbation []
    else
      .done { s with flashA := writeBoot s.flashA { b with state := 1 },
                     update := { s.update with confirming := true, expired := none } } stOk [])

/-- Sets a run of fuses. -/
def programFuses (s : State) (lo n : Nat) : State :=
  { s with otp := (List.range n).foldl (fun v i => v ||| (1#16384 <<< (lo + i))) s.otp }

/-- Programs the revocation bits of a directive (R534 step 4). -/
def programRevoke (s : State) (revoke : Nat) : State :=
  let set (s : State) (e : Nat × Nat) : State := if revoke.testBit e.1 then programFuses s e.2 1 else s
  [(0, 1440), (1, 1441), (2, 1442), (3, 1443), (4, 1956), (5, 1957)].foldl set s

/-- Copies the active set of FLASH_A, where it runs, to the mirror, where it is enabled and does not hold it (R534 step 5). -/
def mirrorSet (s : State) : State :=
  let b := (bootOf s.flashB).1
  let set := activeSet s
  if !(parB s 0x7801 && s.start.flashBOk && s.update.running == set) || setRegion s.flashB b.active == set then s
  else
    let other := 1 - min 1 b.active
    let f := putRegion s.flashB other set
    { s with flashB := writeBoot f { b with active := other, previous := if (setRegion s.flashB b.active).isEmpty then 255 else b.active,
                                            state := 1, digest := (sha256 (set.take 180)).toNat } }

/-- CONFIRM_FOLLOW_UP (R534, R536): steps 2 to 5. -/
def execConfirmFollowUp (dt : Nat) (s : State) : Host.Outcome State Fault Refusal :=
  live dt s (fun s =>
    if s.update.confirming = false then s
    else if runsActive s = false then { s with update := { s.update with confirming := false } }
    else
      let set := s.update.running
      let fmt := hdrFormat set
      let s := { s with flashA := { s.flashA with settings := s.flashA.settings.filter (fun e => e.2.format == fmt) },
                        update := { s.update with confirming := false } }
      let s := programFuses s 1974 (min 128 (hdrSvn set))
      let s := programFuses s 2102 (min 64 (beField (setPart set 4) 2 1))
      mirrorSet (programRevoke s (beField set 3 1)))

/-! ### Settings (R151, R535, R536) -/

/-- The entries of a record: every parameter whose stored value is not its default. -/
def settingsEntries (s : State) : List (Nat × BitVec 64) :=
  s.params.filter (fun e => (paramRow e.1).isSome && e.2 != paramDefault s e.1)

/-- The newest record of a test, with its slot. -/
def newestSettings (f : Flash) (p : Settings → Bool) : Option (Nat × Settings) :=
  (f.settings.filter (fun e => p e.2)).foldl (fun r e => match r with
    | none => some e
    | some b => if b.2.seq < e.2.seq then some e else some b) none

/-- The slot that the next record of a format takes: the older of its two, else one that no format's newest record holds
(the spec names the two slots of a format without saying how; log 45). -/
def settingsSlot (f : Flash) (fmt : Nat) : Nat :=
  let mine := f.settings.filter (fun e => e.2.format == fmt)
  let other := newestSettings f (fun r => r.format != fmt)
  match mine with
  | a :: b :: _ => if a.2.seq < b.2.seq then a.1 else b.1
  | _ =>
    let taken (k : Nat) : Bool := mine.any (fun e => e.1 == k) || (other.map (·.1)) == some k
    match [0, 1, 2, 3].find? (fun k => (tblGet f.settings k).isNone) with
    | some k => k
    | none => ([0, 1, 2, 3].find? (fun k => !taken k)).getD 0

/-- SETTINGS_WRITE (R151, R535): the stored values go to a slot of FLASH_A. -/
def execSettingsWrite (dt : Nat) (s : State) : Host.Outcome State Fault Refusal :=
  live dt s (fun s =>
    if s.update.dirty.isSome then
      let fmt := hdrFormat s.update.running
      let k := settingsSlot s.flashA fmt
      let seq := match newestSettings s.flashA (fun r => r.format == fmt) with | some r => r.2.seq + 1 | none => 1
      { s with flashA := { s.flashA with settings := tblPut s.flashA.settings k { format := fmt, seq := seq, entries := settingsEntries s } },
               update := { s.update with dirty := none } }
    else s)

/-- The values that a firmware start loads (R536). -/
def settingsToLoad (s : State) (fmt : Nat) : List (Nat × BitVec 64) :=
  match newestSettings s.flashA (fun r => r.format == fmt) with
  | some r => r.2.entries
  | none =>
    let older := (s.flashA.settings.filter (fun e => decide (e.2.format < fmt) && (Config.convertSettings e.2.format e.2.entries).isSome)).map
      (fun e => e.2.format)
    match newestSettings s.flashA (fun r => r.format == older.foldl max 0) with
    | some r => (Config.convertSettings r.2.format r.2.entries).getD []
    | none => []

/-! ### ATTEST (R481) -/

/-- The 145 octets of a signed response. -/
def attestBody (s : State) (challenge : Octets) : Octets :=
  let flags := s.tb.set.toNat + 2 * (fld s.otp 2322 2315 != 0).toNat + 4 * (s.start.boot == 1).toNat
  let state := (List.range 273).flatMap (recordState s)
  [1, BitVec.ofNat 8 flags] ++ beOctets 2 209 ++ beOctets 8 (devEui s) ++ beOctets 8 (fld s.otp 63 0) ++
    beOctets 1 (fld s.otp 2330 2323) ++ beOctets 1 (fwSvn s) ++ beOctets 1 (regSvn s) ++ beOctets 1 s.start.kind.toNat ++
    beOctets 4 0x197403AB ++ versionOctets (hdrVersion s.update.running) ++ versionOctets (profileVersion s) ++
    beOctets 9 (if s.tb.set then (time s).toNat else 0) ++ challenge ++ beOctets 32 (sha256 s.update.running).toNat ++
    beOctets 32 (sha256 state).toNat ++ [0, 0]

/-- ATTEST's work (R481). -/
def attestWork (s : State) (ws : List Word) : State × Status × List Word :=
  let os := unpackWords (ws.take 4)
  let d := identityScalar (keySlot s 528).key
  let u := useSlot s 528
  if u.2 = false then (u.1, stPoisoned, [])
  else if beField os 32 1 = 1 then
    let flags := (attestBody s []).getD 1 0
    let r : Octets := [2, flags] ++ beOctets 2 76 ++ beOctets 8 (devEui s) ++ (p256Public d).take 64
    (u.1, stOk, packWords 24 (r ++ List.replicate (216 - r.length) 0))
  else if s.anvil.entropy = false then (u.1, stEntropy, [])
  else
    let k := drbgScalar u.1
    let body := attestBody s (os.take 32)
    let r := body ++ (ecdsaSign d (sha256 body) k.2).take 64
    (k.1, stOk, packWords 24 (r ++ List.replicate (216 - r.length) 0))

end Machine

end Sys2Proof
end

