-- ==== Sys2Proof/Machine/Reset.lean ====
section
/-!
DEFINITION. Resets and restarts (R43, R44, R49, R62, R70, R74 to R80, R87, R173), link loss and the host context reset (R104,
R108, R133), and the commands that ask for them.
-/

namespace Sys2Proof.Machine

/-! ### Cold reset (R75) -/

/-- What a cold reset leaves: fuses, NVS and flash, and the TAP. Everything else stands at its value after reset, every pin in its
reset state and the PA biases and FEM lines off (R37, R75); the SRAMs' valid bits are cleared at step 3 of the start (R81). -/
def coldState (s : State) (kind : BitVec 4) (detail : BitVec 12) : State :=
  { now := s.now, freeCtr := s.freeCtr, out := s.out, otp := s.otp, repairs := s.repairs, tap := s.tap,
    temp := { peak := s.temp.peak },
    pins := { gpioIn := s.pins.gpioIn, refclk := s.pins.refclk },
    mem := s.mem, anvil := { store := s.anvil.store }, quench := { region := s.quench.region },
    flashA := s.flashA, flashB := s.flashB, jobId := s.jobId, engEpoch := s.engEpoch.map (fun e => (e.1, e.2 + 1)),
    pending := s.pending,
    start := { kind := kind, kindDetail := detail, starts := s.start.starts, bites := s.start.bites, railsAt := s.start.railsAt } }

/-- A cold reset, where the device can take one: the start-failure state is left only by RST_N and power-on (R88). -/
def coldReset (s : State) (kind : BitVec 4) (detail : BitVec 12) : State :=
  if s.start.phase = .failure then s else coldState s kind detail

/-- A repair record that a power failure cuts short fails its CRC (R188). -/
def cutRecord (s : State) : State :=
  if s.now < s.scrub.recordTill then { s with repairs := s.repairs.dropLast ++ [(s.repairs.getLastD 0) ^^^ (1#64 <<< 32)] } else s

/-- What a power failure leaves of the write of a key-store slot (R468, R471): stage 0 is before step 3, 1 during it, 2 during step 4
and 3 after MARK is complete; of a REVOKE program 0 is none of it, 3 all of it, and 1 or 2 a part. -/
def cutSlot (old new : Octets) (stage : Nat) : Octets :=
  if stage = 0 then old
  else if stage = 3 then new
  else if old.take 120 = new.take 120 then old.take 120 ++ 0 :: List.replicate 7 0xFF
  else if stage = 1 then List.replicate 128 0xFF
  else new.take 112 ++ List.replicate 16 0xFF

/-- Brings the slots of a list to what a power failure leaves of their writes: `cut` / 4 of them are complete, and the next stands at
stage `cut` % 4. -/
def cutSlots (m : SMap Octets) (cut : Nat) : List (Nat × Octets) → SMap Octets
  | [] => m
  | (k, new) :: rest =>
    if 4 ≤ cut then cutSlots (tblPut m k new) (cut - 4) rest
    else tblPut m k (cutSlot (tblAt m k (List.replicate 128 0xFF)) new cut)

/-- The key store after a power failure (R51, R471): a KEY_UPDATE in hand or a REVOKE program may stand at any point of its write. -/
def cutKeys (s : State) (cut : Nat) : State :=
  let m := s.anvil.store
  let put (m : SMap Octets) : State := { s with anvil := { s.anvil with store := m } }
  match (keyInWork s).filter (fun r => r.work == .keyUpdate), s.anvil.revoking with
  | some r, _ =>
    let new := (judgeMessage true s (updateMessage r.payload)).s.anvil.store
    put (cutSlots m cut (new.reverse.filter (fun e => tblGet m e.1 != some e.2)))
  | none, some (k, till) =>
    let now := tblAt m k []
    if s.now < till then put (tblPut m k (cutSlot (now.take 120 ++ List.replicate 8 0xFF) now (cut % 4))) else s
  | none, none => s

/-- POWER_ON_RESET (R49, R51, R74, R95): starts and watchdog bites count anew, the TAP is reset and the SRAMs lose their words; the device is
held until the rails have been above their release levels for 1 ms. `cut` says how far a key-store write in progress had come. -/
def execPowerOnReset (dt : Nat) (cut : Nat) (s : State) : Host.Outcome State Fault Refusal :=
  always dt s (fun s =>
    let t := coldState (cutKeys (cutRecord s) cut) 0 0
    { t with tap := {}, mem := [], temp := {}, start := { t.start with starts := 0, bites := [], railsAt := s.now } })

/-- RST_N_RESET (R56, R74, R88). A thermal trip holds the device until the reading has fallen (R62). -/
def execRstNReset (dt : Nat) (s : State) : Host.Outcome State Fault Refusal :=
  always dt s (fun s => if s.start.phase = .tripped then s else coldState s 1 0)

/-- Adds one to the starts since power-on, saturating (R95). -/
def sat16 (v : BitVec 16) : BitVec 16 := if v = BitVec.allOnes 16 then v else v + 1

/-- The straps are sampled and the start begins with the qualification of REF_IN; the PCIe endpoints that they enable leave electrical
idle for link training (R41 to R43, R81). -/
def beginStart (s : State) (gpio : BitVec 32) : State :=
  { s with pins := { s.pins with gpioIn := gpio, pcieIdle := ~~~(BitVec.ofNat 2 (fld gpio 4 3)) },
           start := { s.start with phase := .starting, stage := .refQual, stageAt := s.now, since := s.now,
                                   straps := gpio.setWidth 8, starts := sat16 s.start.starts } }

/-- Whether a TAP instruction gives the pins to the boundary-scan cells: EXTEST, CLAMP or HIGHZ (R44, R45). -/
def tapHolds (ir : BitVec 5) : Bool := ir == 0 || ir == 4 || ir == 5

/-- Whether a TAP instruction is IDCODE or selects BYPASS (R45). -/
def tapReleases (s : State) (ir : BitVec 5) : Bool :=
  !tapHolds ir && ir != 2 && (ir != 0x10 || fld s.otp 2322 2315 != 0)

/-- The end of a reset with the TAP's instruction and the levels at the GPIO balls (R43, R44, R76). -/
def releaseReset (s : State) (ir : BitVec 5) (gpio : BitVec 32) : State :=
  let s := { s with tap := { s.tap with ir := ir } }
  if tapHolds ir then { s with start := { s.start with phase := .tapHeld } } else beginStart s gpio

/-- Whether all five monitored rails have been above their release levels for 1 ms, `rails` being the cycles for which they have
(R49). -/
def railsGood (s : State) (rails : Nat) : Bool := decide (msC 1 ≤ rails) && due s (s.start.railsAt + rails)

/-- RESET_RELEASE (R43, R44, R49, R76): RST_N rises, `rails` cycles after the last rail rose above its release level, with the TAP's
instruction, the boundary-scan register and the levels at the GPIO balls. -/
def execResetRelease (dt : Nat) (ir : BitVec 5) (cells : BitVec 159) (gpio : BitVec 32) (rails : Nat) (s : State) :
    Host.Outcome State Fault Refusal :=
  always dt s (fun s =>
    if s.start.phase = .held ∧ railsGood s rails = true then
      releaseReset { s with tap := { s.tap with cells := cells } } ir gpio
    else s)

/-- TAP_RESET_HOLD_RELEASE (R44). -/
def execTapResetHoldRelease (dt : Nat) (ir : BitVec 5) (gpio : BitVec 32) (s : State) :
    Host.Outcome State Fault Refusal :=
  always dt s (fun s =>
    if s.start.phase = .tapHeld ∧ tapReleases s ir then beginStart { s with tap := { s.tap with ir := ir } } gpio else s)

/-- Whether the device is out of reset and has not failed its start. -/
def outOfReset (s : State) : Bool :=
  match s.start.phase with
  | .starting | .ready | .recovery => true
  | _ => false

/-- THERMAL_TRIP (R62, R74, R95): the reading has stayed at 120 °C or above for 1 ms. DESIGN CHOICE: R62 does not say whether a device
that RST_N or the TAP already holds in reset trips; the model takes no trip then, and counts the 1 ms from the reset (log 211). -/
def execThermalTrip (dt : Nat) (s : State) : Host.Outcome State Fault Refusal :=
  always dt s (fun s =>
    match s.temp.hotFrom with
    | some t =>
      if outOfReset s && due s (t + msC 1) then
        let c := coldState s 2 0
        { c with start := { c.start with phase := .tripped } }
      else s
    | none => s)

/-- THERMAL_TRIP_RELEASE (R62, R76, R95): the reading falls below 100 °C; the record's detail is the peak in whole °C. -/
def execThermalTripRelease (dt : Nat) (t0 t1 t2 t3 : BitVec 12) (gpio : BitVec 32) (s : State) :
    Host.Outcome State Fault Refusal :=
  always dt s (fun s =>
    let s := trackHot (setTemps s t0 t1 t2 t3)
    if s.start.phase = .tripped ∧ (tempMax s).1.toInt < 1600 then
      releaseReset { s with start := { s.start with phase := .held,
                                                    kindDetail := BitVec.ofInt 12 (s.temp.peak.toInt / 16) } } s.tap.ir gpio
    else s)

/-- CLOCK_FAULT (R70, R74). -/
def execClockFault (dt : Nat) (s : State) : Host.Outcome State Fault Refusal :=
  always dt s (fun s => if outOfReset s && s.clk.sysPll then coldReset s 3 0 else s)

/-- The start-failure state: every engine halted, PAs off and FEM lines low (R88). -/
def failStart (s : State) (code : BitVec 8) (detail : Nat) : State :=
  { s with start := { s.start with phase := .failure, failCode := code, detail := BitVec.ofNat 29 detail },
           wd := {}, chains := [], halted := (List.range 29).map (fun n => (n, true)) }

/-- START_TIMEOUT (R87, R89): 5 s for a cold start, 1 s for a warm start. -/
def execStartTimeout (dt : Nat) (s : State) : Host.Outcome State Fault Refusal :=
  always dt s (fun s =>
    if s.start.phase = .starting ∧ due s (s.start.since + secC (if s.start.warm then 1 else 5)) then
      if s.start.kind = 4 then failStart s 7 (startStep s) else coldReset s 4 (BitVec.ofNat 12 (startStep s))
    else s)

/-- REF_ABSENT_TIMEOUT (R89). -/
def execRefAbsentTimeout (dt : Nat) (s : State) : Host.Outcome State Fault Refusal :=
  always dt s (fun s =>
    if s.start.phase = .starting ∧ s.start.warm = false ∧ s.start.stage = .refQual ∧ due s (s.start.since + msC 100) then
      failStart s 1 s.clk.glitch.toNat
    else s)

/-- SYSPLL_NOLOCK_TIMEOUT (R89). -/
def execSyspllNolockTimeout (dt : Nat) (s : State) : Host.Outcome State Fault Refusal :=
  always dt s (fun s =>
    if s.start.phase = .starting ∧ s.start.stage = .pllLock ∧ due s (s.start.stageAt + msC 1) then failStart s 2 0 else s)

/-- ACTIVATION_RESTART (R529). -/
def execActivationRestart (dt : Nat) (s : State) : Host.Outcome State Fault Refusal :=
  always dt s (fun s =>
    match s.update.restartAt with
    | some t => if outOfReset s && due s t then coldReset s 5 0 else s
    | none => s)

/-- PROBATION_COLD_RESTART (R533). -/
def execProbationColdRestart (dt : Nat) (s : State) : Host.Outcome State Fault Refusal :=
  always dt s (fun s =>
    match s.update.expired with
    | some t => if outOfReset s && due s t then coldReset s 5 0 else s
    | none => s)

/-! ### Warm restart (R18, R75, R137, R442, R572) -/

/-- The record of a command whose item had begun transmitting reports AIR (R136). -/
def noteAir (s : State) (hc : Hc) (job : Nat) : State :=
  let c := ctx s hc
  setCtx s hc { c with journal := c.journal.map (fun r => if r.id = job then { r with air := true } else r) }

/-- Whether an item's transmission had begun. -/
def begunTx (i : Item) : Bool := i.aired || i.st == .onAir || i.st == .awaitAck

/-- What a warm restart makes of one item (R366, R442, R572). -/
def restartItem (s : State) (i : Item) : State :=
  let drop (s : State) : State := setItems s (fun is => is.filter (fun x => x.id != i.id))
  let again (s : State) (i : Item) : State :=
    let i := { i with chain := none }
    if i.st = .eligible then setItem s { i with st := .queued }
    else if i.st = .queued ∨ i.st = .held then setItem s i
    else if i.retries = 0 then endItem s i stRestarted 0
    else requeue s i
  match i.src with
  | .host hc job _ => drop (if begunTx i then noteAir s hc job else s)
  | .flow f p inject =>
    let s := match inject with
      | some (hc, job) => if begunTx i then noteAir s hc job else s
      | none => s
    again s { i with src := .flow f p none }
  | .mirror => again s i
  | _ => drop s

/-- A chain's transmission ends with the restart, and a calibration in progress leaves its entry VALID or INCOMPLETE (R227,
R236, R248). -/
def restartChain (s : State) (c : Nat) : State :=
  let s := accountAir s c none
  let x := chainSt s c
  let s := if x.st = .cal ∧ calState s c x.calPoint ≠ 1 then markCal s c x.calPoint 2 true else s
  let y : ChainSt := { backoff := x.backoff, low := x.low, good := x.good, aborts := x.aborts, halted := x.halted, airRest := x.airRest }
  { s with chains := tblPut s.chains c y }

/-- A forwarding pipeline: tables, queues and a rehash are kept; reassembly and learning in progress are not (R393, R406). -/
def restartFwd (f : Fwd) : Fwd :=
  let injected (d : Down) : Bool := match d.src with | .inject _ _ _ _ => true | _ => false
  { f with reasm := [], learnQ := [], down := f.down.filter (fun d => !injected d) }

/-- A context: its transaction and posted buffers go, its rings and journal stay (R75, R131, R572). -/
def restartCtx (c : Ctx) : Ctx := { c with txn := none, bufs := [], injects := [] }

/-- Pins that a countdown timer drives return to their state of R37 (R161). -/
def restartPins (s : State) : State :=
  let timed (n : Nat) : Bool := match tblAt s.pins.fn n .gpio with | .timer _ => true | _ => false
  { s with timers := [], pins := { s.pins with level := s.pins.level.filter (fun e => !timed e.1) } }

/-- The update session ends without staging, to be reported after firmware start; probation time so far counts (R530, R533). -/
def restartUpdate (s : State) : State :=
  let u := s.update
  let gone := u.holder.map (fun hc => (hc, hdrVersion u.header))
  let ran := if running s then s.now - u.readyAt else 0
  let s := if u.holder.isSome then closeSession s else s
  { s with update := { s.update with abandoned := if gone.isSome then gone else u.abandoned, probation := u.probation + ran } }

/-- A warm restart: engines, engine local state, reception, chains, countdown timers and the blocks' work in progress end; SHM,
TBM, tables, flows, parameters, ownership, time and the error log are kept (R18, R75, R191, R202, R210, R292). -/
def warmRestart (s : State) (kind : BitVec 4) : State :=
  let s := (List.range 12).foldl restartChain s
  let s := trackBlank s
  let s := s.mac.items.foldl restartItem { s with injections := [], calRuns := [], tunes := [], calTail := [] }
  let s := restartUpdate (restartPins s)
  let s := [0, 1, 2].foldl (fun s f => bumpBy s (0x11C + f) (stallNs s f)) s
  { s with
    engines := [], halted := [], engRegs := [], engEpoch := s.engEpoch.map (fun e => (e.1, e.2 + 1)),
    arbs := s.arbs.map (fun e => (e.1, { holdMax := e.2.holdMax, qfullAt := e.2.qfullAt })),
    rx := {}, fifos := [], wd := {}, scrub := { spares := s.scrub.spares, recordTill := s.scrub.recordTill },
    mac := { s.mac with groups := [] },
    fwds := s.fwds.map (fun e => (e.1, restartFwd e.2)),
    ctxs := s.ctxs.map (fun e => (e.1, restartCtx e.2)),
    ptp := s.ptp.map (fun e => (e.1, { e.2 with inbox := [] })),
    pair := { s.pair with proposal := none },
    start := { s.start with phase := .starting, stage := .fuse, stageAt := s.now, since := s.now, warm := true, kind := kind,
                            kindDetail := 0, starts := sat16 s.start.starts,
                            warmCount := if s.start.warmCount = 255 then 255 else s.start.warmCount + 1,
                            restartTime := time s, failCode := 0, detail := 0 } }

/-- WATCHDOG_BITE (R78, R79). -/
def execWatchdogBite (dt : Nat) (s : State) : Host.Outcome State Fault Refusal :=
  always dt s (fun s =>
    if s.wd.armed && due s (s.wd.since + msC 250) then
      let bites := s.now :: s.start.bites.filter (fun t => decide (s.now < t + secC 60))
      let s := { s with start := { s.start with bites := bites } }
      if 3 ≤ bites.length then coldReset s 6 0 else warmRestart s 8
    else s)

/-! ### Poison traps (R173) -/

/-- Consumer code of an engine's load (R171). -/
def loadCode (engine : Nat) : Nat := if engine < 2 then 0 else if engine < 18 then 1 else 2

/-- An entry of the trap record: address and time. -/
def trapEntry (s : State) (k : Nat) : Word × Word := (peek s (0x10 + 2 * k), peek s (0x11 + 2 * k))

/-- Whether the trap record names an address in an entry written within the last 60 s. -/
def trapRecent (s : State) (addr : Nat) : Bool :=
  [0, 1, 2, 3].any (fun k => physValid (memRaw s.mem (0x10 + 2 * k)) && (trapEntry s k).1 == BitVec.ofNat 72 addr &&
    decide ((time s - (trapEntry s k).2).toNat ≤ timeSec 60))

/-- The entry that the next trap takes: an unwritten one, else the oldest. -/
def trapOldest (s : State) : Nat :=
  match [0, 1, 2, 3].find? (fun k => !physValid (memRaw s.mem (0x10 + 2 * k))) with
  | some k => k
  | none => [1, 2, 3].foldl (fun m k => if (trapEntry s k).2.toNat < (trapEntry s m).2.toNat then k else m) 0

/-- POISON_TRAP (R173, R176): `engine` loads the word at `addr`. -/
def execPoisonTrap (dt : Nat) (engine : Fin 26) (addr : BitVec 23) (s : State) : Host.Outcome State Fault Refusal :=
  live dt s (fun s =>
    let e := engine.val
    let a := addr.toNat
    let met : Bool := match decodePhys (memRaw s.mem a) with
      | .poisoned => true
      | .bad => true
      | _ => false
    if !(met && engineRuns s e) then s
    else match regionOf a with
      | .reserved => s
      | .hist _ => bump s 0x105
      | _ =>
        let s := (readWord s a (loadCode e)).1
        let s := { s with engines := tblPut s.engines e { tblAt s.engines e {} with trapped := true } }
        if engineRuns s 0 || engineRuns s 1 then
          let again := trapRecent s a
          let k := trapOldest s
          let s := writeWords s (0x10 + 2 * k) [BitVec.ofNat 72 a, time s]
          if again then coldReset s 5 0 else warmRestart s 9
        else s)

/-! ### Link loss and the host context reset (R104, R108, R133) -/

/-- A host context reset. Cause: 0 HOST_RESET, 1 PCIe link down, 2 HSPI inactivity, 3 PERST_N (R133, R154, R530). -/
def contextReset (s : State) (hc : Hc) (cause : Nat) : State :=
  let s := setCtx s hc { ctx s hc with st := 2 }
  let s := raiseTo s allHc 2 (at' 0 hc.val ||| at' 2 cause) 0
  let s := breakLocks s hc (if cause = 0 then 2 else 1)
  let s := if holdsSession s hc then abandon s else s
  drainOn s hc

/-- Link loss of a context: nothing while it is DETACHED; during a warm start it is handled after firmware start (R104). -/
def linkLoss (s : State) (hc : Hc) (cause : Nat) : State :=
  if (ctx s hc).st = 0 then s
  else if serving s then contextReset s hc cause
  else setCtx s hc { ctx s hc with loss := some ((ctx s hc).loss.getD cause) }

/-- Link loss of the context that an attachment serves. -/
def attachmentLoss (s : State) (att : Att) (cause : Nat) : State :=
  match ctxOf s att with
  | some hc => linkLoss s hc cause
  | none => s

/-- PCIE_PERST (R80, R104). -/
def execPciePerst (dt : Nat) (e : Fin 2) (s : State) : Host.Outcome State Fault Refusal :=
  always dt s (fun s => attachmentLoss s (.pcie e) 3)

/-- PCIE_LINK_DOWN (R104). -/
def execPcieLinkDown (dt : Nat) (e : Fin 2) (s : State) : Host.Outcome State Fault Refusal :=
  always dt s (fun s => attachmentLoss s (.pcie e) 1)

/-- HSPI_INACTIVITY_TIMEOUT (R108): the timer of the command port has run for host.hspi.idle. -/
def execHspiInactivityTimeout (dt : Nat) (p : Fin 4) (s : State) : Host.Outcome State Fault Refusal :=
  always dt s (fun s =>
    match ctxOf s (.hspi p) with
    | none => s
    | some hc =>
      match (ctx s hc).hspiSince with
      | none => s
      | some t =>
        if !hspiDataPort s p && par s 0x24 != 0 && due s (t + msC (par s 0x24)) then
          linkLoss (setCtx s hc { ctx s hc with hspiSince := none }) hc 2
        else s)

/-- DEVICE_RESTART (R74, R122, R138): the warm form's completion is written after the restart, with its result. -/
def execDeviceRestart (dt : Nat) (hc : Hc) (s : State) : Host.Outcome State Fault Refusal :=
  command dt hc 0x002 1 0 s (fun p s =>
    if reservedSet (p.word 1) (bits 0 0) then .undef 8
    else if (p.word 1).getLsbD 0 then .silent (coldReset s 5 0)
    else
      .silent (warmRestart (finishJob (record s hc
        { id := p.id, tag := BitVec.ofNat 16 (fld p.hdr 27 12), opcode := 0x002, room := 1, notify := p.hdr.getLsbD 40 })
          hc p.id stOk [] false) 9))

/-- HOST_RESET (R122, R133): the completion is written before the reset. -/
def execHostReset (dt : Nat) (hc : Hc) (s : State) : Host.Outcome State Fault Refusal :=
  command dt hc 0x003 0 0 s (fun p s =>
    .silent (contextReset (completeAs s hc 0x003 p.hdr stOk []) hc 0))

end Sys2Proof.Machine
end

