-- ==== Sys2Proof/Machine/Values.lean ====
section
/-!
DEFINITION. Writing parameters, one by one and in transactions, with the features that a parameter enables (R129 to R132, R147,
R148, R162); and the reading of counters (R195).
-/

namespace Sys2Proof.Machine

/-! ### Storing (R132, R149, R162) -/

/-- The GPIO that feature 0x02 holds. -/
def rolePin (s : State) : Option Nat := (s.pins.fn.find? (fun e => e.2 == .pairRole)).map (·.1)

/-- Feature 0x02 holds the GPIO that pair.role.gpio names, and drives it (R162, R555). -/
def trackRolePin (s : State) : State :=
  let g := par s 0x9006
  let want := if g < 32 then some g else none
  let s := match rolePin s with
    | some old => if want = some old then s else releasePin { s with owners := tblErase s.owners (resKey 5 old) } old
    | none => s
  match want with
  | some n =>
    driveRole { s with owners := tblPut s.owners (resKey 5 n) (.feature 2), pins := { s.pins with fn := tblPut s.pins.fn n .pairRole } }
  | none => s

/-- Stores values at one instant, with the features they enable or disable. -/
def storeValues (s : State) (vs : List (Nat × BitVec 64)) : State :=
  trackRolePin (trackPtp (trackPpsOut (storeAll s vs)))

/-- Whether a pair is stored at all: an unassigned or read-only ID is ignored (R147). -/
def writable (id : Nat) : Bool := match paramRow id with | some r => r.apply != .readOnly | none => false

/-! ### Refusals (R97, R129, R148, R162) -/

/-- Whether two bindings name a common attachment (R97). -/
def bindsClash (a b : Nat) : Bool :=
  ([Att.pcie 0, .pcie 1, .hspi 0, .hspi 1, .hspi 2, .hspi 3] : List Att).any (fun x => bindNames a x && bindNames b x)

/-- The other context that holds an attachment of a binding, by its binding in force or its stored one (R97). -/
def bindHolder (s : State) (hc : Hc) (code : Nat) : Option Hc :=
  allHc.find? (fun o => o != hc && (bindsClash code (ctx s o).bind || bindsClash code (parStored s (0x20 + o.val)).toNat))

/-- The holder of a resource that a pair needs and cannot have. -/
def pairHolder (s : State) (e : Nat × BitVec 64) : Option Holder :=
  let v := e.2.toNat
  if 0x20 ≤ e.1 ∧ e.1 ≤ 0x23 then (bindHolder s (Fin.ofNat 4 (e.1 - 0x20)) v).map .host
  else if e.1 = 0x6800 ∧ v ≠ 0 then (tblGet s.owners (resKey 4 15)).filter (· != .feature 1)
  else if e.1 = 0x9006 ∧ v < 32 then (tblGet s.owners (resKey 5 v)).filter (· != .feature 2)
  else none

/-- The first pair that needs a held resource, each judged with the pairs before it stored. -/
def firstHeld : Nat → List (Nat × BitVec 64) → State → Option (Nat × Holder)
  | _, [], _ => none
  | i, e :: es, s =>
    if writable e.1 then
      match pairHolder s e with
      | some h => some (i, h)
      | none => firstHeld (i + 1) es (storeValues s [e])
    else firstHeld (i + 1) es s

/-- The first pair whose group another context holds (R129). -/
def firstLocked (s : State) (hc : Hc) (vs : List (Nat × BitVec 64)) : Option (Nat × Hc) :=
  (List.range vs.length).findSome? (fun i =>
    let id := (vs.getD i (0, 0)).1
    if writable id then (lockedBy s hc (groupOf id)).map (fun o => (i, o)) else none)

/-- The result word of a refusal (R148). -/
def refusalWord (i : Nat) (h : Holder) : Word := holderWord (some h) ||| at' 24 (i % 256)

/-- Whether every value lies in its range once all are stored (R569 action 6). -/
def valuesInRange (s : State) (vs : List (Nat × BitVec 64)) : Bool :=
  let t := vs.foldl (fun s e => storeOne s e.1 e.2) s
  vs.all (fun e => !writable e.1 || paramInRange t e.1 e.2)

/-- Renews the leases of the groups whose parameters a command names; an unassigned ID names none (R128, R147). -/
def renewNamed (hc : Hc) (s : State) (vs : List (Nat × BitVec 64)) : State :=
  (vs.filter (fun e => (paramRow e.1).isSome)).foldl (fun s e => renew hc s (groupOf e.1)) s

/-- Judges and stores the values of a PARAM_SET or TXN_COMMIT (R129, R132, R148). -/
def writeValues (s : State) (hc : Hc) (vs : List (Nat × BitVec 64)) (close : State → State) : CmdOut :=
  match firstLocked s hc vs with
  | some (i, o) => .done s stLocked [refusalWord i (.host o)]
  | none =>
    if valuesInRange s vs = false then .undef 6
    else match firstHeld 0 vs s with
      | some (i, h) => .done s stResourceHeld [refusalWord i h]
      | none => .done (renewNamed hc (close (storeValues s (vs.filter (fun e => writable e.1)))) vs) stOk []

/-- ID and value words in pairs; an unpaired word is ignored (R120). -/
def pairsOf : List Word → List (Nat × BitVec 64)
  | a :: b :: ws => (fld a 15 0, b.setWidth 64) :: pairsOf ws
  | _ => []

/-- Whether a reserved bit of a pair is set. -/
def pairsReserved : List Word → Bool
  | a :: b :: ws => reservedSet a (bits 15 0) || reservedSet b (bits 63 0) || pairsReserved ws
  | _ => false

/-- Stages a value; a parameter staged twice keeps its place and the later value (R131). -/
def stage (t : List (Nat × BitVec 64)) (e : Nat × BitVec 64) : List (Nat × BitVec 64) :=
  if t.any (fun x => x.1 == e.1) then t.map (fun x => if x.1 = e.1 then e else x) else t ++ [e]

/-- PARAM_SET (R129, R131, R147, R148). -/
def execParamSet (dt : Nat) (hc : Hc) (s : State) : Host.Outcome State Fault Refusal :=
  command dt hc 0x019 2 1 s (fun p s =>
    let vs := pairsOf p.payload
    if pairsReserved p.payload then .undef 8
    else if p.hdr.getLsbD 39 then
      match (ctx s hc).txn with
      | none => .done s stTxnNone []
      | some t =>
        let t := (vs.filter (fun e => writable e.1)).foldl stage t
        if 128 < t.length then .done s stTxnFull []
        else .done (renewNamed hc (setCtx s hc { ctx s hc with txn := some t }) vs) stOk []
    else writeValues s hc vs id)

/-- TXN_COMMIT (R131, R132, R148). -/
def execTxnCommit (dt : Nat) (hc : Hc) (s : State) : Host.Outcome State Fault Refusal :=
  command dt hc 0x01B 0 1 s (fun _ s =>
    match (ctx s hc).txn with
    | none => .done s stTxnNone []
    | some t => writeValues s hc t (fun s => setCtx s hc { ctx s hc with txn := none }))

/-! ### Counters and values (R195, R211, R259, R421, R447, R515, R518) -/

/-- A signed value as a 64-bit number. -/
def signed64 (i : Int) : Nat := (BitVec.ofInt 64 i).toNat

/-- TEU_STATE (R518). -/
def teuState (s : State) (x : Teu) : Nat :=
  if x.held then 3 else if !x.armed then 0 else if x.aligned && !sfRuns s x.sf then 2 else 1

/-- A word of a countdown timer (R515). -/
def timerValue (x : Timer) (k : Nat) : Nat :=
  if k = 0 then x.count.toNat else if k = 1 then x.buffer.toNat else if k = 2 then x.compare.toNat
  else if k = 3 then x.capRise.toNat else if k = 4 then x.capFall.toNat else if k = 5 then x.width.toNat
  else if k = 6 then
    x.run.toNat + 2 * x.late.toNat + 4 * x.matched.toNat + 8 * x.reloaded.toNat + 16 * x.capNew.toNat + 32 * x.capOverrun.toNat +
      64 * x.level.toNat
  else x.matches_

/-- A counter or value as COUNTER_READ finds it. -/
def counterValue (s : State) (id : Nat) : Nat :=
  let k := id % 64
  let pipe := (id - 0x1000) / 64
  if 0x300 ≤ id ∧ id < 0x500 then min (2 ^ 64 - 1) ((arbCounter s id).getD (counter s id))
  else if 0x11C ≤ id ∧ id ≤ 0x11E then min (2 ^ 64 - 1) (counter s id + stallNs s (id - 0x11C))
  else if 0x6D0 ≤ id ∧ id < 0x710 then
    let e := id - 0x6D0
    if s.quench.valid && decide (e < quenchEntries s.quench) then (binsSum s.quench e + reserved s.quench e) / 4096 else 0
  else if 0x1000 ≤ id ∧ id < 0x1080 ∧ 33 ≤ k ∧ k ≤ 35 then learnCount s pipe (k - 33)
  else if 0x1000 ≤ id ∧ id < 0x1080 ∧ k = 36 then (entriesOf s pipe).length
  else if 0x1000 ≤ id ∧ id < 0x1080 ∧ k = 37 then (fwd s pipe).overflow.length
  else if id = 0x1204 ∨ id = 0x1214 ∨ id = 0x1224 then vNow s ((id - 0x1204) / 16) / 256
  else if id = 0x1246 then poolFree s
  else if id = 0x1605 then s.tb.servo
  else if id = 0x1606 then signed64 s.tb.phase
  else if id = 0x1607 then signed64 s.tb.rate.toInt
  else if 0x1620 ≤ id ∧ id < 0x1660 ∧ (id - 0x1620) % 16 = 12 then signed64 ((ptp s ((id - 0x1620) / 16)).mean.getD 0)
  else if 0x1620 ≤ id ∧ id < 0x1660 ∧ (id - 0x1620) % 16 = 13 then (ptp s ((id - 0x1620) / 16)).st
  else if 0x1700 ≤ id ∧ id < 0x1800 then timerValue (timer s ((id - 0x1700) / 8)) (id % 8)
  else if 0x1800 ≤ id ∧ id < 0x1840 then
    let x := teu s ((id - 0x1800) / 4)
    if id % 4 = 0 then x.fires else if id % 4 = 1 then x.late
    else if id % 4 = 2 then (firingTime s x).getD 0 % 2 ^ 64 else teuState s x
  else counter s id

/-- What reading an RC counter clears. -/
def clearCounter (s : State) (id : Nat) : State :=
  if (0x118 ≤ id ∧ id ≤ 0x11B) ∨ (0x400 ≤ id ∧ id < 0x500) then setCounter s id 0
  else if 0x340 ≤ id ∧ id < 0x374 then
    { s with arbs := tblPut s.arbs (id - 0x340) { tblAt s.arbs (id - 0x340) {} with holdMax := 0 } }
  else if 0x1700 ≤ id ∧ id < 0x1800 ∧ id % 8 = 6 then
    let n := (id - 0x1700) / 8
    setTimer s n { timer s n with late := false, matched := false, reloaded := false, capNew := false, capOverrun := false }
  else s

/-- Reads counters in order. -/
def readCounters : List Nat → State → State × List Word
  | [], s => (s, [])
  | id :: ids, s =>
    let v := counterValue s id
    let r := readCounters ids (clearCounter s id)
    (r.1, BitVec.ofNat 72 v :: r.2)

/-- COUNTER_READ (R195): up to 8 runs. -/
def execCounterRead (dt : Nat) (hc : Hc) (s : State) : Host.Outcome State Fault Refusal :=
  command dt hc 0x802 1 255 s (fun p s =>
    let ws := p.payload.take 8
    let runs := ws.map (fun w => (fld w 15 0, fld w 23 16))
    if ws.any (fun w => reservedSet w (bits 23 0)) then .undef 8
    else if runs.any (fun r => r.2 == 0) then .undef 7
    else
      let ids := runs.flatMap (fun r => (List.range r.2).map (fun i => r.1 + i))
      if 255 < ids.length then .done s stLength []
      else
        let r := readCounters ids s
        .done r.1 stOk r.2)

end Sys2Proof.Machine
end

