-- ==== Sys2Proof/Machine/Start.lean ====
section
/-!
DEFINITION. The Hearth start sequence (R15, R16, R81 to R96, R189, R531, R532), firmware start with the journal scan (R136), and
the end of a command's work.
-/

namespace Sys2Proof.Machine

/-! ### Step 1: fuses (R90 to R92, R452) -/

/-- Fuses in ascending order, the revocation bits taken as zero (R90, R91). -/
def groupBits (s : State) (lo hi : Nat) : List Bool :=
  (List.range (hi + 1 - lo)).map (fun i =>
    let n := lo + i
    if (1440 ≤ n ∧ n ≤ 1443) ∨ (1956 ≤ n ∧ n ≤ 1957) then false else s.otp.getLsbD n)

/-- Whether a group's check fails: its bits, and the position of its CRC. -/
def groupFails (s : State) (lo hi crc : Nat) : Bool := fld s.otp (crc + 15) crc != (crc16Bits (groupBits s lo hi)).toNat

/-- Failed groups, ID, AUTH, TRIM, CFG, REPAIR from bit 0 (R91, R95). -/
def failedGroups (s : State) : Nat :=
  (groupFails s 0 127 128).toNat + 2 * (groupFails s 416 1957 1958).toNat + 4 * (groupFails s 2166 2269 2270).toNat +
    8 * (groupFails s 2286 2330 2331).toNat + 16 * (groupFails s 2347 5418 5419).toNat

/-- The next stage begins. -/
def toStage (s : State) (g : Stage) : State := { s with start := { s.start with stage := g, stageAt := s.now } }

/-- Fuse load: the group checks, LIFECYCLE and the root key's check value (R91, R92, R452). -/
def fuseStep (s : State) : State :=
  let m := failedGroups s
  let s := { s with start := { s.start with fuseFail := BitVec.ofNat 5 m, defaultTrims := m.testBit 2, factoryIgnored := m.testBit 4 } }
  let life := fld s.otp 2330 2323
  if m.testBit 0 || m.testBit 1 || m.testBit 3 then failStart s 3 m
  else if life ≠ 0x0F then failStart s 4 life
  else if (kcvAes (rootKey s)).toNat ≠ fld s.otp 415 400 then failStart s 5 0
  else toStage s .memTest

/-! ### Step 2: sites and repair map (R15, R16, R94, R189) -/

/-- Failed sites, ascending: those that fail their test and those that SITE_DISABLE takes out (R15, R90). -/
def failedSites (s : State) (obs : StartObs) : List Nat :=
  (List.range 29).filter (fun n => obs.sitesFailed.contains n || s.otp.getLsbD (2286 + n))

/-- Places failed sites on the spares that pass (R15); none where they are beyond the spares (R16). -/
def mapSites (bad : List Nat) : Option (Nat × Nat × Nat) :=
  let ms := (bad.filter (fun n => decide (2 ≤ n ∧ n ≤ 17))).map (· - 2)
  let ds := (bad.filter (fun n => decide (20 ≤ n ∧ n ≤ 27))).map (· - 20)
  let spares := [18, 19].filter (fun n => !bad.contains n)
  let served (site : Nat) : Nat := match (spares.zip ms).find? (fun e => e.1 == site) with | some e => e.2 | none => 31
  if bad.contains 0 ∨ bad.contains 1 ∨ spares.length < ms.length then none
  else match ds with
    | [] => some (served 18, served 19, 15)
    | [d] => if bad.contains 28 then none else some (served 18, served 19, d)
    | _ => none

/-- Applies an entry of the repair map: the row moves to the spare, unless another row of the bank has it (R189). -/
def mapRow (m : SMap Nat) (bank row spare : Nat) : Option (SMap Nat) :=
  match tblGet m (8 * bank + spare) with
  | some r => if r = row then some m else none
  | none => some (tblPut (m.filter (fun e => !(e.1 / 8 == bank && e.2 == row))) (8 * bank + spare) row)

/-- Factory entry i as bank, row and spare, where it is enabled (R90). -/
def factoryEntry (s : State) (i : Nat) : Option (Nat × Nat × Nat) :=
  let e := fld s.otp (2347 + 24 * i + 23) (2347 + 24 * i)
  if e.testBit 0 then some (e / 65536 % 128, e / 16 % 4096, e / 2 % 8) else none

/-- Applies entries in order: the map and the number applied. -/
def mapRows (es : List (Nat × Nat × Nat)) (m : SMap Nat) : SMap Nat × Nat :=
  es.foldl (fun r e => match mapRow r.1 e.1 e.2.1 e.2.2 with | some m => (m, r.2 + 1) | none => r) (m, 0)

/-- Whether a row is mapped to a spare. -/
def rowMapped (s : State) (bank row : Nat) : Bool := s.scrub.spares.any (fun e => e.1 / 8 == bank && e.2 == row)

/-- A failing row that no entry covers takes a free spare and a new record; a bank without one is degraded (R94). -/
def repairRow (r : State × List Nat) (e : Nat × Nat) : State × List Nat :=
  let s := r.1
  if rowMapped s e.1 e.2 then r
  else match freeSpare s e.1 with
    | none => (s, if r.2.contains e.1 then r.2 else e.1 :: r.2)
    | some sp =>
      let s := { s with scrub := { s.scrub with spares := tblPut s.scrub.spares (8 * e.1 + sp) e.2 },
                        start := { s.start with newRows := s.start.newRows + 1 } }
      (if s.repairs.length < 256 then putRepair s (repairRecord 3 e.1 e.2 sp) else s, r.2)

/-- First word of a row of SHM or TBM (R183). -/
def rowBase (bank row : Nat) : Nat := if bank < 32 then 512 * row + 16 * bank else 0x200000 + 65536 * (bank - 32) + 16 * row

/-- In a warm start, a row of SHM or TBM that is newly mapped is copied, corrected, before the switch (R189). -/
def copyRows (old : SMap Nat) (s : State) : State :=
  (s.scrub.spares.filter (fun e => decide (e.1 / 8 < 48) && tblGet old e.1 != some e.2)).foldl (fun s e =>
    (List.range 16).foldl (fun s i => copyWord s (rowBase (e.1 / 8) e.2 + i)) s) s

/-- Memory test and repair; a warm start does not test SHM or TBM (R83). -/
def memStep (s : State) (obs : StartObs) : State :=
  let bad := failedSites s obs
  let mask := bad.foldl (fun n i => n + 2 ^ i) 0
  match mapSites bad with
  | none => failStart s 6 mask
  | some (m16, m17, d8) =>
    let old := s.scrub.spares
    let fac := if s.start.factoryIgnored then ([], 0) else mapRows ((List.range 128).filterMap (factoryEntry s)) []
    let nvs := mapRows ((s.repairs.filter recordGood).map (fun r => (fld r 22 16, fld r 15 4, fld r 3 1))) fac.1
    let s := { s with scrub := { s.scrub with spares := nvs.1 },
                      start := { s.start with sitesFailed := BitVec.ofNat 29 mask, ms16 := BitVec.ofNat 5 m16,
                                              ms17 := BitVec.ofNat 5 m17, ds8 := BitVec.ofNat 4 d8,
                                              factoryApplied := BitVec.ofNat 8 fac.2, fieldApplied := BitVec.ofNat 9 nvs.2,
                                              newRows := 0 } }
    let rows := if s.start.warm then obs.rowsFailed.filter (fun e => decide (48 ≤ e.1)) else obs.rowsFailed
    let r := rows.foldl repairRow (s, [])
    let s := { r.1 with start := { r.1.start with degraded := BitVec.ofNat 8 r.2.length } }
    toStage (if s.start.warm then copyRows old s else s) .validClear

/-! ### Steps 3 and 4: valid bits, staging copy (R75, R81, R83, R531, R532) -/

/-- Whether a staged set awaits the copy (R531). -/
def stagedCopy (s : State) : Bool := (bootOf s.flashA).1.state == 2 && s.flashA.staged.isSome

/-- The step after the valid bits: Hearth takes the flashes out of reset; what a cold start does without a copy (R37, R531, R532). A
staging record beside PROBATION is one that a power failure kept from its erase: the copy counts as completed (R537). -/
def afterClear (s : State) : State :=
  let b := (bootOf s.flashA).1
  let s := { s with pins := { s.pins with flashResetN := 3 } }
  if s.start.warm then toStage s .verify
  else if stagedCopy s then toStage s .staging
  else if b.state = 2 then toStage { s with flashA := writeBoot s.flashA { b with state := 1 } } .verify
  else if b.state = 3 ∧ s.flashA.staged.isSome then
    toStage { s with flashA := { s.flashA with staged := none }, start := { s.start with boot := 1 } } .verify
  else if b.state = 3 then
    toStage { s with flashA := writeBoot s.flashA { b with active := b.previous, previous := 255, state := 1 },
                     start := { s.start with boot := 2 } } .verify
  else toStage s .verify

/-- Committed key-store slots that are not good (R469). -/
def badSlots (s : State) : Nat := (s.anvil.store.filter (fun e => slotCommitted e.2 && !slotGood s e.2)).length

/-- Valid-bit clear, the two keys that Anvil derives, and its judgement of the key store (R75, R81, R452, R469). -/
def clearStep (s : State) : State :=
  let kept (a : Nat) : Bool := s.start.warm && decide (a < 0x300000)
  let s := { s with mem := s.mem.filter (fun e => kept e.1), anvil := { s.anvil with slots := [], cache := [], refs := [] } }
  let s := deriveRoots s
  afterClear (bumpBy s 0x1424 (badSlots s))

/-- upd.probation.time at activation: its value in the newest settings, or its default (R520, R539). -/
def probationTime (s : State) : Nat :=
  match newestSettings s.flashA (fun _ => true) with
  | some r => ((r.2.entries.find? (fun e => e.1 == 0x7400)).map (·.2.toNat)).getD 600
  | none => 600

/-- Staging copy (R531). -/
def stagingStep (s : State) : State :=
  let b := (bootOf s.flashA).1
  let set := s.flashA.staged.getD [] ++ s.flashA.data
  if setVerifies s set then
    let target := if b.previous = 255 then 1 - b.active else b.previous
    let f := putRegion s.flashA target set
    let f := writeBoot f { b with active := target, previous := b.active, state := 3, prob := probationTime s,
                                  digest := (sha256 (set.take 180)).toNat }
    toStage { s with flashA := { f with staged := none }, start := { s.start with boot := 1 } } .verify
  else toStage { s with flashA := writeBoot s.flashA { b with state := 1 } } .verify

/-! ### Step 5: verify (R83 to R85) -/

/-- A candidate of R85: the set's octets, whether it is a previous set, and whether it lies on FLASH_B. -/
structure Choice where
  set : Octets
  region : Nat
  previous : Bool
  onB : Bool
deriving DecidableEq, Repr

/-- The candidates in order (R85, R519). -/
def setChoices (s : State) : List Choice :=
  let a := (bootOf s.flashA).1
  let b := (bootOf s.flashB).1
  let when_ (on : Bool) (c : Choice) : List Choice := if on then [c] else []
  when_ s.start.flashAOk ⟨setRegion s.flashA a.active, a.active, false, false⟩ ++
    when_ s.start.flashBOk ⟨setRegion s.flashB b.active, b.active, false, true⟩ ++
    when_ (s.start.flashAOk && a.previous != 255) ⟨setRegion s.flashA a.previous, a.previous, true, false⟩ ++
    when_ (s.start.flashBOk && b.previous != 255) ⟨setRegion s.flashB b.previous, b.previous, true, true⟩

/-- First word of engine part i in the image cache, and of its recorded digest (R84). -/
def cacheBase (i : Nat) : Nat := 0x10000 + 0x4000 * i
def digestBase (i : Nat) : Nat := 0x1C000 + 4 * i

/-- Writes engine part i of the running set into the image cache with its digest (R84). -/
def cachePart (s : State) (i : Nat) : State :=
  let p := setPart s.update.running i
  let ws := packWords 16384 p
  let s := writeWords s (cacheBase i) (ws ++ List.replicate (16384 - ws.length) 0)
  writeWords s (digestBase i) (packWords 4 (digestOctets (sha256 p)))

/-- Hearth's read of engine part i in the cache matches its recorded digest (R83; consumer code 14). -/
def partCached (s : State) (i : Nat) : State × Bool :=
  let size := (setPart s.update.running i).length
  match readWords 14 ((size + 8) / 9) (cacheBase i) s with
  | (s, .inr _) => (s, false)
  | (s, .inl ws) =>
    match readWords 14 4 (digestBase i) s with
    | (s, .inr _) => (s, false)
    | (s, .inl ds) => (s, (unpackWords ds).take 32 == digestOctets (sha256 ((unpackWords ws).take size)))

/-- Checks the cached parts in order: those that do not match (R83). -/
def checkParts (s : State) : State × List Nat :=
  [0, 1, 2].foldl (fun r i =>
    let q := partCached r.1 i
    (q.1, if q.2 then r.2 else r.2 ++ [i])) (s, [])

/-- The running set as it stands in its region of flash. -/
def storedSet (s : State) : Octets := setRegion (if s.start.flashBUsed then s.flashB else s.flashA) s.update.region

/-- The choice of the set to run: the first that verifies (R85). -/
def chooseSet (s : State) (recover : BitVec 4 → State → State) : State :=
  match (setChoices s).find? (fun c => setVerifies s c.set) with
  | none => recover 5 s
  | some c =>
    let s := { s with update := { s.update with running := c.set, region := c.region },
                      start := { s.start with boot := if c.previous then 3 else s.start.boot, flashBUsed := c.onB,
                                              version := BitVec.ofNat 36 (hdrVersion c.set) } }
    toStage ([0, 1, 2].foldl cachePart s) .load

/-- Step 5 of a warm start: parts that mismatch are read and verified from flash again (R83); a set that verifies there no more gives
way to the choice of R85 (DEDUCED, log 72). -/
def warmVerify (s : State) (recover : BitVec 4 → State → State) : State :=
  let r := checkParts { s with start := { s.start with cacheReloaded := false } }
  let s := { r.1 with start := { r.1.start with cacheReloaded := !r.2.isEmpty } }
  if r.2.isEmpty then toStage s .load
  else if setVerifies s (storedSet s) then
    toStage (r.2.foldl cachePart { s with update := { s.update with running := storedSet s } }) .load
  else chooseSet s recover

/-- Verify, with the recovery start where no set runs (R42, R83, R85): 4 by strap, 5 with none verified. -/
def verifyStep (s : State) (obs : StartObs) (recover : BitVec 4 → State → State) : State :=
  let s := { s with start := { s.start with flashAOk := obs.sfdpOkA, flashBOk := obs.sfdpOkB } }
  if s.start.warm ∧ s.update.running ≠ [] then warmVerify s recover
  else if fld s.start.straps 1 0 = 1 then recover 4 s
  else chooseSet s recover

/-! ### Step 6: engine load (R81, R242, R249, R524) -/

/-- The engine part of a logical engine. -/
def partOfEngine (n : Nat) : Nat := if n < 2 then 0 else if n < 18 then 1 else 2

/-- Loads a logical engine's local memory from its part. -/
def loadEngine (s : State) (n : Nat) : State :=
  let site := siteOf s n
  let s := writeWords s (localAddr site 0) (packWords 16384 (setPart s.update.running (partOfEngine n)))
  engineRan s site

/-- Engine load: the engines, the table image, and Quench's profile from the locked region; a differing profile of the running set
replaces the region first. -/
def loadStep (s : State) : State :=
  let set := s.update.running
  let s := (List.range 26).foldl loadEngine s
  let p := regProfile (setPart set 4)
  let fresh := s.quench.region != p
  let s := { s with image := Config.tableImage (setPart set 3),
                    quench := { s.quench with region := p, profile := p, valid := profileValid p } }
  toStage (if fresh || !s.start.warm then preload s else s) .firmware

/-! ### Steps 7 and 8: firmware start and EV_READY (R81, R95, R133, R136, R151, R156, R555) -/

/-- Default routes: every source of the blocks of ev.default.blocks, to every context (R156). -/
def defaultRoutes (s : State) : SMap Route :=
  let srcs := (List.range 256).filter (fun n => (par s 0x400).testBit (n / 32))
  srcs.foldl (fun m n => [0, 1, 2, 3].foldl (fun m h => tblPut m (4 * n + h) { on := true, vector := 1, window := par s 0x401 }) m) []

/-- The parameter store of a cold start (R75, R536). -/
def loadSettings (s : State) (vs : List (Nat × BitVec 64)) : State :=
  let vs := vs.filter (fun e => writable e.1)
  let m := vs.foldl (fun m e => tblPut m e.1 e.2) []
  { s with params := m, inForce := m, storedAt := [] }

/-- Contexts of a cold start: rings empty, DETACHED, bound as stored (R97, R133). DESIGN CHOICE: the registers are served before firmware
start, and R134 does not say what becomes of an ATTACH, a doorbell or a count of HCn_DB_IGNORED made then; step 7 initialises the
contexts and discards all three (log 212). -/
def freshCtxs (s : State) : State :=
  allHc.foldl (fun s hc => setCtx s hc { bind := par s (0x20 + hc.val) }) { s with ctxs := [] }

/-- What firmware initialises in a cold start. -/
def coldFirmware (s : State) (vs : List (Nat × BitVec 64)) : State :=
  let s := freshCtxs (loadSettings s vs)
  let role : BitVec 2 := if parB s 0x9000 then (if parB s 0x9001 then 1 else 2) else 0
  let s := { s with routes := defaultRoutes s, pairRole := role, owners := [], start := { s.start with ran := true },
                    shape := { s.shape with tickAt := s.now, tick := par s 0x4400 },
                    tb := { s.tb with servo := if par s 0x6000 = 0 then 0 else 1 } }
  [0, 1].foldl (fun s p => setFwd s p { fwd s p with sweepAt := s.now }) s

/-- A pending value of a binding or of a block that a warm restart stops takes effect (R149, R151), and the pair role follows
pair.mode (R555). -/
def warmFirmware (s : State) : State :=
  let s := applyKind (applyKind s .restart) .nextStart
  let role : BitVec 2 := if !parB s 0x9000 then 0 else if s.pairRole != 0 then s.pairRole else if parB s 0x9001 then 1 else 2
  { s with pairRole := role }

/-- The journal scan of one context, in consumption order (R136, R573). -/
def scanJournal (s : State) (hc : Hc) : State :=
  (ctx s hc).journal.foldl (fun s r =>
    copyDone s hc (if r.done then r else { r with status := stRestarted, result := [] }) true) s

/-- What waited for firmware start in a warm start: the scan, the abandoned session, latched doorbells and link losses (R77, R104,
R136, R530). -/
def afterScan (s : State) : State :=
  let s := allHc.foldl scanJournal s
  let s := match s.update.abandoned with
    | some (hc, v) => raiseEv { s with update := { s.update with abandoned := none } } 230 (at' 0 hc.val) (BitVec.ofNat 72 v)
    | none => s
  allHc.foldl (fun s hc =>
    let c := ctx s hc
    let s := match c.latched with
      | some t => ringDoorbell (setCtx s hc { c with latched := none }) hc t
      | none => s
    match (ctx s hc).loss with
    | some cause => drainNow (contextReset (setCtx s hc { ctx s hc with loss := none }) hc cause) hc
    | none => drainNow s hc) s

/-- The running blocks of a firmware start (R78, R81, R180, R210, R219, R266, R482, R497, R560). -/
def startBlocks (s : State) (noiseOk : Bool) : State :=
  let s := { s with wd := { armed := true, since := s.now }, pins := { s.pins with serialIdle := 0 },
                    engines := (List.range 26).map (fun n => (n, { beatAt := s.now })),
                    arbs := (List.range 35).foldl (fun m a => tblPut m a { tblAt m a {} with credit := freshCredits s }) s.arbs,
                    anvil := { s.anvil with entropy := noiseOk, failedAt := s.now } }
  let s := if noiseOk then s else bump s 0x1428
  let s := setCounter s 0x109 0
  let s := if parB s 0x8000 then beginPass s else s
  let s := [0, 1, 2].foldl (fun s b => applyChannels s b false) s
  let s := (List.range 12).foldl applyEnable s
  let s := trackRolePin (trackPtp (trackPpsOut s))
  { s with pair := { s.pair with startAt := s.now, lastChange := if s.start.warm then s.pair.lastChange else s.now,
                                 unfitAt := if s.start.warm then s.pair.unfitAt else s.now, suspended := false } }

/-- Version of a set that a region holds; zero where it holds none. -/
def regionVersion (f : Flash) (r : Nat) : Nat := hdrVersion (setRegion f r)

/-- Version of the set that does not run (R95). -/
def otherVersion (s : State) : Nat :=
  let f := if s.start.flashBUsed then s.flashB else s.flashA
  let b := (bootOf f).1
  if s.update.running.isEmpty then 0
  else if s.start.boot = 3 then regionVersion f b.active
  else if b.previous = 255 then 0 else regionVersion f b.previous

/-- Word 0 of the start record (R95, R96). -/
def startWord0 (s : State) : Word :=
  let x := s.start
  let flags := x.flashBUsed.toNat + 2 * x.defaultTrims.toNat + 4 * x.factoryIgnored.toNat + 8 * x.cacheReloaded.toNat +
    16 * (s.clk.ref == .holdover || s.clk.ref == .requal).toNat
  at' 0 1 ||| at' 8 x.kind.toNat ||| at' 12 x.kindDetail.toNat ||| at' 24 x.starts.toNat ||| at' 40 x.straps.toNat |||
    at' 48 x.boot.toNat ||| at' 52 flags

/-- The start record (R95). -/
def startRecord (s : State) : List Word :=
  let x := s.start
  let t := (s.update.running.drop 180).take 288
  let v (i : Nat) : Nat := partVersion t i
  [startWord0 s,
   at' 0 (min (2 ^ 32 - 1) ((s.now - x.since) * 10 / 4096)) ||| at' 32 x.warmCount.toNat ||| at' 40 (min 15 (bitesNow s)) |||
     at' 44 (fld s.otp 2330 2323) ||| at' 52 (fwSvn s) ||| at' 60 (regSvn s),
   at' 0 x.factoryApplied.toNat ||| at' 8 x.fieldApplied.toNat ||| at' 17 x.newRows.toNat ||| at' 25 (256 - s.repairs.length) |||
     at' 34 x.degraded.toNat,
   at' 0 x.sitesFailed.toNat ||| at' 29 x.ms16.toNat ||| at' 34 x.ms17.toNat ||| at' 39 x.ds8.toNat,
   at' 0 (v 0) ||| at' 36 (v 1), at' 0 (v 2) ||| at' 36 (v 3), at' 0 (v 4) ||| at' 36 (v 5),
   at' 0 (hdrVersion s.update.running) ||| at' 36 (otherVersion s), at' 0 x.fuseFail.toNat, if x.warm then x.restartTime else 0,
   0, 0, 0, 0, 0, 0]

/-- Step 8: the start record and EV_READY to every bound context (R81, R95, R156). -/
def ready (s : State) (p : Phase) : State :=
  let s := { s with start := { s.start with phase := p } }
  raiseTo (writeWords s 0 (startRecord s)) allHc 0 (startWord0 s) 0

/-- Firmware serves: the record and EV_READY, and EV_ASN_UNSET while the timebase is UNSET (R81, R339). -/
def serve (s : State) : State :=
  let s := ready s .ready
  if s.tb.set then s else raiseEv s 162 0 0

/-- What the boot control record brings: the steps of a confirmation that a NORMAL record leaves to complete, and the begin of
probation (R533, R534). -/
def bootFollow (s : State) : State :=
  let b := (bootOf s.flashA).1
  let normal := !s.start.warm && b.state == 1
  let u := { s.update with readyAt := s.now, confirming := s.update.confirming || normal }
  let t : State := { s with update := u }
  if s.start.boot == 1 && !s.start.warm then
    raiseEv t 232 (BitVec.ofNat 72 (hdrVersion s.update.running)) (BitVec.ofNat 72 b.prob)
  else t

/-- Firmware start. -/
def firmwareStep (s : State) (obs : StartObs) : State :=
  let s := if s.start.warm then warmFirmware s else coldFirmware s (settingsToLoad s (hdrFormat s.update.running))
  let s := startBlocks s obs.noiseOk
  bootFollow (serve (if s.start.warm then afterScan s else s))

/-- A recovery start: the attachments with their default bindings and every parameter at its default, and nothing else (R85, R98,
R536). -/
def recoverStart (boot : BitVec 4) (s : State) : State :=
  let s := { s with start := { s.start with boot := boot }, update := { s.update with running := [] } }
  let s := if s.start.warm then s else freshCtxs (loadSettings s [])
  let s := if s.start.warm then s else { s with routes := defaultRoutes s }
  let s := { s with start := { s.start with phase := .recovery } }
  ready (if s.start.warm then afterScan s else s) .recovery

/-- START_STEP_END (R81, R83, R89). -/
def execStartStepEnd (dt : Nat) (obs : StartObs) (s : State) : Host.Outcome State Fault Refusal :=
  always dt s (fun s =>
    if s.start.phase ≠ .starting then s
    else match s.start.stage with
      | .refQual => s
      | .cleanerLock =>
        if s.clk.ref = .acquiring then toStage { s with clk := { s.clk with ref := .locked } } .pllLock else s
      | .pllLock => toStage { s with clk := { s.clk with sysPll := true }, tb := {} } .fuse
      | .fuse => fuseStep s
      | .memTest => memStep s obs
      | .validClear => clearStep s
      | .staging => stagingStep s
      | .verify => verifyStep s obs recoverStart
      | .load => loadStep s
      | .firmware => firmwareStep s obs)

/-! ### The end of a command's work (R118, R136) -/

/-- Carries out the work of a record and marks it DONE; `flashOk` is whether its programs of a flash or of the key store succeed. -/
def performWork (s : State) (hc : Hc) (r : JRec) (flashOk : Bool) : State :=
  let o := match r.work with
    | .elsewhere => (s, stOk, [])
    | .keyUpdate => keyUpdateWork flashOk s r.payload
    | .keyLoad => keyLoadWork s r.payload
    | .attest => attestWork s r.payload
    | .updateData => updateDataWork s hc r.payload flashOk
    | .updateEnd => updateEndWork s hc r.payload flashOk
  finishJob o.1 hc r.id o.2.1 o.2.2 false

/-- COMMAND_WORK_END (R118, R136): the first record marked DONE is completed; where there is none, the first command whose work is its
own ends it. -/
def execCommandWorkEnd (dt : Nat) (hc : Hc) (flashOk : Bool) (s : State) : Host.Outcome State Fault Refusal :=
  always dt s (fun s =>
    if serving s = false then s
    else
      let copyFirst (s : State) : State := match (ctx s hc).journal.find? (·.done) with
        | some r => drainOn (copyDone s hc r false) hc
        | none => s
      if (ctx s hc).journal.any (·.done) then copyFirst s
      else match (ctx s hc).journal.find? (fun r => r.work != .elsewhere) with
        | some r => if keyTurn s r then copyFirst (performWork s hc r flashOk) else s
        | none => s)

end Sys2Proof.Machine
end

