-- ==== Sys2Proof/Machine/Dispatch.lean ====
section
/-!
DEFINITION. The dispatch: one arm for each row of spec/opcode_table.json, each a call of the row's meaning.
-/

namespace Sys2Proof.Machine

def exec (i : Instr) (s : State) : Host.Outcome State Fault Refusal :=
  match i with
  | .powerOnReset dt cut => Sys2Proof.Machine.execPowerOnReset dt cut s
  | .rstNReset dt => Sys2Proof.Machine.execRstNReset dt s
  | .resetRelease dt ir cells gpio rails => Sys2Proof.Machine.execResetRelease dt ir cells gpio rails s
  | .tapResetHoldRelease dt ir gpio => Sys2Proof.Machine.execTapResetHoldRelease dt ir gpio s
  | .tempSensorReading dt t0 t1 t2 t3 => Sys2Proof.Machine.execTempSensorReading dt t0 t1 t2 t3 s
  | .thermalTrip dt => Sys2Proof.Machine.execThermalTrip dt s
  | .thermalTripRelease dt t0 t1 t2 t3 gpio => Sys2Proof.Machine.execThermalTripRelease dt t0 t1 t2 t3 gpio s
  | .clockFault dt => Sys2Proof.Machine.execClockFault dt s
  | .startTimeout dt => Sys2Proof.Machine.execStartTimeout dt s
  | .watchdogBite dt => Sys2Proof.Machine.execWatchdogBite dt s
  | .wdtKick dt core => Sys2Proof.Machine.execWdtKick dt core s
  | .poisonTrap dt engine addr => Sys2Proof.Machine.execPoisonTrap dt engine addr s
  | .pciePerst dt e => Sys2Proof.Machine.execPciePerst dt e s
  | .pcieLinkDown dt e => Sys2Proof.Machine.execPcieLinkDown dt e s
  | .hspiInactivityTimeout dt p => Sys2Proof.Machine.execHspiInactivityTimeout dt p s
  | .tapReset dt => Sys2Proof.Machine.execTapReset dt s
  | .engDebugStatus dt site => Sys2Proof.Machine.execEngDebugStatus dt site s
  | .engDebugHalt dt site => Sys2Proof.Machine.execEngDebugHalt dt site s
  | .engDebugResume dt site => Sys2Proof.Machine.execEngDebugResume dt site s
  | .engDebugSingleStep dt site => Sys2Proof.Machine.execEngDebugSingleStep dt site s
  | .engDebugReadLocal dt site addr => Sys2Proof.Machine.execEngDebugReadLocal dt site addr s
  | .engDebugWriteLocal dt site addr data => Sys2Proof.Machine.execEngDebugWriteLocal dt site addr data s
  | .engDebugReadRegister dt site reg => Sys2Proof.Machine.execEngDebugReadRegister dt site reg s
  | .engDebugWriteRegister dt site reg data => Sys2Proof.Machine.execEngDebugWriteRegister dt site reg data s
  | .refGlitch dt => Sys2Proof.Machine.execRefGlitch dt s
  | .refPresenceLoss dt => Sys2Proof.Machine.execRefPresenceLoss dt s
  | .refRangeWindow dt ppm => Sys2Proof.Machine.execRefRangeWindow dt ppm s
  | .refRequalified dt => Sys2Proof.Machine.execRefRequalified dt s
  | .evRefRestored dt => Sys2Proof.Machine.execEvRefRestored dt s
  | .evRefHoldoverLimit dt => Sys2Proof.Machine.execEvRefHoldoverLimit dt s
  | .ppsEdgeCapture dt rising => Sys2Proof.Machine.execPpsEdgeCapture dt rising s
  | .ppsEdgeJudged dt => Sys2Proof.Machine.execPpsEdgeJudged dt s
  | .ppsLossTimeout dt => Sys2Proof.Machine.execPpsLossTimeout dt s
  | .hspiWordRead dt p header inTime => Sys2Proof.Machine.execHspiWordRead dt p header inTime s
  | .hspiWordWrite dt p header data dcrc inTime => Sys2Proof.Machine.execHspiWordWrite dt p header data dcrc inTime s
  | .hspiRegRead dt p header inTime => Sys2Proof.Machine.execHspiRegRead dt p header inTime s
  | .hspiRegWrite dt p header data dcrc inTime => Sys2Proof.Machine.execHspiRegWrite dt p header data dcrc inTime s
  | .hspiNop dt p header => Sys2Proof.Machine.execHspiNop dt p header s
  | .hspiAbort dt p => Sys2Proof.Machine.execHspiAbort dt p s
  | .bar2Read dt e word => Sys2Proof.Machine.execBar2Read dt e word s
  | .bar2Write dt e word enables bytes poisoned => Sys2Proof.Machine.execBar2Write dt e word enables bytes poisoned s
  | .sqDoorbell dt att hc value => Sys2Proof.Machine.execSqDoorbell dt att hc value s
  | .cqHeadWrite dt att hc value => Sys2Proof.Machine.execCqHeadWrite dt att hc value s
  | .eqHeadWrite dt att hc value => Sys2Proof.Machine.execEqHeadWrite dt att hc value s
  | .hcAttach dt att hc value => Sys2Proof.Machine.execHcAttach dt att hc value s
  | .hcTimeSnapshot dt att hc => Sys2Proof.Machine.execHcTimeSnapshot dt att hc s
  | .irqLatchClear dt att pin k value => Sys2Proof.Machine.execIrqLatchClear dt att pin k value s
  | .gpioOutWrite dt att value => Sys2Proof.Machine.execGpioOutWrite dt att value s
  | .gpioOeWrite dt att value => Sys2Proof.Machine.execGpioOeWrite dt att value s
  | .hcDbIgnoredRead dt att hc => Sys2Proof.Machine.execHcDbIgnoredRead dt att hc s
  | .hcEqLostRead dt att hc => Sys2Proof.Machine.execHcEqLostRead dt att hc s
  | .registerWrite dt att offset value => Sys2Proof.Machine.execRegisterWrite dt att offset value s
  | .cqCoalesceExpiry dt hc => Sys2Proof.Machine.execCqCoalesceExpiry dt hc s
  | .lockLeaseExpiry dt hc => Sys2Proof.Machine.execLockLeaseExpiry dt hc s
  | .nop dt hc => Sys2Proof.Machine.execNop dt hc s
  | .deviceInfo dt hc => Sys2Proof.Machine.execDeviceInfo dt hc s
  | .deviceRestart dt hc => Sys2Proof.Machine.execDeviceRestart dt hc s
  | .hostReset dt hc => Sys2Proof.Machine.execHostReset dt hc s
  | .otpRead dt hc => Sys2Proof.Machine.execOtpRead dt hc s
  | .resourceClaim dt hc => Sys2Proof.Machine.execResourceClaim dt hc s
  | .resourceRelease dt hc => Sys2Proof.Machine.execResourceRelease dt hc s
  | .resourceQuery dt hc => Sys2Proof.Machine.execResourceQuery dt hc s
  | .lockAcquire dt hc => Sys2Proof.Machine.execLockAcquire dt hc s
  | .lockRelease dt hc => Sys2Proof.Machine.execLockRelease dt hc s
  | .paramGet dt hc => Sys2Proof.Machine.execParamGet dt hc s
  | .paramSet dt hc => Sys2Proof.Machine.execParamSet dt hc s
  | .txnBegin dt hc => Sys2Proof.Machine.execTxnBegin dt hc s
  | .txnCommit dt hc => Sys2Proof.Machine.execTxnCommit dt hc s
  | .txnAbort dt hc => Sys2Proof.Machine.execTxnAbort dt hc s
  | .eventRoute dt hc => Sys2Proof.Machine.execEventRoute dt hc s
  | .chainConfig dt hc => Sys2Proof.Machine.execChainConfig dt hc s
  | .tune dt hc => Sys2Proof.Machine.execTune dt hc s
  | .calRun dt hc => Sys2Proof.Machine.execCalRun dt hc s
  | .slotframeSet dt hc => Sys2Proof.Machine.execSlotframeSet dt hc s
  | .cellWrite dt hc => Sys2Proof.Machine.execCellWrite dt hc s
  | .txSubmit dt hc => Sys2Proof.Machine.execTxSubmit dt hc s
  | .txCancel dt hc => Sys2Proof.Machine.execTxCancel dt hc s
  | .frameInject dt hc => Sys2Proof.Machine.execFrameInject dt hc s
  | .bufPost dt hc => Sys2Proof.Machine.execBufPost dt hc s
  | .nodeAdd dt hc => Sys2Proof.Machine.execNodeAdd dt hc s
  | .nodeDelete dt hc => Sys2Proof.Machine.execNodeDelete dt hc s
  | .nodeRead dt hc => Sys2Proof.Machine.execNodeRead dt hc s
  | .tableRehash dt hc => Sys2Proof.Machine.execTableRehash dt hc s
  | .flowConfig dt hc => Sys2Proof.Machine.execFlowConfig dt hc s
  | .flowStats dt hc => Sys2Proof.Machine.execFlowStats dt hc s
  | .keyLoad dt hc => Sys2Proof.Machine.execKeyLoad dt hc s
  | .keyInvalidate dt hc => Sys2Proof.Machine.execKeyInvalidate dt hc s
  | .keyUpdate dt hc => Sys2Proof.Machine.execKeyUpdate dt hc s
  | .attest dt hc => Sys2Proof.Machine.execAttest dt hc s
  | .timeSet dt hc => Sys2Proof.Machine.execTimeSet dt hc s
  | .timeRate dt hc => Sys2Proof.Machine.execTimeRate dt hc s
  | .timeReset dt hc => Sys2Proof.Machine.execTimeReset dt hc s
  | .timerConfig dt hc => Sys2Proof.Machine.execTimerConfig dt hc s
  | .teuConfig dt hc => Sys2Proof.Machine.execTeuConfig dt hc s
  | .updateBegin dt hc => Sys2Proof.Machine.execUpdateBegin dt hc s
  | .updateData dt hc => Sys2Proof.Machine.execUpdateData dt hc s
  | .updateEnd dt hc => Sys2Proof.Machine.execUpdateEnd dt hc s
  | .updateConfirm dt hc => Sys2Proof.Machine.execUpdateConfirm dt hc s
  | .updateAbort dt hc => Sys2Proof.Machine.execUpdateAbort dt hc s
  | .memRead dt hc => Sys2Proof.Machine.execMemRead dt hc s
  | .memWrite dt hc => Sys2Proof.Machine.execMemWrite dt hc s
  | .counterRead dt hc => Sys2Proof.Machine.execCounterRead dt hc s
  | .errlogRead dt hc => Sys2Proof.Machine.execErrlogRead dt hc s
  | .pairRole dt hc => Sys2Proof.Machine.execPairRole dt hc s
  | .pairStatus dt hc => Sys2Proof.Machine.execPairStatus dt hc s
  | .opcodeRefused dt hc => Sys2Proof.Machine.execOpcodeRefused dt hc s
  | .commandWorkEnd dt hc flashOk => Sys2Proof.Machine.execCommandWorkEnd dt hc flashOk s
  | .eqEntryWrite dt hc => Sys2Proof.Machine.execEqEntryWrite dt hc s
  | .coalesceWindowEnd dt hc source => Sys2Proof.Machine.execCoalesceWindowEnd dt hc source s
  | .scrubPassStart dt => Sys2Proof.Machine.execScrubPassStart dt s
  | .scrubRow dt => Sys2Proof.Machine.execScrubRow dt s
  | .evRowRetired dt => Sys2Proof.Machine.execEvRowRetired dt s
  | .frameSegmentWrite dt band ctx kind words => Sys2Proof.Machine.execFrameSegmentWrite dt band ctx kind words s
  | .fifoBankSwap dt f => Sys2Proof.Machine.execFifoBankSwap dt f s
  | .drainSegment dt band flips => Sys2Proof.Machine.execDrainSegment dt band flips s
  | .drainResume dt band => Sys2Proof.Machine.execDrainResume dt band s
  | .arbiterDecision dt a presented releases sub => Sys2Proof.Machine.execArbiterDecision dt a presented releases sub s
  | .engineHeartbeat dt engine => Sys2Proof.Machine.execEngineHeartbeat dt engine s
  | .bellowsChoice dt chain => Sys2Proof.Machine.execBellowsChoice dt chain s
  | .chainTransitionEnd dt chain => Sys2Proof.Machine.execChainTransitionEnd dt chain s
  | .calPointStart dt chain => Sys2Proof.Machine.execCalPointStart dt chain s
  | .calEnd dt chain locked vcoBand cap kv loI loQ => Sys2Proof.Machine.execCalEnd dt chain locked vcoBand cap kv loI loQ s
  | .evSynthUnlock dt chain => Sys2Proof.Machine.execEvSynthUnlock dt chain s
  | .txCommit dt item => Sys2Proof.Machine.execTxCommit dt item s
  | .quenchPaRequest dt chain => Sys2Proof.Machine.execQuenchPaRequest dt chain s
  | .quenchCut dt chain => Sys2Proof.Machine.execQuenchCut dt chain s
  | .quenchBinRoll dt => Sys2Proof.Machine.execQuenchBinRoll dt s
  | .returnLossReading dt chain rl forwardQdbm => Sys2Proof.Machine.execReturnLossReading dt chain rl forwardQdbm s
  | .pdetStep dt chain sample => Sys2Proof.Machine.execPdetStep dt chain sample s
  | .txTimeout dt chain => Sys2Proof.Machine.execTxTimeout dt chain s
  | .txRampDownEnd dt chain pointLevels => Sys2Proof.Machine.execTxRampDownEnd dt chain pointLevels s
  | .tuneProbeStart dt chain => Sys2Proof.Machine.execTuneProbeStart dt chain s
  | .tuneNoSlot dt chain => Sys2Proof.Machine.execTuneNoSlot dt chain s
  | .tuneSearchEnd dt chain readings => Sys2Proof.Machine.execTuneSearchEnd dt chain readings s
  | .ackWaitExpiry dt item => Sys2Proof.Machine.execAckWaitExpiry dt item s
  | .agcWindowEnd dt chain peak fullScale => Sys2Proof.Machine.execAgcWindowEnd dt chain peak fullScale s
  | .laneDetection dt band ch mark detect metric foff level => Sys2Proof.Machine.execLaneDetection dt band ch mark detect metric foff level s
  | .contextAssign dt => Sys2Proof.Machine.execContextAssign dt s
  | .rewindFreeze dt band ch lane foff level => Sys2Proof.Machine.execRewindFreeze dt band ch lane foff level s
  | .headerCheck dt band ch lane obs endAt ends est hist => Sys2Proof.Machine.execHeaderCheck dt band ch lane obs endAt ends est hist s
  | .codewordDecoded dt band ch lane header converged iterations corrected octets hist => Sys2Proof.Machine.execCodewordDecoded dt band ch lane header converged iterations corrected octets hist s
  | .frameEnd dt band ch lane obs hist => Sys2Proof.Machine.execFrameEnd dt band ch lane obs hist s
  | .laneOverrun dt band ch lane => Sys2Proof.Machine.execLaneOverrun dt band ch lane s
  | .markOvertaken dt band ch => Sys2Proof.Machine.execMarkOvertaken dt band ch s
  | .slotBoundary dt => Sys2Proof.Machine.execSlotBoundary dt s
  | .schedDecision dt band => Sys2Proof.Machine.execSchedDecision dt band s
  | .rxFrameProcess dt engine ends => Sys2Proof.Machine.execRxFrameProcess dt engine ends s
  | .itemExpiry dt item => Sys2Proof.Machine.execItemExpiry dt item s
  | .beaconWatchSlotEnd dt => Sys2Proof.Machine.execBeaconWatchSlotEnd dt s
  | .evPairTakeover dt => Sys2Proof.Machine.execEvPairTakeover dt s
  | .pairYield dt => Sys2Proof.Machine.execPairYield dt s
  | .pairRevertAgree dt => Sys2Proof.Machine.execPairRevertAgree dt s
  | .evPairRevert dt => Sys2Proof.Machine.execEvPairRevert dt s
  | .uplinkFrame dt pipe => Sys2Proof.Machine.execUplinkFrame dt pipe s
  | .reasmTimeout dt pipe ctx => Sys2Proof.Machine.execReasmTimeout dt pipe ctx s
  | .learnCreate dt pipe => Sys2Proof.Machine.execLearnCreate dt pipe s
  | .learnBucketRefill dt pipe band => Sys2Proof.Machine.execLearnBucketRefill dt pipe band s
  | .ageingSweep dt pipe => Sys2Proof.Machine.execAgeingSweep dt pipe s
  | .evTableRehashDone dt pipe => Sys2Proof.Machine.execEvTableRehashDone dt pipe s
  | .downlinkPacket dt pipe dma => Sys2Proof.Machine.execDownlinkPacket dt pipe dma s
  | .exceptionDelivery dt pipe dmaOk => Sys2Proof.Machine.execExceptionDelivery dt pipe dmaOk s
  | .meterTick dt => Sys2Proof.Machine.execMeterTick dt s
  | .slotLoad dt slot => Sys2Proof.Machine.execSlotLoad dt slot s
  | .graceEnd dt domain => Sys2Proof.Machine.execGraceEnd dt domain s
  | .entropyFailure dt => Sys2Proof.Machine.execEntropyFailure dt s
  | .entropyRestart dt passed => Sys2Proof.Machine.execEntropyRestart dt passed s
  | .todSentence dt text => Sys2Proof.Machine.execTodSentence dt text s
  | .todOutput dt => Sys2Proof.Machine.execTodOutput dt s
  | .ptpSyncRx dt port flips => Sys2Proof.Machine.execPtpSyncRx dt port flips s
  | .ptpFollowUpRx dt port => Sys2Proof.Machine.execPtpFollowUpRx dt port s
  | .ptpDelayReqRx dt port flips => Sys2Proof.Machine.execPtpDelayReqRx dt port flips s
  | .ptpDelayRespRx dt port => Sys2Proof.Machine.execPtpDelayRespRx dt port s
  | .ptpAnnounceRx dt port => Sys2Proof.Machine.execPtpAnnounceRx dt port s
  | .ptpSyncTx dt port => Sys2Proof.Machine.execPtpSyncTx dt port s
  | .ptpDelayReqTx dt port => Sys2Proof.Machine.execPtpDelayReqTx dt port s
  | .ptpAnnounceTx dt port => Sys2Proof.Machine.execPtpAnnounceTx dt port s
  | .teuFire dt unit => Sys2Proof.Machine.execTeuFire dt unit s
  | .timerEdge dt timer => Sys2Proof.Machine.execTimerEdge dt timer s
  | .timerCapture dt timer rising => Sys2Proof.Machine.execTimerCapture dt timer rising s
  | .updateSessionIdle dt => Sys2Proof.Machine.execUpdateSessionIdle dt s
  | .activationRestart dt => Sys2Proof.Machine.execActivationRestart dt s
  | .evProbationExpired dt => Sys2Proof.Machine.execEvProbationExpired dt s
  | .probationColdRestart dt => Sys2Proof.Machine.execProbationColdRestart dt s
  | .confirmFollowUp dt => Sys2Proof.Machine.execConfirmFollowUp dt s
  | .settingsWrite dt => Sys2Proof.Machine.execSettingsWrite dt s
  | .backboneRxFrame dt port frame => Sys2Proof.Machine.execBackboneRxFrame dt port frame s
  | .egressFrame dt port bad => Sys2Proof.Machine.execEgressFrame dt port bad s
  | .evBackboneLink dt port up => Sys2Proof.Machine.execEvBackboneLink dt port up s
  | .supervisionSend dt hsr => Sys2Proof.Machine.execSupervisionSend dt hsr s
  | .prpLanTimeout dt port => Sys2Proof.Machine.execPrpLanTimeout dt port s
  | .hsrRingTimeout dt port => Sys2Proof.Machine.execHsrRingTimeout dt port s
  | .helloSend dt => Sys2Proof.Machine.execHelloSend dt s
  | .partnerHello dt => Sys2Proof.Machine.execPartnerHello dt s
  | .partnerPropose dt => Sys2Proof.Machine.execPartnerPropose dt s
  | .partnerAccept dt => Sys2Proof.Machine.execPartnerAccept dt s
  | .partnerMirror dt => Sys2Proof.Machine.execPartnerMirror dt s
  | .evPartnerLink dt => Sys2Proof.Machine.execEvPartnerLink dt s
  | .pairRoleTimeout dt => Sys2Proof.Machine.execPairRoleTimeout dt s
  | .dmaCompletionTimeout dt hc => Sys2Proof.Machine.execDmaCompletionTimeout dt hc s
  | .startStepEnd dt obs => Sys2Proof.Machine.execStartStepEnd dt obs s
  | .refAbsentTimeout dt => Sys2Proof.Machine.execRefAbsentTimeout dt s
  | .syspllNolockTimeout dt => Sys2Proof.Machine.execSyspllNolockTimeout dt s
  | .teuWidthEnd dt unit => Sys2Proof.Machine.execTeuWidthEnd dt unit s
  | .announceReceiptTimeout dt port => Sys2Proof.Machine.execAnnounceReceiptTimeout dt port s
  | .ptpQualificationTimeout dt port => Sys2Proof.Machine.execPtpQualificationTimeout dt port s
  | .laneBlankInstant dt band ch lane => Sys2Proof.Machine.execLaneBlankInstant dt band ch lane s

end Sys2Proof.Machine
end

