-- ==== Sys2Proof/WellFormed.lean ====
section
/-!
DEFINITION. Which terms of `Instr` are commands or events that the device can meet: the bounds that the spec puts on an
operand and its type does not. The meanings are total, so they answer for an ill-formed term as well; no host or
radio can bring one.
-/

namespace Sys2Proof

/-- The rows of a bank number (R183); none for a number that is not assigned. -/
def bankRows (bank : Nat) : Nat :=
  if bank < 60 then 4096
  else if 64 ≤ bank ∧ bank ≤ 92 then 1024
  else if bank = 96 then 4096
  else 0

/-- A failing row that the memory test can name: an assigned bank and a row of it (R183). -/
def rowNamed (r : Nat × Nat) : Bool := decide (r.2 < bankRows r.1)

/-- What a start may find: sites 0 to 28 (R15) and rows that exist. -/
def StartObs.wf (o : StartObs) : Bool :=
  o.sitesFailed.all (fun n => decide (n < 29)) && o.rowsFailed.all rowNamed

/-- The header octets that an HSPI transaction can have clocked in: at most nine (R105). -/
def hspiHeaderWf (h : Octets) : Bool := decide (h.length ≤ 9)

/-- The data phase of an HSPI write: at most 256 words of 9 octets, or 64 registers of 4 (R105). -/
def hspiDataWf (d : Octets) (most : Nat) : Bool := decide (d.length ≤ most)

/-- A request at an arbiter: a requester code of R197 and a burst of 1 to 16 words (R199). -/
def ArbReq.wf (r : ArbReq) : Bool := decide (r.code ≤ 42) && decide (1 ≤ r.burst ∧ r.burst ≤ 16)

/-- A PHY header as its fields can carry it: an 11-bit length for SUN-FSK and SUN-OFDM, 7 bits for O-QPSK (R276,
R321). -/
def HeaderObs.wf : HeaderObs → Bool
  | .lrc _ _ => true
  | .fsk _ length _ _ => decide (length < 2048)
  | .fskModeSwitch _ rateIndex _ => decide (rateIndex < 8)
  | .ofdm _ mcs length _ => decide (mcs < 8) && decide (length < 2048)
  | .oqpsk _ _ length => decide (length < 128)

/-- A place among the words of a Frame FIFO bank (R190). -/
def fifoPlace (i : Nat) : Bool := decide (i < 512)

/-- The well-formed terms. -/
def Instr.wf : Instr → Bool
  | .hspiWordRead _ _ h _ => hspiHeaderWf h
  | .hspiWordWrite _ _ h d _ _ => hspiHeaderWf h && hspiDataWf d 2304
  | .hspiRegRead _ _ h _ => hspiHeaderWf h
  | .hspiRegWrite _ _ h d _ _ => hspiHeaderWf h && hspiDataWf d 256
  | .hspiNop _ _ h => hspiHeaderWf h
  | .frameSegmentWrite _ _ _ _ words => decide (words ≤ 64)
  | .drainSegment _ _ flips => flips.all (fun f => fifoPlace f.1)
  | .arbiterDecision _ _ presented releases sub =>
    presented.all ArbReq.wf && decide (releases.length ≤ 4) && releases.all (fun c => decide (c ≤ 42)) && decide (sub ≤ 2)
  | .laneDetection _ _ _ mark detect _ _ _ => decide (mark ≤ detect)
  | .headerCheck _ _ _ _ obs endAt ends _ _ => obs.wf && decide (List.Pairwise (· < ·) (endAt :: ends))
  | .codewordDecoded _ _ _ _ _ _ iterations _ _ _ => decide (iterations ≤ 20)
  | .frameEnd _ _ _ _ obs _ => decide (obs.refInstant ≤ obs.endInstant)
  | .startStepEnd _ obs => obs.wf
  | .powerOnReset _ cut => decide (cut < 8)
  | .rstNReset _ => true
  | .resetRelease _ _ _ _ _ => true
  | .tapResetHoldRelease _ _ _ => true
  | .tempSensorReading _ _ _ _ _ => true
  | .thermalTrip _ => true
  | .thermalTripRelease _ _ _ _ _ _ => true
  | .clockFault _ => true
  | .startTimeout _ => true
  | .watchdogBite _ => true
  | .wdtKick _ _ => true
  | .poisonTrap _ _ _ => true
  | .pciePerst _ _ => true
  | .pcieLinkDown _ _ => true
  | .hspiInactivityTimeout _ _ => true
  | .tapReset _ => true
  | .engDebugStatus _ _ => true
  | .engDebugHalt _ _ => true
  | .engDebugResume _ _ => true
  | .engDebugSingleStep _ _ => true
  | .engDebugReadLocal _ _ _ => true
  | .engDebugWriteLocal _ _ _ _ => true
  | .engDebugReadRegister _ _ _ => true
  | .engDebugWriteRegister _ _ _ _ => true
  | .refGlitch _ => true
  | .refPresenceLoss _ => true
  | .refRangeWindow _ _ => true
  | .refRequalified _ => true
  | .evRefRestored _ => true
  | .evRefHoldoverLimit _ => true
  | .ppsEdgeCapture _ _ => true
  | .ppsEdgeJudged _ => true
  | .ppsLossTimeout _ => true
  | .hspiAbort _ _ => true
  | .bar2Read _ _ _ => true
  | .bar2Write _ _ _ _ _ _ => true
  | .sqDoorbell _ _ _ _ => true
  | .cqHeadWrite _ _ _ _ => true
  | .eqHeadWrite _ _ _ _ => true
  | .hcAttach _ _ _ _ => true
  | .hcTimeSnapshot _ _ _ => true
  | .irqLatchClear _ _ _ _ _ => true
  | .gpioOutWrite _ _ _ => true
  | .gpioOeWrite _ _ _ => true
  | .hcDbIgnoredRead _ _ _ => true
  | .hcEqLostRead _ _ _ => true
  | .registerWrite _ _ _ _ => true
  | .cqCoalesceExpiry _ _ => true
  | .lockLeaseExpiry _ _ => true
  | .nop _ _ => true
  | .deviceInfo _ _ => true
  | .deviceRestart _ _ => true
  | .hostReset _ _ => true
  | .otpRead _ _ => true
  | .resourceClaim _ _ => true
  | .resourceRelease _ _ => true
  | .resourceQuery _ _ => true
  | .lockAcquire _ _ => true
  | .lockRelease _ _ => true
  | .paramGet _ _ => true
  | .paramSet _ _ => true
  | .txnBegin _ _ => true
  | .txnCommit _ _ => true
  | .txnAbort _ _ => true
  | .eventRoute _ _ => true
  | .chainConfig _ _ => true
  | .tune _ _ => true
  | .calRun _ _ => true
  | .slotframeSet _ _ => true
  | .cellWrite _ _ => true
  | .txSubmit _ _ => true
  | .txCancel _ _ => true
  | .frameInject _ _ => true
  | .bufPost _ _ => true
  | .nodeAdd _ _ => true
  | .nodeDelete _ _ => true
  | .nodeRead _ _ => true
  | .tableRehash _ _ => true
  | .flowConfig _ _ => true
  | .flowStats _ _ => true
  | .keyLoad _ _ => true
  | .keyInvalidate _ _ => true
  | .keyUpdate _ _ => true
  | .attest _ _ => true
  | .timeSet _ _ => true
  | .timeRate _ _ => true
  | .timeReset _ _ => true
  | .timerConfig _ _ => true
  | .teuConfig _ _ => true
  | .updateBegin _ _ => true
  | .updateData _ _ => true
  | .updateEnd _ _ => true
  | .updateConfirm _ _ => true
  | .updateAbort _ _ => true
  | .memRead _ _ => true
  | .memWrite _ _ => true
  | .counterRead _ _ => true
  | .errlogRead _ _ => true
  | .pairRole _ _ => true
  | .pairStatus _ _ => true
  | .opcodeRefused _ _ => true
  | .commandWorkEnd _ _ _ => true
  | .eqEntryWrite _ _ => true
  | .coalesceWindowEnd _ _ _ => true
  | .scrubPassStart _ => true
  | .scrubRow _ => true
  | .evRowRetired _ => true
  | .fifoBankSwap _ _ => true
  | .drainResume _ _ => true
  | .engineHeartbeat _ _ => true
  | .bellowsChoice _ _ => true
  | .chainTransitionEnd _ _ => true
  | .calPointStart _ _ => true
  | .calEnd _ _ _ _ _ _ _ _ => true
  | .evSynthUnlock _ _ => true
  | .txCommit _ _ => true
  | .quenchPaRequest _ _ => true
  | .quenchCut _ _ => true
  | .quenchBinRoll _ => true
  | .returnLossReading _ _ _ _ => true
  | .pdetStep _ _ _ => true
  | .txTimeout _ _ => true
  | .txRampDownEnd _ _ _ => true
  | .tuneProbeStart _ _ => true
  | .tuneNoSlot _ _ => true
  | .tuneSearchEnd _ _ rs => decide (rs.length ≤ 89)
  | .ackWaitExpiry _ _ => true
  | .agcWindowEnd _ _ _ _ => true
  | .contextAssign _ => true
  | .rewindFreeze _ _ _ _ _ _ => true
  | .laneOverrun _ _ _ _ => true
  | .markOvertaken _ _ _ => true
  | .slotBoundary _ => true
  | .schedDecision _ _ => true
  | .rxFrameProcess _ _ _ => true
  | .itemExpiry _ _ => true
  | .beaconWatchSlotEnd _ => true
  | .evPairTakeover _ => true
  | .pairYield _ => true
  | .pairRevertAgree _ => true
  | .evPairRevert _ => true
  | .uplinkFrame _ _ => true
  | .reasmTimeout _ _ _ => true
  | .learnCreate _ _ => true
  | .learnBucketRefill _ _ _ => true
  | .ageingSweep _ _ => true
  | .evTableRehashDone _ _ => true
  | .downlinkPacket _ _ _ => true
  | .exceptionDelivery _ _ _ => true
  | .meterTick _ => true
  | .slotLoad _ _ => true
  | .graceEnd _ _ => true
  | .entropyFailure _ => true
  | .entropyRestart _ _ => true
  | .todSentence _ _ => true
  | .todOutput _ => true
  | .ptpSyncRx _ _ flips => decide (flips.length ≤ 2)
  | .ptpFollowUpRx _ _ => true
  | .ptpDelayReqRx _ _ flips => decide (flips.length ≤ 2)
  | .ptpDelayRespRx _ _ => true
  | .ptpAnnounceRx _ _ => true
  | .ptpSyncTx _ _ => true
  | .ptpDelayReqTx _ _ => true
  | .ptpAnnounceTx _ _ => true
  | .teuFire _ _ => true
  | .timerEdge _ _ => true
  | .timerCapture _ _ _ => true
  | .updateSessionIdle _ => true
  | .activationRestart _ => true
  | .evProbationExpired _ => true
  | .probationColdRestart _ => true
  | .confirmFollowUp _ => true
  | .settingsWrite _ => true
  | .backboneRxFrame _ _ _ => true
  | .egressFrame _ _ _ => true
  | .evBackboneLink _ _ _ => true
  | .supervisionSend _ _ => true
  | .prpLanTimeout _ _ => true
  | .hsrRingTimeout _ _ => true
  | .helloSend _ => true
  | .partnerHello _ => true
  | .partnerPropose _ => true
  | .partnerAccept _ => true
  | .partnerMirror _ => true
  | .evPartnerLink _ => true
  | .pairRoleTimeout _ => true
  | .dmaCompletionTimeout _ _ => true
  | .refAbsentTimeout _ => true
  | .syspllNolockTimeout _ => true
  | .teuWidthEnd _ _ => true
  | .announceReceiptTimeout _ _ => true
  | .ptpQualificationTimeout _ _ => true
  | .laneBlankInstant _ _ _ _ => true

end Sys2Proof
end

