-- ==== Sys2Proof/Safety.lean ====
section
/-!
DEFINITION. What a safe run is, and the conditions in whose terms the statements speak: memory in canonical form, a
start that has failed, what a cold reset leaves, and a command whose packet has been taken.
-/

namespace Sys2Proof

open Sys2Proof.Machine

/-- A state from which the next step answers a next state. -/
def StepsOn (s : State) : Prop := ∃ t, step s = .next t

/-- A state whose memory is in canonical form (R163, R164, R168). -/
def MemOk (s : State) : Prop := Memory.wf s.mem = true

/-- Every word outside the given addresses reads after as it did before. -/
def MemSame (s t : State) (except : Nat → Prop) : Prop := ∀ a, ¬ except a → memRaw t.mem a = memRaw s.mem a

/-- What every cold reset leaves (R75): fuses and flash kept, Anvil but for its key store, timebase, tables, contexts, parameters,
ownership, pins, chains and engines at their values after reset. -/
def AfterColdReset (s t : State) (kind : BitVec 4) : Prop :=
  t.start.kind = kind ∧ t.start.warm = false ∧ t.otp = s.otp ∧ t.flashA = s.flashA ∧ t.flashB = s.flashB ∧
    t.anvil = { store := t.anvil.store } ∧ t.quench = { region := s.quench.region } ∧ t.tb = {} ∧ t.mac.asnSet = false ∧
    t.timers = [] ∧ t.errLog = {} ∧ t.owners = [] ∧ t.locks = [] ∧ t.params = [] ∧ t.inForce = [] ∧ t.chains = [] ∧
    t.ctxs = [] ∧ t.engines = [] ∧ t.clk = {} ∧ t.pins = { gpioIn := t.pins.gpioIn, refclk := t.pins.refclk } ∧
    t.pending = s.pending

/-- What a power failure may spoil and every other reset keeps (R75): the NVS repair records and the key store. -/
def NvsKept (s t : State) : Prop := t.repairs = s.repairs ∧ t.anvil.store = s.anvil.store

/-- The start-failure state of R88 as it is entered: its phase, every site halted, the watchdog unarmed and no chain beyond its
reset state. -/
def Failed (s : State) : Prop :=
  s.start.phase = .failure ∧ s.wd.armed = false ∧ s.chains = [] ∧ ∀ n < 29, tblAt s.halted n false = true

/-- In the start-failure state the watchdog is unarmed and no chain transmits (R88): an invariant of every step. -/
def FailureHalts (s : State) : Prop := s.start.phase = .failure → s.wd.armed = false ∧ s.chains = []

/-- The two sources of R74 that leave the start-failure state (R88). -/
def leavesFailure : Instr → Bool
  | .powerOnReset _ _ => true
  | .rstNReset _ => true
  | _ => false

/-- The packet of a context's next command, taken for the row with this opcode and these lengths, with the state in which its
command executes. -/
def Took (dt : Nat) (hc : Hc) (op least most : Nat) (s : State) (p : Packet) (t : State) : Prop :=
  takePacket dt hc op least most s = .packet p t

/-- What a parameter write that is not refused leaves (R128, R131, R132, R147): each parameter that a writable pair names has the
value of its last pair, every other one its value of before; the leases that the context holds on the groups of the parameters named
run from now, each for its own length or for host.lock.lease, and no other lock changes. -/
def Wrote (u v : State) (hc : Hc) (vs : List (Nat × BitVec 64)) : Prop :=
  let named := fun g => ∃ e ∈ vs, (paramRow e.1).isSome = true ∧ groupOf e.1 = g
  (∀ pre id x post, vs = pre ++ (id, x) :: post → writable id = true → (∀ e ∈ post, e.1 ≠ id) → parStored v id = x) ∧
    (∀ id, writable id = true → (∀ e ∈ vs, e.1 ≠ id) → parStored v id = parStored u id) ∧
    (∀ g l, tblGet u.locks g = some l → l.hc = hc → named g →
      tblGet v.locks g = some { l with till := u.now + msC (if l.lease = 0 then par v 0x26 else l.lease) }) ∧
    (∀ g, (∀ l, tblGet u.locks g = some l → ¬ (l.hc = hc ∧ named g)) → tblGet v.locks g = tblGet u.locks g)

/-- A lane has given up its frame: it takes the oldest mark of its channel, keeping its context, or searches or follows (R272, R273). -/
def LaneFreed (v t : State) (k l : Nat) : Prop :=
  let x := laneOf (chanOf v k) l
  (∀ m ms, (chanOf v k).marks = m :: ms → (chanOf t k).marks = ms ∧
    let n := { m with pre := par v 0xA800 }
    laneOf (chanOf t k) l = { st := if x.ctx.isSome then .rewind else .locked, rewound := true, ctx := x.ctx, mark := some n,
                              freeAt := v.now, read := (n.mark - n.pre) * readUnit }) ∧
  ((chanOf v k).marks = [] → (laneOf (chanOf t k) l).mark = none ∧ (laneOf (chanOf t k) l).ctx = none ∧
    ((laneOf (chanOf t k) l).st = .search ∨ (laneOf (chanOf t k) l).st = .follow))

/-- A lane has abandoned its frame under a cause (R281): the band's counter of the cause is one higher, the context writes an abandon
segment where it has written one before or the check failed, and the lane is free. -/
def Abandons (v t : State) (b : Band) (k l cause : Nat) : Prop :=
  let x := laneOf (chanOf v k) l
  counter t (0x800 + cause + 32 * b.val) = min (2 ^ 64 - 1) (counter v (0x800 + cause + 32 * b.val) + 1) ∧ LaneFreed v t k l ∧
    ∀ c, x.ctx = some c → (x.fseq.isSome = true ∨ cause = 5) →
      ∃ y ∈ t.rx.tails, y.band = b ∧ y.ctx = c ∧ y.fseq = x.fseq ∧ y.octets = [] ∧ y.info = none

end Sys2Proof
end

