-- ==== Sys2Proof/Certificates/Slice0/Obligations.lean ====
section
/-!
DEFINITION. The statements for the provers: what the commands and events of the device do, rule by rule. Each is a
claim about `exec` or `step`; a completion statement names the conditions under which a row has its own effect.
-/

open Sys2Proof Sys2Proof.Machine

/-- O1 (00_scope.md (the device as a block that takes commands)). For every state whose queue holds a command c at
its front and a rest cs, the step is exec of c on the state with the queue cs. On an empty queue the step answers
the state one TIME clock cycle later, every other field unchanged: that idle tick is the model's choice (log 2). -/
def Obligations.StepTakesFrontCommand : Prop :=
  (∀ (s : State) (c : Instr) (cs : List Instr), s.pending = c :: cs → step s = exec c { s with pending := cs }) ∧
  (∀ s : State, s.pending = [] → ∃ t, step s = .next t ∧ t.now = s.now + 1 ∧
    t.tb.value = s.tb.value + BitVec.ofInt 120 (increment s.tb.rate) ∧ { t with now := s.now, tb := s.tb } = s)

/-- O2 (03_clocks_reset_start.md (R75), 02_package_pins_electrical.md (R37), 06_memory_integrity.md (R163),
15_time_timers.md (R486, R493)). In the state after reset the device is held in a power-on cold reset, no command
waits, the timebase is UNSET and counts from zero, every word of the word address space is invalid, every context
is DETACHED, no counter has counted, every GPIO is an input, no resource is held, the error log is empty, memory
is in canonical form, and the invariant of start failure holds. (The values that the model chose where the spec
gives none are in the assumption log and are not stated here.) -/
def Obligations.StateAfterReset : Prop :=
  State.reset.start.phase = .held ∧ State.reset.start.kind = 0 ∧ State.reset.pending = [] ∧ State.reset.tb.set = false ∧
  time State.reset = 0 ∧ (∀ a, decodePhys (memRaw State.reset.mem a) = .invalid) ∧
  (∀ hc, (ctx State.reset hc).st = 0) ∧ (∀ id, counter State.reset id = 0) ∧ State.reset.pins.gpioOe = 0 ∧
  (∀ k, tblGet State.reset.owners k = none) ∧ logHeld State.reset.errLog = 0 ∧ State.reset.clk.ref = .notQualified ∧ FailureHalts State.reset ∧ MemOk State.reset

/-- O3 (R49, R51, R62, R70, R74, R75, R95). POWER_ON_RESET in every state, RST_N_RESET in every state but a thermal
trip, THERMAL_TRIP once the readings have stood at 120 °C or above for 1 ms out of reset, and CLOCK_FAULT while
SYSPLL is locked out of reset, each answer a next state that stands as a cold reset leaves it, with the kind of
the source. Power-on also loses the SRAMs' words, the starts and the watchdog bites counted and the TAP's state,
counts the rails' 1 ms from then, and keeps the repair records and the key store where no write of either is in
progress; the others keep them in any case, and the starts counted. -/
def Obligations.ColdResetSources : Prop :=
  (∀ (dt cut : Nat) (s : State), ∃ t, exec (.powerOnReset dt cut) s = .next t ∧ AfterColdReset s t 0 ∧ t.start.phase = .held ∧
    t.start.starts = 0 ∧ t.start.bites = [] ∧ t.start.railsAt = s.now + dt ∧ t.mem = [] ∧ t.tap = {} ∧
    (s.scrub.recordTill ≤ s.now + dt → keyInWork s = none → s.anvil.revoking = none → NvsKept s t)) ∧
  (∀ (dt : Nat) (s : State), s.start.phase ≠ .tripped → ∃ t, exec (.rstNReset dt) s = .next t ∧ AfterColdReset s t 1 ∧
    t.start.phase = .held ∧ t.start.starts = s.start.starts ∧ NvsKept s t) ∧
  (∀ (dt : Nat) (s : State) (h : Nat), s.temp.hotFrom = some h → h + msC 1 ≤ s.now + dt → outOfReset s = true →
    ∃ t, exec (.thermalTrip dt) s = .next t ∧ AfterColdReset s t 2 ∧ t.start.phase = .tripped ∧
      t.start.starts = s.start.starts ∧ NvsKept s t) ∧
  (∀ (dt : Nat) (s : State), outOfReset s = true → s.clk.sysPll = true →
    ∃ t, exec (.clockFault dt) s = .next t ∧ AfterColdReset s t 3 ∧ t.start.phase = .held ∧
      t.start.starts = s.start.starts ∧ NvsKept s t)

/-- O4 (R87, R89, R529, R533, R74). START_TIMEOUT, once the start timer of 5 s (cold) or 1 s (warm) has expired in a
start, takes a cold reset of kind 4 whose detail is the overrunning step; in a start that is itself of kind 4 it
enters the start-failure state with FAIL_CODE 7 and that step. REF_ABSENT_TIMEOUT 100 ms after the end of reset
and SYSPLL_NOLOCK_TIMEOUT 1 ms after cleaner lock enter it with FAIL_CODE 1 and 2. ACTIVATION_RESTART and
PROBATION_COLD_RESTART, when due out of reset, take a cold reset of kind 5. Each of these cold resets keeps the
repair records and the key store. -/
def Obligations.ColdResetTimers : Prop :=
  (∀ (dt : Nat) (s : State), s.start.phase = .starting → s.start.since + secC (if s.start.warm then 1 else 5) ≤ s.now + dt →
    ∃ t, exec (.startTimeout dt) s = .next t ∧
      (s.start.kind = 4 → Failed t ∧ t.start.failCode = 7 ∧ t.start.detail.toNat = startStep s) ∧
      (s.start.kind ≠ 4 → AfterColdReset s t 4 ∧ NvsKept s t ∧ t.start.phase = .held ∧ t.start.kindDetail.toNat = startStep s)) ∧
  (∀ (dt : Nat) (s : State), s.start.phase = .starting → s.start.warm = false → s.start.stage = .refQual →
    s.start.since + msC 100 ≤ s.now + dt → ∃ t, exec (.refAbsentTimeout dt) s = .next t ∧ Failed t ∧ t.start.failCode = 1) ∧
  (∀ (dt : Nat) (s : State), s.start.phase = .starting → s.start.stage = .pllLock → s.start.stageAt + msC 1 ≤ s.now + dt →
    ∃ t, exec (.syspllNolockTimeout dt) s = .next t ∧ Failed t ∧ t.start.failCode = 2) ∧
  (∀ (dt : Nat) (s : State) (x : Nat), s.update.restartAt = some x → x ≤ s.now + dt → outOfReset s = true →
    ∃ t, exec (.activationRestart dt) s = .next t ∧ AfterColdReset s t 5 ∧ NvsKept s t ∧ t.start.phase = .held) ∧
  (∀ (dt : Nat) (s : State) (x : Nat), s.update.expired = some x → x ≤ s.now + dt → outOfReset s = true →
    ∃ t, exec (.probationColdRestart dt) s = .next t ∧ AfterColdReset s t 5 ∧ NvsKept s t ∧ t.start.phase = .held)

/-- O5 (R79). When the armed watchdog's count expires outside the start-failure state, the bites counted are the new
one and those less than 60 s old. If they are three or more, WATCHDOG_BITE answers a cold reset of kind 6;
otherwise it answers a warm start of kind 8 in which the engines and receivers stand at their values after reset. -/
def Obligations.ThirdWatchdogBiteIsCold : Prop :=
  ∀ (dt : Nat) (s : State), s.wd.armed = true → s.wd.since + msC 250 ≤ s.now + dt → s.start.phase ≠ .failure →
    let bites := (s.now + dt) :: s.start.bites.filter (fun b => decide (s.now + dt < b + secC 60))
    ∃ t, exec (.watchdogBite dt) s = .next t ∧
      (3 ≤ bites.length → AfterColdReset s t 6 ∧ t.start.phase = .held ∧ t.start.bites = bites) ∧
      (bites.length < 3 → t.start.phase = .starting ∧ t.start.stage = .fuse ∧ t.start.warm = true ∧ t.start.kind = 8 ∧
        t.engines = [] ∧ t.halted = [] ∧ t.rx = {} ∧ t.fifos = [] ∧ t.wd = {})

/-- O6 (R41, R43, R44, R49, R62, R76, R95). RESET_RELEASE of a held device whose rails have been good for 1 ms,
TAP_RESET_HOLD_RELEASE of a device that the TAP holds, and THERMAL_TRIP_RELEASE once the highest reading lies
below 100 °C, answer a starting device whose straps are GPIO7 to GPIO0 as sampled, at the stage that qualifies
REF_IN, a lane of an endpoint that its strap does not enable standing in electrical idle. While the TAP
instruction is EXTEST, CLAMP or HIGHZ, RESET_RELEASE leaves the device held by the TAP with the boundary-scan
cells shifted in. In any other phase, and before the rails have been good for 1 ms, RESET_RELEASE changes nothing
but the time. -/
def Obligations.ResetEndSamplesStraps : Prop :=
  (∀ (dt rails : Nat) (ir : BitVec 5) (cells : BitVec 159) (g : BitVec 32) (s : State), s.start.phase = .held →
    msC 1 ≤ rails → s.start.railsAt + rails ≤ s.now + dt →
    ∃ t, exec (.resetRelease dt ir cells g rails) s = .next t ∧ t.tap.ir = ir ∧ t.tap.cells = cells ∧
      (tapHolds ir = true → t.start.phase = .tapHeld ∧ t.start.straps = s.start.straps) ∧
      (tapHolds ir = false → t.start.phase = .starting ∧ t.start.stage = .refQual ∧ t.start.straps = g.setWidth 8 ∧
        t.start.since = s.now + dt ∧ (∀ e : Fin 2, t.pins.pcieIdle.getLsbD e.val = !g.getLsbD (3 + e.val)))) ∧
  (∀ (dt rails : Nat) (ir : BitVec 5) (cells : BitVec 159) (g : BitVec 32) (s : State),
    s.start.phase ≠ .held ∨ rails < msC 1 ∨ s.now + dt < s.start.railsAt + rails →
    exec (.resetRelease dt ir cells g rails) s = .next (advance dt s)) ∧
  (∀ (dt : Nat) (ir : BitVec 5) (g : BitVec 32) (s : State), s.start.phase = .tapHeld → tapReleases s ir = true →
    ∃ t, exec (.tapResetHoldRelease dt ir g) s = .next t ∧ t.start.phase = .starting ∧ t.start.stage = .refQual ∧
      t.start.straps = g.setWidth 8) ∧
  (∀ (dt : Nat) (t0 t1 t2 t3 : BitVec 12) (g : BitVec 32) (s : State), s.start.phase = .tripped → tapHolds s.tap.ir = false →
    t0.toInt < 1600 → t1.toInt < 1600 → t2.toInt < 1600 → t3.toInt < 1600 →
    ∃ t, exec (.thermalTripRelease dt t0 t1 t2 t3 g) s = .next t ∧ t.start.phase = .starting ∧ t.start.stage = .refQual ∧
      t.start.straps = g.setWidth 8 ∧ t.temp.t0 = t0 ∧ t.temp.t1 = t1 ∧ t.temp.t2 = t2 ∧ t.temp.t3 = t3)

/-- O7 (R66, R67, R68, R69, R89). While the reference checks run: REF_GLITCH adds one to REF_GLITCH (saturating) and
the eighth glitch within 1 ms puts a locked cleaner into holdover; REF_PRESENCE_LOSS puts a locked cleaner into
holdover from that instant; REF_RANGE_WINDOW beyond ±100 ppm does the same, and one within it begins
requalification in holdover. REF_REQUALIFIED after ref.requal.time begins the slew, EV_REF_RESTORED ends it in
lock with the limit cleared, and EV_REF_HOLDOVER_LIMIT after ref.holdover.limit sets the limit. -/
def Obligations.ReferenceSupervision : Prop :=
  (∀ (dt : Nat) (s : State), refChecked s = true → ∃ t, exec (.refGlitch dt) s = .next t ∧ t.clk.glitch = sat32 s.clk.glitch ∧
    (s.clk.ref = .locked → 7 ≤ (s.clk.glitchAt.filter (fun g => decide (s.now + dt < g + msC 1))).length →
      t.clk.ref = .holdover)) ∧
  (∀ (dt : Nat) (s : State), refChecked s = true → s.clk.ref = .locked →
    ∃ t, exec (.refPresenceLoss dt) s = .next t ∧ t.clk.ref = .holdover ∧ t.clk.holdoverFrom = s.now + dt) ∧
  (∀ (dt : Nat) (ppm : Int) (s : State), refChecked s = true → s.clk.ref = .locked → (ppm < -100 ∨ 100 < ppm) →
    ∃ t, exec (.refRangeWindow dt ppm) s = .next t ∧ t.clk.ref = .holdover ∧ t.clk.holdoverFrom = s.now + dt) ∧
  (∀ (dt : Nat) (ppm : Int) (s : State), refChecked s = true → s.clk.ref = .holdover → -100 ≤ ppm → ppm ≤ 100 →
    ∃ t, exec (.refRangeWindow dt ppm) s = .next t ∧ t.clk.ref = .requal ∧ t.clk.requalFrom = s.now + dt) ∧
  (∀ (dt : Nat) (s : State), s.clk.ref = .requal → s.clk.requalFrom + msC (par s 0x10) ≤ s.now + dt →
    ∃ t, exec (.refRequalified dt) s = .next t ∧ t.clk.ref = .slew) ∧
  (∀ (dt : Nat) (s : State), s.clk.ref = .slew →
    ∃ t, exec (.evRefRestored dt) s = .next t ∧ t.clk.ref = .locked ∧ t.clk.limit = false) ∧
  (∀ (dt : Nat) (s : State), (s.clk.ref = .holdover ∨ s.clk.ref = .requal) → s.clk.limit = false → par s 0x11 ≠ 0 →
    s.clk.holdoverFrom + secC (par s 0x11) ≤ s.now + dt →
    ∃ t, exec (.evRefHoldoverLimit dt) s = .next t ∧ t.clk.limit = true)

/-- O8 (R70). CLOCK_FAULT, raised when a locked SYSPLL of a device out of reset has lost lock for 10 µs, answers a
cold reset of kind clock fault. Every next state of REF_GLITCH, REF_PRESENCE_LOSS and REF_RANGE_WINDOW has
SYSPLL's lock as it was, and changes nothing but the cleaner, the start's stage, and the events on their way. -/
def Obligations.LossOfRefNeverUnlocksSyspll : Prop :=
  (∀ (dt : Nat) (s : State), outOfReset s = true → s.clk.sysPll = true →
    ∃ t, exec (.clockFault dt) s = .next t ∧ AfterColdReset s t 3) ∧
  (∀ (dt : Nat) (ppm : Int) (s t : State) (c : Instr), c ∈ [Instr.refGlitch dt, .refPresenceLoss dt, .refRangeWindow dt ppm] →
    exec c s = .next t → t.clk.sysPll = s.clk.sysPll ∧ t.start.phase = s.start.phase ∧
      t = { advance dt s with clk := t.clk, start := t.start, evOut := t.evOut, routes := t.routes, latches := t.latches })

/-- O9 (R62, R78, R210, R74). TEMP_SENSOR_READING stores the four readings; where commands are served and their
maximum reaches dev.thermal.warn while EV_TEMP_HIGH may be raised, the event may not be raised again until
rearmed, and a maximum 5 °C below the threshold rearms it. WDT_KICK of a running core while every heartbeat is
fresh notes the kick, and the second core's kick restarts the count. ENGINE_HEARTBEAT of a running engine
advances its heartbeat by one. TAP_RESET resets the TAP only. -/
def Obligations.TemperatureAndEngines : Prop :=
  (∀ (dt : Nat) (t0 t1 t2 t3 : BitVec 12) (s : State), ∃ t, exec (.tempSensorReading dt t0 t1 t2 t3) s = .next t ∧
    t.temp.t0 = t0 ∧ t.temp.t1 = t1 ∧ t.temp.t2 = t2 ∧ t.temp.t3 = t3 ∧
    (serving s = true → s.temp.armed = true → (16 * (par s 0x0C00 : Int) ≤ (tempMax t).1.toInt) → t.temp.armed = false) ∧
    (serving s = true → (tempMax t).1.toInt ≤ 16 * ((par s 0x0C00 : Int) - 5) → t.temp.armed = true)) ∧
  (∀ (dt : Nat) (core : Fin 2) (s : State), s.wd.armed = true → engineRuns s core.val = true →
    heartbeatsFresh (advance dt s) = true →
    ∃ t, exec (.wdtKick dt core) s = .next t ∧
      ((core = 0 → s.wd.kick1 = false) → (core = 1 → s.wd.kick0 = false) →
        t.wd.since = s.wd.since ∧ (core = 0 → t.wd.kick0 = true) ∧ (core = 1 → t.wd.kick1 = true)) ∧
      ((core = 0 ∧ s.wd.kick1 = true) ∨ (core = 1 ∧ s.wd.kick0 = true) →
        t.wd.since = s.now + dt ∧ t.wd.kick0 = false ∧ t.wd.kick1 = false)) ∧
  (∀ (dt : Nat) (e : Fin 26) (s : State), running s = true → engineRuns s e.val = true →
    ∃ t, exec (.engineHeartbeat dt e) s = .next t ∧ (engine t e.val).heartbeat = (engine s e.val).heartbeat + 1 ∧
      (engine t e.val).beatAt = s.now + dt) ∧
  (∀ (dt : Nat) (s : State), exec (.tapReset dt) s = .next { advance dt s with tap := {} })

/-- O10 (R45, R20, R167, R168, R170, logs 9, 46, 200). While ENG_DEBUG is offered and the site is 0 to 28, each
operation answers a next state whose data register names it and is DONE, with HALTED as the site stands. Halt and
resume set and clear the halt; a single step of a halted site makes its registers new. A local read captures the
data of a readable word, corrected where need be, and zero for a word not valid that no engine keeps; a local
write stores the word. A register write to a halted site is kept, and a register read of one captures what was
written since the engine last ran (a value nobody has written is free, log 9). No operation changes a word but
the one written, save that a read poisons a word it finds uncorrectable (R170), nor any other part of the device
but the counts of its reads and its own record of draws. -/
def Obligations.DebugPortReachesSites : Prop :=
  (∀ (dt : Nat) (n : BitVec 5) (s : State), debugOpen s = true → n.toNat ≤ 28 →
    (∃ t, exec (.engDebugStatus dt n) s = .next t ∧ t.tap.site = n ∧ t.tap.op = 0 ∧ t.tap.done = true ∧
      t.tap.halted = tblAt s.halted n.toNat false) ∧
    (∃ t, exec (.engDebugHalt dt n) s = .next t ∧ t.tap.site = n ∧ t.tap.op = 1 ∧ t.tap.done = true ∧ t.tap.halted = true ∧
      tblAt t.halted n.toNat false = true) ∧
    (keysRise 0 s.halted = true → ∃ t, exec (.engDebugResume dt n) s = .next t ∧ t.tap.site = n ∧ t.tap.op = 2 ∧
      t.tap.done = true ∧ t.tap.halted = false ∧ tblAt t.halted n.toNat false = false) ∧
    (tblAt s.halted n.toNat false = true → ∃ t, exec (.engDebugSingleStep dt n) s = .next t ∧ t.tap.site = n ∧ t.tap.op = 3 ∧
      t.tap.done = true ∧ t.tap.halted = true ∧ tblAt t.engEpoch n.toNat 0 = tblAt s.engEpoch n.toNat 0 + 1)) ∧
  (∀ (dt : Nat) (n : BitVec 5) (a : BitVec 14) (d : Word) (s : State), debugOpen s = true → n.toNat ≤ 28 →
    let x := localAddr n.toNat a.toNat
    let reads : BitVec 3 → State → Prop := fun op t => t.tap.site = n ∧ t.tap.addr = a ∧ t.tap.op = op ∧ t.tap.done = true ∧
      t.tap.halted = tblAt s.halted n.toNat false
    (∃ t, exec (.engDebugReadLocal dt n a) s = .next t ∧ reads 4 t ∧
      (∀ v, decodePhys (memRaw s.mem x) = .clean v ∨ decodePhys (memRaw s.mem x) = .corrected v → t.tap.data = v) ∧
      (decodePhys (memRaw s.mem x) = .invalid → s.engines = [] → t.tap.data = 0)) ∧
    (∃ t, exec (.engDebugWriteLocal dt n a d) s = .next t ∧ reads 5 t ∧ t.tap.data = d ∧ memRaw t.mem x = physOf d) ∧
    (∃ t, exec (.engDebugReadRegister dt n a) s = .next t ∧ reads 6 t ∧ (tblAt s.halted n.toNat false = true →
      ∀ v, tblGet s.engRegs (16384 * n.toNat + a.toNat) = some v → t.tap.data = v)) ∧
    (∃ t, exec (.engDebugWriteRegister dt n a d) s = .next t ∧ reads 7 t ∧ t.tap.data = d ∧
      (tblAt s.halted n.toNat false = true → tblGet t.engRegs (16384 * n.toNat + a.toNat) = some d))) ∧
  (∀ (dt : Nat) (n : BitVec 5) (a : BitVec 14) (d : Word) (s t : State) (c : Instr),
    c ∈ [Instr.engDebugStatus dt n, .engDebugHalt dt n, .engDebugResume dt n, .engDebugSingleStep dt n,
      .engDebugReadLocal dt n a, .engDebugWriteLocal dt n a d, .engDebugReadRegister dt n a, .engDebugWriteRegister dt n a d] →
    exec c s = .next t →
    t = { advance dt s with tap := t.tap, halted := t.halted, engRegs := t.engRegs, engEpoch := t.engEpoch, mem := t.mem,
                            freeCtr := t.freeCtr, counters := t.counters } ∧
      MemSame s t (fun x => x = localAddr n.toNat a.toNat ∧
        (c = .engDebugWriteLocal dt n a d ∨ (c = .engDebugReadLocal dt n a ∧ decodePhys (memRaw s.mem x) = .bad))))

/-- O11 (R45, R90). While the DEBUG_LOCK field of the fuses is not zero, each of the eight ENG_DEBUG rows answers the
state with nothing but time advanced. -/
def Obligations.DebugLockClosesPort : Prop :=
  ∀ (dt : Nat) (n : BitVec 5) (a : BitVec 14) (d : Word) (s : State) (c : Instr), fld s.otp 2322 2315 ≠ 0 →
    c ∈ [Instr.engDebugStatus dt n, .engDebugHalt dt n, .engDebugResume dt n, .engDebugSingleStep dt n,
      .engDebugReadLocal dt n a, .engDebugWriteLocal dt n a d, .engDebugReadRegister dt n a, .engDebugWriteRegister dt n a d] →
    exec c s = .next (advance dt s)

/-- O12 (R80, R104, R108, R130, R133). PCIE_PERST, PCIE_LINK_DOWN and HSPI_INACTIVITY_TIMEOUT of an attachment whose
context is attached, while commands are served, answer a state in which that context is attached no more, has no
open transaction and holds no lock. On a DETACHED context the PCIe rows only advance time. HOST_RESET does the
same for its own context. -/
def Obligations.LinkLossResetsContext : Prop :=
  (∀ (dt : Nat) (e : Fin 2) (hc : Hc) (s : State), ctxOf s (.pcie e) = some hc → (ctx s hc).st = 1 → serving s = true →
    ∀ c ∈ [Instr.pciePerst dt e, .pcieLinkDown dt e], ∃ t, exec c s = .next t ∧ (ctx t hc).st ≠ 1 ∧ (ctx t hc).txn = none ∧
      ∀ l ∈ t.locks, l.2.hc ≠ hc) ∧
  (∀ (dt : Nat) (e : Fin 2) (hc : Hc) (s : State), ctxOf s (.pcie e) = some hc → (ctx s hc).st = 0 →
    ∀ c ∈ [Instr.pciePerst dt e, .pcieLinkDown dt e], exec c s = .next (advance dt s)) ∧
  (∀ (dt : Nat) (p : Fin 4) (hc : Hc) (s : State) (x : Nat), ctxOf s (.hspi p) = some hc → (ctx s hc).st = 1 →
    serving s = true → (ctx s hc).hspiSince = some x → hspiDataPort s p = false → par s 0x24 ≠ 0 →
    x + msC (par s 0x24) ≤ s.now + dt →
    ∃ t, exec (.hspiInactivityTimeout dt p) s = .next t ∧ (ctx t hc).st ≠ 1 ∧ (ctx t hc).txn = none ∧ ∀ l ∈ t.locks, l.2.hc ≠ hc) ∧
  (∀ (dt : Nat) (hc : Hc) (s u : State) (p : Packet), Took dt hc 0x003 0 0 s p u →
    ∃ t, exec (.hostReset dt hc) s = .next t ∧ (ctx t hc).st ≠ 1 ∧ (ctx t hc).txn = none ∧ ∀ l ∈ t.locks, l.2.hc ≠ hc)

/-- O13 (R74, R122, R138, R171, R173). DEVICE_RESTART with its cold flag takes a cold reset of kind 5, and without it
a warm start of kind 9. POISON_TRAP of a running ME or DV on a poisoned SHM word, with MC0 running, takes a
firmware cold restart where the trap record names the word in an entry of the last 60 s, and a warm one
otherwise. A word of the packet with a reserved bit set is undefined host action 8. -/
def Obligations.RestartRequests : Prop :=
  (∀ (dt : Nat) (hc : Hc) (s u : State) (p : Packet), Took dt hc 0x002 1 0 s p u → reservedSet (p.word 1) (bits 0 0) = false →
    ∃ t, exec (.deviceRestart dt hc) s = .next t ∧
      ((p.word 1).getLsbD 0 = true → u.start.phase ≠ .failure → AfterColdReset u t 5 ∧ t.start.phase = .held) ∧
      ((p.word 1).getLsbD 0 = false → t.start.phase = .starting ∧ t.start.stage = .fuse ∧ t.start.warm = true ∧
        t.start.kind = 9 ∧ t.engines = [] ∧ t.rx = {} ∧ t.wd = {})) ∧
  (∀ (dt : Nat) (hc : Hc) (s u : State) (p : Packet), Took dt hc 0x002 1 0 s p u → reservedSet (p.word 1) (bits 0 0) = true →
    exec (.deviceRestart dt hc) s = .fault (.undefinedHostAction 8)) ∧
  (∀ (dt : Nat) (e : Fin 26) (a : BitVec 23) (s : State), running s = true → 2 ≤ e.val → engineRuns s e.val = true →
    engineRuns s 0 = true → a.toNat < 0x200000 → decodePhys (memRaw s.mem a.toNat) = .poisoned →
    ∃ t, exec (.poisonTrap dt e a) s = .next t ∧
      (trapRecent (advance dt s) a.toNat = true → t.start.phase = .held ∧ t.start.kind = 5 ∧ t.start.warm = false) ∧
      (trapRecent (advance dt s) a.toNat = false → t.start.phase = .starting ∧ t.start.kind = 9 ∧ t.start.warm = true))

/-- O14 (R77, R101, R109, R113, R114, R134, R139, R158, R569 (action 5)). From the attachment bound to a context,
while the direct registers are served: a doorbell of an ATTACHED context within 1,024 words moves its SQ tail (in
a warm start it is latched); a doorbell while DETACHED or DRAINING is counted in HCn_DB_IGNORED and leaves the
tail; HCn_CQ_HEAD and HCn_EQ_HEAD advanced no further than their tails take the value, the latter rearming vector
1 and ending an overflow episode; ATTACH makes a DETACHED bound context ATTACHED. From any other attachment each
write is ignored. A tail too far ahead is undefined host action 5. -/
def Obligations.RingIndexWrites : Prop :=
  (∀ (dt : Nat) (att : Att) (hc : Hc) (v : BitVec 32) (s : State), regsServed s = true → ctxOf s att = some hc → v.toNat < 2048 →
    ((ctx s hc).st = 1 → indexAhead (ctx s hc).sqHead ((ctx s hc).latched.getD (ctx s hc).sqTail) (v.setWidth 11) 1024 = true →
      ∃ t, exec (.sqDoorbell dt att hc v) s = .next t ∧
        (serving s = true → (ctx t hc).sqTail = v.setWidth 11) ∧
        (serving s = false → (ctx t hc).latched = some (v.setWidth 11) ∧ (ctx t hc).sqTail = (ctx s hc).sqTail)) ∧
    ((ctx s hc).st = 1 → indexAhead (ctx s hc).sqHead ((ctx s hc).latched.getD (ctx s hc).sqTail) (v.setWidth 11) 1024 = false →
      exec (.sqDoorbell dt att hc v) s = .fault (.undefinedHostAction 5)) ∧
    ((ctx s hc).st ≠ 1 → ∃ t, exec (.sqDoorbell dt att hc v) s = .next t ∧ (ctx t hc).sqTail = (ctx s hc).sqTail ∧
      (ctx t hc).dbIgnored = sat32 (ctx s hc).dbIgnored)) ∧
  (∀ (dt : Nat) (att : Att) (hc : Hc) (v : BitVec 32) (s : State), regsServed s = true → ctxOf s att = some hc → v.toNat < 2048 →
    (v.setWidth 11 - (ctx s hc).cqHead).toNat ≤ ((ctx s hc).cqTail - (ctx s hc).cqHead).toNat →
    ∃ t, exec (.cqHeadWrite dt att hc v) s = .next t ∧ (ctx t hc).cqHead = v.setWidth 11 ∧
      (v.setWidth 11 ≠ (ctx s hc).cqHead → (ctx s hc).st ≠ 2 → (ctx t hc).vec0 = true)) ∧
  (∀ (dt : Nat) (att : Att) (hc : Hc) (v : BitVec 32) (s : State), regsServed s = true → ctxOf s att = some hc → v.toNat < 1024 →
    (v.setWidth 10 - (ctx s hc).eqHead).toNat ≤ ((ctx s hc).eqTail - (ctx s hc).eqHead).toNat →
    ∃ t, exec (.eqHeadWrite dt att hc v) s = .next t ∧ (ctx t hc).eqHead = v.setWidth 10 ∧ t = { advance dt s with ctxs := t.ctxs } ∧
      (v.setWidth 10 ≠ (ctx s hc).eqHead → (ctx t hc).vec1 = true ∧ (ctx t hc).eqFull = false)) ∧
  (∀ (dt : Nat) (att : Att) (hc : Hc) (v : BitVec 32) (s : State), regsServed s = true → ctxOf s att = some hc → v.toNat < 256 →
    v.getLsbD 2 = true → (ctx s hc).st = 0 → bound s hc = true →
    ∃ t, exec (.hcAttach dt att hc v) s = .next t ∧ (ctx t hc).st = 1 ∧ t = { advance dt s with ctxs := t.ctxs }) ∧
  (∀ (dt : Nat) (att : Att) (hc : Hc) (v : BitVec 32) (s : State), ctxOf s att ≠ some hc →
    ∀ c ∈ [Instr.sqDoorbell dt att hc v, .cqHeadWrite dt att hc v, .eqHeadWrite dt att hc v, .hcAttach dt att hc v],
      exec c s = .next (advance dt s))

/-- O15 (R143). From an attachment bound to a context, each bit of GPIO_OUT (or GPIO_OE) of a pin that the context
holds with the GPIO function takes the written bit; every other bit, every other register and all else keep their
values; from an unbound attachment nothing changes. GPIO_IN reads every pin's level as it stands at the read,
whoever holds it. -/
def Obligations.GpioWritesReachHeldPins : Prop :=
  (∀ (dt : Nat) (att : Att) (hc : Hc) (v : BitVec 32) (s : State), regsServed s = true → ctxOf s att = some hc →
    ∃ t, exec (.gpioOutWrite dt att v) s = .next t ∧
      t = { advance dt s with pins := { s.pins with gpioOut := t.pins.gpioOut } } ∧
      ∀ n < 32, t.pins.gpioOut.getLsbD n =
        if owns s hc 5 n && tblAt s.pins.fn n .gpio == .gpio then v.getLsbD n else s.pins.gpioOut.getLsbD n) ∧
  (∀ (dt : Nat) (att : Att) (hc : Hc) (v : BitVec 32) (s : State), regsServed s = true → ctxOf s att = some hc →
    ∃ t, exec (.gpioOeWrite dt att v) s = .next t ∧
      t = { advance dt s with pins := { s.pins with gpioOe := t.pins.gpioOe } } ∧
      ∀ n < 32, t.pins.gpioOe.getLsbD n =
        if owns s hc 5 n && tblAt s.pins.fn n .gpio == .gpio then v.getLsbD n else s.pins.gpioOe.getLsbD n) ∧
  (∀ (dt : Nat) (att : Att) (v : BitVec 32) (s : State), ctxOf s att = none →
    exec (.gpioOutWrite dt att v) s = .next (advance dt s) ∧ exec (.gpioOeWrite dt att v) s = .next (advance dt s)) ∧
  (∀ (s : State) (n : Nat), n < 32 → (readReg s 0x60).2.getLsbD n = gpioLevel (readReg s 0x60).1 n)

/-- O16 (R142). While the direct registers are served, HC_TIME_SNAPSHOT through an attachment that can carry it sends
bits [31:0] of the 72-bit time at the read, latches bits [63:32] and [71:64] where HCn_TIME1 and HCn_TIME2 read
them, and leaves every other context and all else as it was. -/
def Obligations.TimeSnapshotIsPerContext : Prop :=
  ∀ (dt : Nat) (att : Att) (hc : Hc) (s : State), regsServed s = true → attachmentOn s att = true →
    let now := time (advance dt s)
    ∃ t, exec (.hcTimeSnapshot dt att hc) s = .next t ∧
      t.out = s.out ++ [.register att (now.extractLsb' 0 32)] ∧
      (readHcReg t hc 0x2C).2 = now.extractLsb' 32 32 ∧ (readHcReg t hc 0x30).2 = (now.extractLsb' 64 8).setWidth 32 ∧
      (∀ other, other ≠ hc → ctx t other = ctx s other) ∧ t = { advance dt s with ctxs := t.ctxs, out := t.out }

/-- O17 (R9, R101, R130, R134, R139, R140, R144, R158, R569 (action 9)). Through an attachment that can carry
anything, while the direct registers are served: HC_DB_IGNORED_READ and HC_EQ_LOST_READ send the count and clear
it. IRQ_LATCH_CLEAR of the pin's holder clears the bits written as 1; of any other context it is ignored.
REGISTER_WRITE to a read-only register below 0x60 is ignored, and at a reserved offset it is undefined host
action 9. CQ_COALESCE_EXPIRY signals vector 0 of the bound, enabled endpoint once the delay is due.
LOCK_LEASE_EXPIRY of an expired lease, while commands are served, releases every lock of the context and discards
its transaction. -/
def Obligations.RegisterSideEffects : Prop :=
  (∀ (dt : Nat) (att : Att) (hc : Hc) (s : State), regsServed s = true → attachmentOn s att = true →
    (∃ t, exec (.hcDbIgnoredRead dt att hc) s = .next t ∧ t.out = s.out ++ [.register att (ctx s hc).dbIgnored] ∧
      (ctx t hc).dbIgnored = 0) ∧
    (∃ t, exec (.hcEqLostRead dt att hc) s = .next t ∧ t.out = s.out ++ [.register att (ctx s hc).eqLost] ∧
      (ctx t hc).eqLost = 0)) ∧
  (∀ (dt : Nat) (att : Att) (pin : Fin 4) (k : Fin 8) (v : BitVec 32) (hc : Hc) (s : State), regsServed s = true →
    ctxOf s att = some hc →
    (owns s hc 5 (52 + pin.val) = true → ∃ t, exec (.irqLatchClear dt att pin k v) s = .next t ∧
      tblAt t.latches (8 * pin.val + k.val) 0 = tblAt s.latches (8 * pin.val + k.val) 0 &&& ~~~v ∧
      t = { advance dt s with latches := t.latches }) ∧
    (owns s hc 5 (52 + pin.val) = false → exec (.irqLatchClear dt att pin k v) s = .next (advance dt s))) ∧
  (∀ (dt : Nat) (att : Att) (o : BitVec 16) (v : BitVec 32) (s : State), regsServed s = true → attachmentOn s att = true →
    (isRegister o.toNat = true → o.toNat < 0x60 → exec (.registerWrite dt att o v) s = .next (advance dt s)) ∧
    (isRegister o.toNat = false → exec (.registerWrite dt att o v) s = .fault (.undefinedHostAction 9))) ∧
  (∀ (dt : Nat) (hc : Hc) (e : Fin 2) (x : Nat) (s : State), regsServed s = true → (ctx s hc).coalesce = some x → x ≤ s.now + dt →
    pcieOf (bindOf s hc) = some e → endpointOn s e = true → ∃ t, exec (.cqCoalesceExpiry dt hc) s = .next t ∧ (ctx t hc).coalesce = none ∧
      t.out = s.out ++ [.msix e 0]) ∧
  (∀ (dt : Nat) (hc : Hc) (s : State) (l : Nat × Lock), serving s = true → l ∈ s.locks → l.2.hc = hc → l.2.till ≤ s.now + dt →
    ∃ t, exec (.lockLeaseExpiry dt hc) s = .next t ∧ (∀ m ∈ t.locks, m.2.hc ≠ hc) ∧ (ctx t hc).txn = none)

/-- O18 (R23, R33). Of a bound endpoint while SHM is served, with a byte of 0 to 8 enabled, on a word the context may
write: a write that covers bytes 0 to 8 stores the word; a partial write of a readable word keeps the octets not
written, those of a word that is not valid being zero, and the word becomes valid; a partial write of a poisoned
word is discarded, the word staying poisoned, and counted; a poisoned write TLP is discarded and counted, memory
unchanged. No write changes any other word, and bytes 9 to 15 are ignored. -/
def Obligations.Bar2WritesWholeWordsOrOctets : Prop :=
  ∀ (dt : Nat) (e : Fin 2) (a : BitVec 21) (en : BitVec 16) (d : BitVec 128) (hc : Hc) (s : State), ctxOf s (.pcie e) = some hc →
    shmServed s = true → en.setWidth 9 ≠ 0 →
    (shmWriteUndef s hc a.toNat (en.setWidth 9 == BitVec.allOnes 9) = none →
      (en.setWidth 9 = BitVec.allOnes 9 →
        ∃ t, exec (.bar2Write dt e a en d false) s = .next t ∧ memRaw t.mem a.toNat = physOf (d.setWidth 72)) ∧
      (en.setWidth 9 ≠ BitVec.allOnes 9 →
        (∀ old, decodePhys (memRaw s.mem a.toNat) = .clean old ∨ decodePhys (memRaw s.mem a.toNat) = .corrected old →
          ∃ t, exec (.bar2Write dt e a en d false) s = .next t ∧ ∃ new, memRaw t.mem a.toNat = physOf new ∧
            ∀ k < 9, octetOf new k = if en.getLsbD k then (d >>> (8 * k)).setWidth 8 else octetOf old k) ∧
        (decodePhys (memRaw s.mem a.toNat) = .invalid →
          ∃ t, exec (.bar2Write dt e a en d false) s = .next t ∧ ∃ new, memRaw t.mem a.toNat = physOf new ∧
            ∀ k < 9, octetOf new k = if en.getLsbD k then (d >>> (8 * k)).setWidth 8 else 0) ∧
        (decodePhys (memRaw s.mem a.toNat) = .poisoned →
          ∃ t, exec (.bar2Write dt e a en d false) s = .next t ∧ t.mem = s.mem ∧
            counter t 0x10E = min (2 ^ 64 - 1) (counter s 0x10E + 1)))) ∧
    (∃ t, exec (.bar2Write dt e a en d true) s = .next t ∧ t.mem = s.mem ∧
      counter t 0x10F = min (2 ^ 64 - 1) (counter s 0x10F + 1)) ∧
    (∀ (b : Bool) (t : State), exec (.bar2Write dt e a en d b) s = .next t → MemSame s t (fun x => x = a.toNat)) ∧
    (∀ (en' : BitVec 16) (d' : BitVec 128) (b : Bool), en'.setWidth 9 = en.setWidth 9 → d'.setWidth 72 = d.setWidth 72 →
      exec (.bar2Write dt e a en' d' b) s = exec (.bar2Write dt e a en d b) s)

/-- O19 (R6, R41, R82, R98, R102, R167, R176). Of a bound endpoint while commands are served: a clean or corrected
word is returned as data in bytes 0 to 8 with bytes 9 to 15 zero, and a poisoned word as a poisoned TLP with its
stored data, memory unchanged; a word of valid bit 0 outside those that the device keeps in a form the spec does
not lay out (log 46) is returned as zeros. In a cold start every read returns zero; through an endpoint that is
disabled or bound to no context nothing is returned. -/
def Obligations.Bar2ReadsPoisonAsPoisonedTlp : Prop :=
  (∀ (dt : Nat) (e : Fin 2) (a : BitVec 21) (hc : Hc) (s : State), ctxOf s (.pcie e) = some hc → serving s = true →
    ∃ t, exec (.bar2Read dt e a) s = .next t ∧
      (∀ d, decodePhys (memRaw s.mem a.toNat) = .clean d ∨ decodePhys (memRaw s.mem a.toNat) = .corrected d →
        t.out = s.out ++ [.bar2 e false (d.setWidth 128)]) ∧
      (decodePhys (memRaw s.mem a.toNat) = .invalid → openWord s a.toNat = false → t.out = s.out ++ [.bar2 e false 0]) ∧
      (decodePhys (memRaw s.mem a.toNat) = .poisoned →
        t.out = s.out ++ [.bar2 e true ((physData (memRaw s.mem a.toNat)).setWidth 128)] ∧ t.mem = s.mem)) ∧
  (∀ (dt : Nat) (e : Fin 2) (a : BitVec 21) (hc : Hc) (s : State), ctxOf s (.pcie e) = some hc → coldStarting s = true →
    exec (.bar2Read dt e a) s = .next (emit (advance dt s) (.bar2 e false 0))) ∧
  (∀ (dt : Nat) (e : Fin 2) (a : BitVec 21) (s : State), (endpointOn s e = false ∨ ctxOf s (.pcie e) = none) →
    exec (.bar2Read dt e a) s = .next (advance dt s))

/-- O20 (R24, R98, R105, R106, R107, R109). While the direct registers are served, for a sound header of the row's
command: WORD_READ fetches all COUNT words, a clean word as its data and a poisoned one as none, and answers
ST_OK with them, or ST_POISONED with the index of the first poisoned one and no data; WORD_WRITE with a passing
DCRC writes its words in full and answers ST_OK, and with a failing one writes nothing and answers ST_HSPI_CRC;
REG_READ and REG_WRITE of the command port read and write the registers; NOP answers ST_OK; an abort is counted.
A header that fails HCRC performs nothing and is counted. -/
def Obligations.HspiTransactions : Prop :=
  (∀ (dt : Nat) (p : Fin 4) (h : Octets) (a n : Nat) (hc : Hc) (s : State), regsServed s = true →
    hspiHeader h = some (0x11, a, n) → ctxOf s (.hspi p) = some hc → shmServed s = true → 1 ≤ n → n ≤ 256 → a + n ≤ 2 ^ 21 →
    let r := hostFetch 9 n a (hspiTouch (advance dt s) p)
    r.2.length = n ∧
    (∀ i < n, (∀ d, decodePhys (memRaw s.mem (a + i)) = .clean d → r.2.getD i none = some d) ∧
      (decodePhys (memRaw s.mem (a + i)) = .poisoned → r.2.getD i (some 0) = none)) ∧
    ((∀ o ∈ r.2, o.isSome = true) →
      exec (.hspiWordRead dt p h true) s = .next (hspiRespond r.1 p stOk 0 (unpackWords (r.2.filterMap id)))) ∧
    (∀ i < n, r.2.getD i (some 0) = none → (∀ k < i, (r.2.getD k none).isSome = true) →
      exec (.hspiWordRead dt p h true) s = .next (hspiRespond r.1 p stPoisoned i []))) ∧
  (∀ (dt : Nat) (p : Fin 4) (h d : Octets) (c : BitVec 16) (a n : Nat) (hc : Hc) (s : State), regsServed s = true →
    hspiHeader h = some (0x12, a, n) → ctxOf s (.hspi p) = some hc → shmServed s = true → 1 ≤ n → n ≤ 256 → a + n ≤ 2 ^ 21 →
    d.length = 9 * n →
    (c = crc16 d → ∀ v, hostWriteRun hc a (packWords n d) (hspiTouch (advance dt s) p) = .ok v →
      exec (.hspiWordWrite dt p h d c true) s = .next (hspiRespond v p stOk 0 []) ∧
      ∀ k < n, memRaw v.mem (a + k) = physOf ((packWords n d).getD k 0)) ∧
    (c ≠ crc16 d → ∃ t, exec (.hspiWordWrite dt p h d c true) s = .next t ∧ t.mem = s.mem ∧
      t.out = (hspiRespond s p stHspiCrc 0 []).out)) ∧
  (∀ (dt : Nat) (p : Fin 4) (h : Octets) (a n : Nat) (s v : State) (os : Octets), regsServed s = true →
    hspiHeader h = some (0x21, a, n) → hspiDataPort s p = false → 1 ≤ n → n ≤ 64 →
    readRegs n a (hspiTouch (advance dt s) p) = .ok (v, os) →
    exec (.hspiRegRead dt p h true) s = .next (hspiRespond v p stOk 0 os)) ∧
  (∀ (dt : Nat) (p : Fin 4) (h d : Octets) (a n : Nat) (s v : State), regsServed s = true → hspiHeader h = some (0x22, a, n) →
    hspiDataPort s p = false → 1 ≤ n → n ≤ 64 → d.length = 4 * n →
    writeRegs (.hspi p) n d a (hspiTouch (advance dt s) p) = .ok v →
    exec (.hspiRegWrite dt p h d (crc16 d) true) s = .next (hspiRespond v p stOk 0 [])) ∧
  (∀ (dt : Nat) (p : Fin 4) (h : Octets) (s : State), regsServed s = true → hspiHeader h = some (0x30, 0, 0) →
    exec (.hspiNop dt p h) s = .next (hspiRespond (hspiTouch (advance dt s) p) p stOk 0 [])) ∧
  (∀ (dt : Nat) (p : Fin 4) (s : State), regsServed s = true → ∃ t, exec (.hspiAbort dt p) s = .next t ∧ t.mem = s.mem ∧
    t.out = s.out ∧ counter t (0x281 + 4 * p.val) = min (2 ^ 64 - 1) (counter s (0x281 + 4 * p.val) + 1)) ∧
  (∀ (dt : Nat) (p : Fin 4) (h d : Octets) (c : BitVec 16) (b : Bool) (s : State), regsServed s = true → h.length = 9 →
    hspiHeader h = none → ∀ i ∈ [Instr.hspiWordRead dt p h b, .hspiWordWrite dt p h d c b, .hspiRegRead dt p h b,
      .hspiRegWrite dt p h d c b, .hspiNop dt p h], ∃ t, exec i s = .next t ∧ t.mem = s.mem ∧ t.out = s.out ∧ t.pins = s.pins ∧
        counter t (0x280 + 4 * p.val) = min (2 ^ 64 - 1) (counter s (0x280 + 4 * p.val) + 1))

/-- O21 (R117). Writing a completion with at most 255 result words puts, at ring offset (CQ tail mod 1,024) of the
context's CQ, a word 0 whose fields are the status, the tag, the number of result words, RESTART, AIR, the
context and the opcode with every reserved bit zero; result word k stands k offsets further, continuing at offset
0; and the CQ tail moves past them. -/
def Obligations.CompletionIsWrittenToTheRing : Prop :=
  ∀ (s : State) (hc : Hc) (op : BitVec 12) (tag : BitVec 16) (notify : Bool) (st : Status) (ws : List Word) (restart air : Bool),
    ws.length ≤ 255 →
    let t := complete s hc op tag notify st ws restart air
    let at_ := fun k => ringBase hc + 0x400 + ((ctx s hc).cqTail.toNat + k) % 1024
    ∃ w0, memRaw t.mem (at_ 0) = physOf w0 ∧ fld w0 11 0 = st.toNat ∧ fld w0 27 12 = tag.toNat ∧ fld w0 37 28 = ws.length ∧
      fld w0 38 38 = restart.toNat ∧ fld w0 39 39 = air.toNat ∧ fld w0 45 40 = 0 ∧ fld w0 47 46 = hc.val ∧
      fld w0 59 48 = op.toNat ∧ fld w0 71 60 = 0 ∧
      (∀ k, k < ws.length → memRaw t.mem (at_ (k + 1)) = physOf (ws.getD k 0)) ∧
      (ctx t hc).cqTail = (ctx s hc).cqTail + BitVec.ofNat 11 (1 + ws.length)

/-- O22 (R113, R114, R116, R119, R120, R121). For an attached, served, running context whose SQ head holds a clean
header of the row's opcode that may be consumed: a header naming another context is completed ST_NOT_OWNER; then
a length above 256 or below the opcode's least is completed ST_LENGTH; then a poisoned payload word completes it
ST_POISONED; otherwise the packet is taken with its payload. In each case its words are consumed. A poisoned
header stops the context, and a packet not wholly published, without room, or behind a FENCE waits. -/
def Obligations.PacketChecksInOrder : Prop :=
  ∀ (dt : Nat) (hc : Hc) (op least most : Nat) (s : State), serving s = true → (ctx s hc).st = 1 → (ctx s hc).stopped = false →
    0 < sqCount (ctx s hc) →
    (sqHeader s hc = .poisoned → takePacket dt hc op least most s = .settled (stopAtHeader (advance dt s) hc) ∧
      (ctx (stopAtHeader (advance dt s) hc) hc).stopped = true ∧
      (ctx (stopAtHeader (advance dt s) hc) hc).sqHead = (ctx s hc).sqHead) ∧
    (∀ h, sqHeader s hc = .clean h → fld h 11 0 = op →
      let v := consume (advance dt s) hc h
      let r := readPayload hc (fld h 37 28) ((ctx s hc).sqHead.toNat + 1) v
      (consumable s hc h (1 + most) = false → takePacket dt hc op least most s = .settled (advance dt s)) ∧
      (consumable s hc h (1 + most) = true → fld h 45 41 = 0 → fld h 71 48 = 0 →
        (ctx v hc).sqHead = (ctx s hc).sqHead + BitVec.ofNat 11 (fld h 37 28 + 1) ∧
        (fld h 47 46 ≠ hc.val → takePacket dt hc op least most s = .settled (completeAs v hc op h stNotOwner [])) ∧
        (fld h 47 46 = hc.val → (256 < fld h 37 28 ∨ fld h 37 28 < least) →
          takePacket dt hc op least most s = .settled (completeAs v hc op h stLength [])) ∧
        (fld h 47 46 = hc.val → fld h 37 28 ≤ 256 → least ≤ fld h 37 28 →
          (r.2 = none → takePacket dt hc op least most s = .settled (completeAs r.1 hc op h stPoisoned [])) ∧
          (∀ ws, r.2 = some ws → ∃ p t, takePacket dt hc op least most s = .packet p t ∧ p.hdr = h ∧ p.payload = ws ∧
            t = { r.1 with jobId := r.1.jobId + 1 }))))

/-- O23 (R119, R122, R123). For an attached, served context whose SQ head holds a clean, consumable header with an
opcode outside the catalogue and no reserved bit set, OPCODE_REFUSED consumes the packet and completes it with
ST_OPCODE, or with ST_NOT_OWNER where the header names another context. -/
def Obligations.OpcodeOutsideCatalogueIsRefused : Prop :=
  ∀ (dt : Nat) (hc : Hc) (h : Word) (s : State), serving s = true → (ctx s hc).st = 1 → (ctx s hc).stopped = false →
    0 < sqCount (ctx s hc) → sqHeader s hc = .clean h → catalogued (fld h 11 0) = none → consumable s hc h 1 = true →
    fld h 45 41 = 0 → fld h 71 48 = 0 →
    exec (.opcodeRefused dt hc) s = .next (completeAs (consume (advance dt s) hc h) hc (fld h 11 0) h
      (if fld h 47 46 = hc.val then stOpcode else stNotOwner) [])

/-- O24 (R122, R575, R576, R100). A taken NOP completes ST_OK with no other effect. DEVICE_INFO returns the identity,
the start status, DEV_EUI64, SERIAL, DEV_STATUS, START_DETAIL and the start record in their places. MEM_READ of 1
to 255 words returns them, or ST_POISONED with the index of the first poisoned one. MEM_WRITE whose words all lie
where the context may write stores them in full and completes ST_OK. -/
def Obligations.NopInfoAndMemoryCommands : Prop :=
  (∀ (dt : Nat) (hc : Hc) (s u : State) (p : Packet), Took dt hc 0x000 0 0 s p u →
    exec (.nop dt hc) s = .next (completeAs u hc 0x000 p.hdr stOk [])) ∧
  (∀ (dt : Nat) (hc : Hc) (s u : State) (p : Packet), Took dt hc 0x001 0 16 s p u →
    ∃ ws, exec (.deviceInfo dt hc) s = .next (completeAs u hc 0x001 p.hdr stOk ws) ∧ ws.length = 16 ∧
      fld (ws.getD 0 0) 31 0 = 0x197403AB ∧ fld (ws.getD 0 0) 63 32 = (startStatus u).toNat ∧
      fld (ws.getD 1 0) 63 0 = fld u.otp 127 64 ∧ fld (ws.getD 2 0) 63 0 = fld u.otp 63 0 ∧
      fld (ws.getD 3 0) 31 0 = (devStatus u).toNat ∧ fld (ws.getD 3 0) 63 32 = u.start.detail.toNat ∧
      (∀ k < 10, ws.getD (4 + k) 0 = peek u k) ∧ ws.getD 14 0 = 0 ∧ ws.getD 15 0 = 0) ∧
  (∀ (dt : Nat) (hc : Hc) (s u v : State) (p : Packet), Took dt hc 0x800 1 255 s p u → reservedSet (p.word 1) (bits 30 0) = false →
    fld (p.word 1) 30 23 ≠ 0 →
    (∀ ws, hostReads 13 (fld (p.word 1) 30 23) (fld (p.word 1) 22 0) u = (v, .inl ws) →
      exec (.memRead dt hc) s = .next (completeAs v hc 0x800 p.hdr stOk ws) ∧ ws.length = fld (p.word 1) 30 23 ∧
      ∀ i d, i < ws.length → fld (p.word 1) 22 0 + i < 0x3C0000 →
        decodePhys (memRaw u.mem (fld (p.word 1) 22 0 + i)) = .clean d → ws.getD i 0 = d) ∧
    (∀ i, hostReads 13 (fld (p.word 1) 30 23) (fld (p.word 1) 22 0) u = (v, .inr i) →
      exec (.memRead dt hc) s = .next (completeAs v hc 0x800 p.hdr stPoisoned [at' 0 i]))) ∧
  (∀ (dt : Nat) (hc : Hc) (s u v : State) (p : Packet), Took dt hc 0x801 2 0 s p u → reservedSet (p.word 1) (bits 30 0) = false →
    fld (p.word 1) 30 23 ≠ 0 → fld (p.word 1) 30 23 + 1 ≤ p.payload.length →
    hostWriteRun hc (fld (p.word 1) 22 0) ((p.payload.drop 1).take (fld (p.word 1) 30 23)) u = .ok v →
    exec (.memWrite dt hc) s = .next (completeAs v hc 0x801 p.hdr stOk []) ∧
      ∀ k < fld (p.word 1) 30 23, memRaw v.mem (fld (p.word 1) 22 0 + k) = physOf (p.payload.getD (k + 1) 0))

/-- O25 (R577). A taken OTP_READ with its reserved bits clear: a COUNT of 0 or above 2,304 is refused with ST_LENGTH;
otherwise it completes ST_OK with ceil(COUNT ÷ 72) words in which bit (j mod 72) of word floor(j ÷ 72) is fuse
bit FIRST + j, bits beyond COUNT are zero, and positions above 16,383 and every bit of ROOT_KEY (fuse bits 144 to
399) read as zero. -/
def Obligations.OtpReadPacksFuseBits : Prop :=
  ∀ (dt : Nat) (hc : Hc) (s u : State) (p : Packet), Took dt hc 0x004 1 32 s p u → reservedSet (p.word 1) (bits 25 0) = false →
    let first := fld (p.word 1) 13 0
    let n := fld (p.word 1) 25 14
    ((n = 0 ∨ 2304 < n) → exec (.otpRead dt hc) s = .next (completeAs u hc 0x004 p.hdr stLength [])) ∧
    (1 ≤ n → n ≤ 2304 → ∃ ws, exec (.otpRead dt hc) s = .next (completeAs u hc 0x004 p.hdr stOk ws) ∧
      ws.length = (n + 71) / 72 ∧
      (∀ j < n, (ws.getD (j / 72) 0).getLsbD (j % 72) =
        if 144 ≤ first + j ∧ first + j ≤ 399 then false else if first + j ≤ 16383 then u.otp.getLsbD (first + j) else false) ∧
      (∀ j, n ≤ j → j < 72 * ws.length → (ws.getD (j / 72) 0).getLsbD (j % 72) = false))

/-- O26 (R90, R577, R451). Two states that differ only in the fuse bits of ROOT_KEY (144 to 399), with the same
packet taken in each, make OTP_READ and DEVICE_INFO complete with the same status and the same result words. -/
def Obligations.RootKeyIsNotRead : Prop :=
  ∀ (dt dt' : Nat) (hc : Hc) (s s' u u' : State) (p : Packet) (key : BitVec 256),
    u' = { u with otp := (u.otp &&& ~~~((((2 ^ 256 - 1 : Nat) : BitVec 16384)) <<< 144)) ||| ((key.setWidth 16384) <<< 144) } →
    (Took dt hc 0x004 1 32 s p u → Took dt' hc 0x004 1 32 s' p u' → reservedSet (p.word 1) (bits 25 0) = false →
      ∃ st ws, exec (.otpRead dt hc) s = .next (completeAs u hc 0x004 p.hdr st ws) ∧
        exec (.otpRead dt' hc) s' = .next (completeAs u' hc 0x004 p.hdr st ws)) ∧
    (Took dt hc 0x001 0 16 s p u → Took dt' hc 0x001 0 16 s' p u' →
      ∃ ws, exec (.deviceInfo dt hc) s = .next (completeAs u hc 0x001 p.hdr stOk ws) ∧
        exec (.deviceInfo dt' hc) s' = .next (completeAs u' hc 0x001 p.hdr stOk ws))

/-- O27 (R124, R125, R126, R155, R161). For a class and index that name a resource, with the reserved bits clear:
RESOURCE_CLAIM of a free resource gives it to the context and changes nothing else; of one that the context holds
already it changes nothing; both complete ST_OK with the holder word naming the context; of one held otherwise it
completes ST_RESOURCE_HELD with the holder word. RESOURCE_RELEASE of a held resource frees it and completes
ST_OK: a pin's function and driven level are gone, a GPIO pin's bits in GPIO_OUT and GPIO_OE are clear and the
others kept, an IRQ pin's routes are off and its latches clear, and timers and units run on; of one not held it
completes ST_NOT_OWNER. RESOURCE_QUERY completes ST_OK with the holder word, or the word that says the resource
is free, and changes nothing. -/
def Obligations.ResourceCommands : Prop :=
  (∀ (dt : Nat) (hc : Hc) (s u : State) (p : Packet), Took dt hc 0x008 1 1 s p u → reservedSet (p.word 1) (bits 23 0) = false →
    isResource (fld (p.word 1) 7 0) (fld (p.word 1) 23 8) = true →
    let k := resKey (fld (p.word 1) 7 0) (fld (p.word 1) 23 8)
    (tblGet u.owners k = none →
      ∃ v, exec (.resourceClaim dt hc) s = .next (completeAs v hc 0x008 p.hdr stOk [holderWord (some (.host hc))]) ∧
        tblGet v.owners k = some (.host hc) ∧ (∀ j, j ≠ k → tblGet v.owners j = tblGet u.owners j) ∧
        v = { u with owners := v.owners }) ∧
    (tblGet u.owners k = some (.host hc) → exec (.resourceClaim dt hc) s =
      .next (completeAs u hc 0x008 p.hdr stOk [holderWord (some (.host hc))])) ∧
    (∀ h, tblGet u.owners k = some h → h ≠ .host hc → exec (.resourceClaim dt hc) s =
      .next (completeAs u hc 0x008 p.hdr stResourceHeld [holderWord (some h)]))) ∧
  (∀ (dt : Nat) (hc : Hc) (s u : State) (p : Packet), Took dt hc 0x009 1 0 s p u → reservedSet (p.word 1) (bits 23 0) = false →
    isResource (fld (p.word 1) 7 0) (fld (p.word 1) 23 8) = true →
    let cls := fld (p.word 1) 7 0
    let n := fld (p.word 1) 23 8
    (owns u hc cls n = true → keysRise 0 u.owners = true → keysRise 0 u.pins.fn = true → keysRise 0 u.pins.level = true →
      ∃ v, exec (.resourceRelease dt hc) s = .next (completeAs v hc 0x009 p.hdr stOk []) ∧
        tblGet v.owners (resKey cls n) = none ∧ (∀ j, j ≠ resKey cls n → tblGet v.owners j = tblGet u.owners j) ∧
        v = { u with owners := v.owners, pins := v.pins, pinRoutes := v.pinRoutes, latches := v.latches } ∧
        (cls ≠ 5 → v = { u with owners := v.owners }) ∧
        (cls = 5 → tblGet v.pins.fn n = none ∧ tblGet v.pins.level n = none ∧
          (∀ j, j ≠ n → tblGet v.pins.fn j = tblGet u.pins.fn j ∧ tblGet v.pins.level j = tblGet u.pins.level j) ∧
          (∀ j < 32, v.pins.gpioOut.getLsbD j = (u.pins.gpioOut.getLsbD j && j != n) ∧
            v.pins.gpioOe.getLsbD j = (u.pins.gpioOe.getLsbD j && j != n)) ∧
          (52 ≤ n → (∀ src, tblAt v.pinRoutes (4 * src + (n - 52)) false = false) ∧
            ∀ k < 8, tblAt v.latches (8 * (n - 52) + k) 0 = 0))) ∧
    (owns u hc cls n = false → exec (.resourceRelease dt hc) s = .next (completeAs u hc 0x009 p.hdr stNotOwner []))) ∧
  (∀ (dt : Nat) (hc : Hc) (s u : State) (p : Packet), Took dt hc 0x00A 1 1 s p u → reservedSet (p.word 1) (bits 23 0) = false →
    isResource (fld (p.word 1) 7 0) (fld (p.word 1) 23 8) = true →
    let h := tblGet u.owners (resKey (fld (p.word 1) 7 0) (fld (p.word 1) 23 8))
    exec (.resourceQuery dt hc) s = .next (completeAs u hc 0x00A p.hdr stOk [holderWord h]) ∧
      (h = none → fld (holderWord h) 16 16 = 1) ∧ (∀ o : Hc, h = some (.host o) → holderWord h = BitVec.ofNat 72 o.val) ∧
      (∀ code, h = some (.feature code) → fld (holderWord h) 2 2 = 1 ∧ fld (holderWord h) 15 8 = code.toNat))

/-- O28 (R119, R123, R127, R128). With the reserved bits clear: where no group of the mask is held by another
context, LOCK_ACQUIRE gives each of them to the context with the lease of word 2 (host.lock.lease for 0) from now
on, touches no other group and nothing else, and completes ST_OK; where one is, it completes ST_LOCKED naming the
holder of the lowest-numbered such group and takes none. LOCK_RELEASE of groups all held frees each of them and
completes ST_OK; otherwise it completes ST_NOT_OWNER. -/
def Obligations.LockCommands : Prop :=
  (∀ (dt : Nat) (hc : Hc) (s u : State) (p : Packet), Took dt hc 0x010 2 1 s p u → reservedSet (p.word 1) (bits 63 0) = false →
    reservedSet (p.word 2) (bits 15 0) = false →
    let mask := fld (p.word 1) 63 0
    let ms := fld (p.word 2) 15 0
    ((∀ g < 64, mask.testBit g = true → lockedBy u hc g = none) →
      ∃ v, exec (.lockAcquire dt hc) s = .next (completeAs v hc 0x010 p.hdr stOk []) ∧ v = { u with locks := v.locks } ∧
        ∀ g, tblGet v.locks g = if mask.testBit g then some ⟨hc, ms, u.now + msC (if ms = 0 then par u 0x26 else ms)⟩
          else tblGet u.locks g) ∧
    (∀ (g : Nat) (o : Hc), g < 64 → mask.testBit g = true → lockedBy u hc g = some o →
      (∀ k < g, mask.testBit k = true → lockedBy u hc k = none) →
      exec (.lockAcquire dt hc) s = .next (completeAs u hc 0x010 p.hdr stLocked [holderWord (some (.host o))]))) ∧
  (∀ (dt : Nat) (hc : Hc) (s u : State) (p : Packet), Took dt hc 0x011 1 0 s p u → reservedSet (p.word 1) (bits 63 0) = false →
    let mask := fld (p.word 1) 63 0
    let held := fun g => match tblGet u.locks g with | some l => l.hc == hc | none => false
    ((∀ g < 64, mask.testBit g = true → held g = true) → keysRise 0 u.locks = true →
      ∃ v, exec (.lockRelease dt hc) s = .next (completeAs v hc 0x011 p.hdr stOk []) ∧ v = { u with locks := v.locks } ∧
        ∀ g, tblGet v.locks g = if mask.testBit g then none else tblGet u.locks g) ∧
    (∀ g < 64, mask.testBit g = true → held g = false →
      exec (.lockRelease dt hc) s = .next (completeAs u hc 0x011 p.hdr stNotOwner [])))

/-- O29 (R131). TXN_BEGIN leaves an open, empty transaction whatever stood before, and completes ST_OK. A PARAM_SET
with the TXN flag and no reserved bit completes ST_TXN_NONE with none open; it is refused ST_TXN_FULL, nothing
staged, where more than 128 parameters would be staged; otherwise it stages its pairs (those of unassigned and
read-only IDs are ignored), a parameter staged twice keeping its later value and its place, and completes ST_OK;
besides the transaction only leases of locks change. PARAM_GET completes ST_OK with one word for each ID, in
order: the current stored value of a parameter and whether it is pending, or UNASSIGNED; it changes nothing but
leases, and staging leaves the values as they were. -/
def Obligations.TransactionStaging : Prop :=
  (∀ (dt : Nat) (hc : Hc) (s u : State) (p : Packet), Took dt hc 0x01A 0 0 s p u →
    exec (.txnBegin dt hc) s = .next (completeAs (setCtx u hc { ctx u hc with txn := some [] }) hc 0x01A p.hdr stOk [])) ∧
  (∀ (dt : Nat) (hc : Hc) (s u : State) (p : Packet), Took dt hc 0x019 2 1 s p u → p.hdr.getLsbD 39 = true →
    pairsReserved p.payload = false →
    ((ctx u hc).txn = none → exec (.paramSet dt hc) s = .next (completeAs u hc 0x019 p.hdr stTxnNone [])) ∧
    (∀ x, (ctx u hc).txn = some x →
      let staged := ((pairsOf p.payload).filter (fun e => writable e.1)).foldl stage x
      (128 < staged.length → exec (.paramSet dt hc) s = .next (completeAs u hc 0x019 p.hdr stTxnFull [])) ∧
      (staged.length ≤ 128 → ∃ v, exec (.paramSet dt hc) s = .next (completeAs v hc 0x019 p.hdr stOk []) ∧
        v = { setCtx u hc { ctx u hc with txn := some staged } with locks := v.locks } ∧
        ∀ id, paramWord v id = paramWord u id))) ∧
  (∀ (x : List (Nat × BitVec 64)) (e : Nat × BitVec 64), (stage x e).find? (fun y => y.1 == e.1) = some e ∧
    (∀ id, id ≠ e.1 → (stage x e).find? (fun y => y.1 == id) = x.find? (fun y => y.1 == id)) ∧
    ((x.any (fun y => y.1 == e.1)) = true → (stage x e).map (·.1) = x.map (·.1))) ∧
  (∀ (dt : Nat) (hc : Hc) (s u : State) (p : Packet), Took dt hc 0x018 1 255 s p u →
    (p.payload.take 255).any (fun w => reservedSet w (bits 15 0)) = false →
    ∃ v, exec (.paramGet dt hc) s = .next (completeAs v hc 0x018 p.hdr stOk
      ((p.payload.take 255).map (fun w => paramWord u (fld w 15 0)))) ∧ v = { u with locks := v.locks }) ∧
  (∀ (s : State) (id : Nat),
    ((paramRow id).isSome = true → fld (paramWord s id) 63 0 = (parStored s id).toNat ∧
      (paramWord s id).getLsbD 71 = parPending s id ∧ (paramWord s id).getLsbD 70 = false) ∧
    (paramRow id = none → paramWord s id = 1#72 <<< 70))

/-- O30 (R97, R122, R128, R129, R131, R132, R147, R148, R162). A PARAM_SET without the TXN flag and without reserved
bits, or a TXN_COMMIT of the open transaction: where another context holds the group of a writable pair, it
completes ST_LOCKED with the first such pair's index and holder; where the groups are free or its own and every
value in range, but a pair needs a held resource, it completes ST_RESOURCE_HELD with that pair's index and
holder; in both cases it stores nothing and a commit's transaction stays open. Where no resource is held either,
each parameter that a writable pair names takes the value of its last pair and every other one keeps its value,
the leases that the context holds on the groups named run from now and no other lock changes, it completes ST_OK
with no result word, and a commit closes its transaction. TXN_COMMIT with none open completes ST_TXN_NONE.
TXN_ABORT discards the transaction, changes nothing else and completes ST_OK. Storing one assigned, writable
value makes it the stored one and leaves the others; any other ID is ignored. -/
def Obligations.ParameterWrites : Prop :=
  (∀ (dt : Nat) (hc : Hc) (s u : State) (p : Packet), Took dt hc 0x019 2 1 s p u → p.hdr.getLsbD 39 = false →
    pairsReserved p.payload = false →
    let vs := pairsOf p.payload
    (∀ i o, firstLocked u hc vs = some (i, o) →
      exec (.paramSet dt hc) s = .next (completeAs u hc 0x019 p.hdr stLocked [refusalWord i (.host o)])) ∧
    (firstLocked u hc vs = none → valuesInRange u vs = true →
      (∀ i h, firstHeld 0 vs u = some (i, h) →
        exec (.paramSet dt hc) s = .next (completeAs u hc 0x019 p.hdr stResourceHeld [refusalWord i h])) ∧
      (firstHeld 0 vs u = none →
        ∃ v, exec (.paramSet dt hc) s = .next (completeAs v hc 0x019 p.hdr stOk []) ∧ Wrote u v hc vs))) ∧
  (∀ (dt : Nat) (hc : Hc) (s u : State) (p : Packet), Took dt hc 0x01B 0 1 s p u →
    ((ctx u hc).txn = none → exec (.txnCommit dt hc) s = .next (completeAs u hc 0x01B p.hdr stTxnNone [])) ∧
    (∀ vs, (ctx u hc).txn = some vs →
      (∀ i o, firstLocked u hc vs = some (i, o) →
        exec (.txnCommit dt hc) s = .next (completeAs u hc 0x01B p.hdr stLocked [refusalWord i (.host o)])) ∧
      (firstLocked u hc vs = none → valuesInRange u vs = true →
        (∀ i h, firstHeld 0 vs u = some (i, h) →
          exec (.txnCommit dt hc) s = .next (completeAs u hc 0x01B p.hdr stResourceHeld [refusalWord i h])) ∧
        (firstHeld 0 vs u = none →
          ∃ v, exec (.txnCommit dt hc) s = .next (completeAs v hc 0x01B p.hdr stOk []) ∧ Wrote u v hc vs ∧
            (ctx v hc).txn = none)))) ∧
  (∀ (dt : Nat) (hc : Hc) (s u : State) (p : Packet), Took dt hc 0x01C 0 0 s p u →
    exec (.txnAbort dt hc) s = .next (completeAs (setCtx u hc { ctx u hc with txn := none }) hc 0x01C p.hdr stOk [])) ∧
  (∀ (s : State) (id : Nat) (v : BitVec 64), writable id = true → parStored (storeOne s id v) id = v ∧
    ∀ other, other ≠ id → tblGet (storeOne s id v).params other = tblGet s.params other) ∧
  (∀ (s : State) (id : Nat) (v : BitVec 64), writable id = false → storeOne s id v = s)

/-- O31 (R178). A taken ERRLOG_READ completes ST_OK with 32 result words: for each held entry, oldest first from
NEXT, ERRLOG_A and then ERRLOG_B, and zero for entries not held. In the same step every entry reads zero, HELD
and OVERWRITTEN become 0 and NEXT is unchanged; an entry logged afterwards is held. -/
def Obligations.ErrlogReadEmptiesTheLog : Prop :=
  ∀ (dt : Nat) (hc : Hc) (s u : State) (p : Packet), Took dt hc 0x803 0 32 s p u →
    let slots := (List.range 16).map (fun i => tblAt u.errLog.entries ((u.errLog.next.toNat + i) % 16) ⟨0, 0⟩)
    let held := slots.filter (fun e => e.a.getLsbD 31)
    ∃ t ws, exec (.errlogRead dt hc) s = .next (completeAs t hc 0x803 p.hdr stOk ws) ∧ ws.length = 32 ∧
      (∀ i < 16, ws.getD (2 * i) 0 = ((held.getD i ⟨0, 0⟩).a).setWidth 72 ∧ ws.getD (2 * i + 1) 0 = ((held.getD i ⟨0, 0⟩).b).setWidth 72) ∧
      logHeld t.errLog = 0 ∧ t.errLog.overwritten = 0 ∧ t.errLog.next = u.errLog.next ∧
      (∀ e, tblAt t.errLog.entries e ⟨0, 0⟩ = ⟨0, 0⟩) ∧ t = { u with errLog := t.errLog } ∧
      ∀ (w : State) (addr kind consumer : Nat) (syn : BitVec 8) (bank : Nat), w.errLog = t.errLog → kind < 16 → consumer < 16 →
        logHeld (logError w addr kind consumer syn bank).errLog = 1

/-- O32 (R9, R195, R211, R515). A taken COUNTER_READ with its reserved bits clear and no empty run: where its runs
name more than 255 counters in all it completes ST_LENGTH, returning and clearing nothing; otherwise it completes
ST_OK with one word per counter, run by run and in ID order, each counter read as the readings before it left it
and then cleared where reading clears it. Reading clears the FIFO underrun bits, the largest waits and holds of
the arbiters, and the flags of a timer's state, and leaves every other counter as it was. -/
def Obligations.CounterReads : Prop :=
  (∀ (dt : Nat) (hc : Hc) (s u : State) (p : Packet), Took dt hc 0x802 1 255 s p u →
    (p.payload.take 8).any (fun w => reservedSet w (bits 23 0)) = false →
    (p.payload.take 8).any (fun w => fld w 23 16 == 0) = false →
    let ids := (p.payload.take 8).flatMap (fun w => (List.range (fld w 23 16)).map (fun i => fld w 15 0 + i))
    (255 < ids.length → exec (.counterRead dt hc) s = .next (completeAs u hc 0x802 p.hdr stLength [])) ∧
    (ids.length ≤ 255 → ∃ ws, exec (.counterRead dt hc) s = .next (completeAs (ids.foldl clearCounter u) hc 0x802 p.hdr stOk ws) ∧
      ws.length = ids.length ∧
      ∀ i < ids.length, ws.getD i 0 = BitVec.ofNat 72 (counterValue ((ids.take i).foldl clearCounter u) (ids.getD i 0)))) ∧
  (∀ (s : State) (id : Nat),
    ((0x118 ≤ id ∧ id ≤ 0x11B) ∨ (0x400 ≤ id ∧ id < 0x500) → counter (clearCounter s id) id = 0 ∧
      (∀ j, j ≠ id → counter (clearCounter s id) j = counter s j) ∧
      clearCounter s id = { s with counters := (clearCounter s id).counters }) ∧
    (0x340 ≤ id → id < 0x374 → (tblAt (clearCounter s id).arbs (id - 0x340) {}).holdMax = 0 ∧
      clearCounter s id = { s with arbs := (clearCounter s id).arbs }) ∧
    (0x1700 ≤ id → id < 0x1800 → id % 8 = 6 → let n := (id - 0x1700) / 8
      timer (clearCounter s id) n = { timer s n with late := false, matched := false, reloaded := false, capNew := false,
                                                     capOverrun := false } ∧
      clearCounter s id = { s with timers := (clearCounter s id).timers }) ∧
    (¬ ((0x118 ≤ id ∧ id ≤ 0x11B) ∨ (0x400 ≤ id ∧ id < 0x500) ∨ (0x340 ≤ id ∧ id < 0x374) ∨
      (0x1700 ≤ id ∧ id < 0x1800 ∧ id % 8 = 6)) → clearCounter s id = s))

/-- O33 (R101, R144, R153, R155, R157, R158, R159). EVENT_ROUTE with in-range fields and no reserved bit completes
ST_OK: for target 0 the context's own route of the source has the values given and no open window, and an entry
pending in the window it had is written under the old vector; for a pin that the context holds the pin route is
on or off as given; for a pin it does not hold it completes ST_NOT_OWNER. EQ_ENTRY_WRITE takes the context's
oldest waiting entry: with room for two it is written at the tail as four words with the context's sequence
number, signalling its vector 2 to 31 at a bound, enabled endpoint; with room for one EV_EQ_OVERFLOW, with the
count of losses, is written in its place and the loss counted; otherwise the entry is lost and counted.
COALESCE_WINDOW_END, once the window is over, closes it where no entry is pending, and otherwise writes the entry
and opens the next window. -/
def Obligations.EventDelivery : Prop :=
  (∀ (dt : Nat) (hc : Hc) (s u : State) (p : Packet), Took dt hc 0x020 2 0 s p u → reservedSet (p.word 1) (bits 17 0) = false →
    reservedSet (p.word 2) (bits 15 0) = false → fld (p.word 2) 15 0 ≤ 10000 →
    let src := fld (p.word 1) 7 0
    let pin := fld (p.word 1) 12 11
    (fld (p.word 1) 9 8 = 0 → ∃ v, exec (.eventRoute dt hc) s = .next (completeAs v hc 0x020 p.hdr stOk []) ∧
      tblGet v.routes (4 * src + hc.val) =
        some (Route.mk ((p.word 1).getLsbD 10) (max 1 (fld (p.word 1) 17 13)) (fld (p.word 2) 15 0) none none) ∧
      (∀ k, k ≠ 4 * src + hc.val → tblGet v.routes k = tblGet u.routes k) ∧
      v = { u with routes := v.routes, evOut := u.evOut ++
        ((tblAt u.routes (4 * src + hc.val) {}).held.toList.map
          (fun en => ⟨hc, (tblAt u.routes (4 * src + hc.val) {}).vector, en⟩)) }) ∧
    (fld (p.word 1) 9 8 = 1 → owns u hc 5 (52 + pin) = true → keysRise 0 u.pinRoutes = true →
      ∃ v, exec (.eventRoute dt hc) s = .next (completeAs v hc 0x020 p.hdr stOk []) ∧
        tblAt v.pinRoutes (4 * src + pin) false = (p.word 1).getLsbD 10 ∧
        (∀ k, k ≠ 4 * src + pin → tblGet v.pinRoutes k = tblGet u.pinRoutes k) ∧ v = { u with pinRoutes := v.pinRoutes }) ∧
    (fld (p.word 1) 9 8 = 1 → owns u hc 5 (52 + pin) = false →
      exec (.eventRoute dt hc) s = .next (completeAs u hc 0x020 p.hdr stNotOwner []))) ∧
  (∀ (dt : Nat) (hc : Hc) (s : State) (e : EvOut) (es : List EvOut), serving s = true → takeEntry hc s.evOut = some (e, es) →
    let c := ctx s hc
    let words := fun (t : State) (en : Entry) => ∀ k < 4,
      memRaw t.mem (ringBase hc + 0x800 + (c.eqTail.toNat + k) % 512) = physOf ((entryWords en c.seq).getD k 0)
    ∃ t, exec (.eqEntryWrite dt hc) s = .next t ∧ t.evOut = es ∧
      (c.eqFull = false → 8 ≤ eqFree c → (ctx t hc).eqTail = c.eqTail + 4 ∧ (ctx t hc).seq = c.seq + 1 ∧
        (ctx t hc).eqLost = c.eqLost ∧ words t e.entry ∧
        (∀ b, 2 ≤ e.vector → pcieOf (bindOf s hc) = some b → endpointOn s b = true → t.out = s.out ++ [.msix b e.vector])) ∧
      (c.eqFull = false → 4 ≤ eqFree c → eqFree c < 8 → (ctx t hc).eqFull = true ∧ (ctx t hc).eqLost = sat32 c.eqLost ∧
        (ctx t hc).eqTail = c.eqTail + 4 ∧ (ctx t hc).seq = c.seq + 1 ∧
        words t ⟨9, 1, time (advance dt s), BitVec.ofNat 72 (min 65535 (sat32 c.eqLost).toNat), 0⟩) ∧
      ((c.eqFull = true ∨ eqFree c < 4) → (ctx t hc).eqLost = sat32 c.eqLost ∧ (ctx t hc).eqTail = c.eqTail ∧ t.mem = s.mem)) ∧
  (∀ (dt : Nat) (hc : Hc) (src : BitVec 8) (x : Nat) (s : State), serving s = true →
    let r := tblAt s.routes (4 * src.toNat + hc.val) {}
    r.opened = some x → x ≤ s.now + dt →
    ∃ t, exec (.coalesceWindowEnd dt hc src) s = .next t ∧
      let q := tblAt t.routes (4 * src.toNat + hc.val) {}
      (r.held = none → q = { r with opened := none } ∧ t.evOut = s.evOut) ∧
      (∀ en, r.held = some en → t.evOut = s.evOut ++ [⟨hc, r.vector, en⟩] ∧
        q = { r with opened := some (x + usC r.window), held := none }))

/-- O34 (R99, R112, R117, R136). Whatever NOP, DEVICE_INFO, OTP_READ, the resource and lock commands, TXN_BEGIN,
TXN_ABORT, PARAM_GET, EVENT_ROUTE, ERRLOG_READ and OPCODE_REFUSED answer as a next state, every word of memory
outside the SQ, CQ, journal and result store of their own context reads as before, and so do the fuses, both
flashes, the key store and the pins' input levels. -/
def Obligations.HostCommandMemoryFrame : Prop :=
  ∀ (dt : Nat) (hc : Hc) (s t : State) (c : Instr),
    c ∈ [Instr.nop dt hc, .deviceInfo dt hc, .otpRead dt hc, .resourceClaim dt hc, .resourceRelease dt hc, .resourceQuery dt hc,
      .lockAcquire dt hc, .lockRelease dt hc, .txnBegin dt hc, .txnAbort dt hc, .paramGet dt hc, .eventRoute dt hc,
      .errlogRead dt hc, .opcodeRefused dt hc] → exec c s = .next t →
    MemSame s t (fun a => (ringBase hc ≤ a ∧ a < ringBase hc + 0x800) ∨ (journalBase hc ≤ a ∧ a < journalBase hc + 0x100) ∨
        (resultBase hc ≤ a ∧ a < resultBase hc + 0x400)) ∧ t.otp = s.otp ∧ t.flashA = s.flashA ∧ t.flashB = s.flashB ∧
      t.anvil = s.anvil ∧ t.pins.gpioIn = s.pins.gpioIn ∧ t.repairs = s.repairs ∧ t.start = s.start ∧ t.clk = s.clk ∧
      t.pending = s.pending

/-- O35 (R165). The columns are the 56 values of weight 3 and the first 16 of weight 5, each in ascending order, and
check bit Cj is the exclusive OR of the data bits whose column has bit j. A word as written decodes clean; with
any one of its 80 data and check bits inverted it decodes corrected, to the data written; with any two inverted
it is never delivered as data: it decodes uncorrectable or poisoned. -/
def Obligations.CheckCodeCorrectsOneDetectsTwo : Prop :=
  (let weight := fun n => (List.range 8).countP (fun j => Nat.testBit n j)
   (eccColumns.take 56).map BitVec.toNat = (List.range 256).filter (fun n => weight n == 3) ∧
   (eccColumns.drop 56).map BitVec.toNat = ((List.range 256).filter (fun n => weight n == 5)).take 16) ∧
  (∀ (d : Word) (j : Nat), j < 8 → (eccCheck d).getLsbD j =
    (List.range 72).foldl (fun x i => x ^^ (d.getLsbD i && (eccColumns.getD i 0).getLsbD j)) false) ∧
  (∀ d : Word, decodePhys (physOf d) = .clean d) ∧
  (∀ (d : Word) (i : Nat), i < 80 → decodePhys (physOf d ^^^ (1#81 <<< i)) = .corrected d) ∧
  (∀ (d : Word) (i j : Nat), i < j → j < 80 →
    decodePhys (physOf d ^^^ (1#81 <<< i) ^^^ (1#81 <<< j)) = .bad ∨ decodePhys (physOf d ^^^ (1#81 <<< i) ^^^ (1#81 <<< j)) = .poisoned)

/-- O36 (R169). After a word is poisoned, its data bits are those stored before, its check bits are those computed
from that data exclusive-OR 0xFF, its syndrome is 0xFF and it decodes poisoned; every other word is unchanged. -/
def Obligations.PoisonSignatureKeepsData : Prop :=
  ∀ (s : State) (a : Nat), let w := memRaw (poisonWord s a).mem a
    physData w = physData (memRaw s.mem a) ∧ physCheck w = eccCheck (physData (memRaw s.mem a)) ^^^ 0xFF ∧ syndrome w = 0xFF ∧
    decodePhys w = .poisoned ∧ MemSame s (poisonWord s a) (fun x => x = a)

/-- O37 (R167). A consumer's read of a word that decodes corrected delivers the corrected data, adds one to the
corrected-error counter of the word's memory and changes no word of memory; the scrubber, on the same word while
no error of it stands in the log, writes the correction back. -/
def Obligations.ConsumerReadDeliversCorrected : Prop :=
  ∀ (s : State) (a code : Nat) (d : Word), regionOf a ≠ .reserved → decodePhys (memRaw s.mem a) = .corrected d →
    (readWord s a code).2 = some d ∧
    counter (readWord s a code).1 (ceCounter (regionOf a)) = min (2 ^ 64 - 1) (counter s (ceCounter (regionOf a)) + 1) ∧
    (readWord s a code).1.mem = s.mem ∧
    ((∀ k ∈ [1, 2, 3], logFind s.errLog a k = none) → memRaw (scrubWord s a).mem a = physOf d)

/-- O38 (R172, R174, R179, R180, R186, R195). While firmware runs: SCRUB_PASS_START, once every row of the pass has
been read and the pass's time is over, begins the next pass at row 0 with the next number. SCRUB_ROW of a running
pass, once the row is due, moves on by one row; a corrected word of it, of which the log holds no error, stands
corrected; where its words and those of the row of private memory swept with it (log 213) are not valid, memory
is unchanged. EV_ROW_RETIRED with a move under way and none waiting maps the row to its spare, counts it and ends
the move; the row's words carry over, a correctable one corrected, and no other word changes. On a poisoned word
the scrubber writes nothing, logs nothing and raises nothing, and counts it. -/
def Obligations.ScrubberSweep : Prop :=
  (∀ (dt : Nat) (s : State), running s = true → s.scrub.running = true → scrubRows ≤ s.scrub.nextRow →
    s.scrub.passStart + secC s.scrub.period ≤ s.now + dt → ∃ t, exec (.scrubPassStart dt) s = .next t ∧
      t.scrub.pass = s.scrub.pass + 1 ∧ t.scrub.nextRow = 0 ∧ t.scrub.passStart = s.now + dt ∧ t.scrub.running = true ∧
      t.scrub.period = par t 0x8001 ∧ t.mem = s.mem) ∧
  (∀ (dt : Nat) (s : State), running s = true → s.scrub.running = true → s.scrub.nextRow < scrubRows →
    s.scrub.nextRow * secC s.scrub.period ≤ (s.now + dt - s.scrub.passStart) * scrubRows → s.scrub.passStart ≤ s.now + dt →
    let a := scrubAddr s s.scrub.nextRow
    ∃ t, exec (.scrubRow dt) s = .next t ∧ t.scrub.nextRow = s.scrub.nextRow + 1 ∧
      (∀ i d, i < 16 → decodePhys (memRaw s.mem (a + i)) = .corrected d →
        (∀ k ∈ [1, 2, 3], logFind s.errLog (a + i) k = none) → memRaw t.mem (a + i) = physOf d) ∧
      ((∀ i < 16, decodePhys (memRaw s.mem (a + i)) = .invalid ∧
        decodePhys (memRaw s.mem (anvilRow s.scrub.nextRow + i)) = .invalid) → t.mem = s.mem)) ∧
  (∀ (dt : Nat) (m : Move) (s : State), running s = true → s.scrub.move = some m → s.scrub.waiting = [] →
    let inRow := fun a => m.addr - m.addr % 16 ≤ a ∧ a < m.addr - m.addr % 16 + 16
    ∃ t, exec (.evRowRetired dt) s = .next t ∧ t.scrub.move = none ∧
      tblGet t.scrub.spares (8 * bankOf m.addr + m.spare) = some (rowOf m.addr) ∧
      counter t 0x10B = min (2 ^ 64 - 1) (counter s 0x10B + 1) ∧ MemSame s t inRow ∧
      ∀ a d, inRow a → regionOf a ≠ .reserved →
        (decodePhys (memRaw s.mem a) = .clean d ∨ decodePhys (memRaw s.mem a) = .corrected d → memRaw t.mem a = physOf d) ∧
        (decodePhys (memRaw s.mem a) = .poisoned ∨ decodePhys (memRaw s.mem a) = .invalid → memRaw t.mem a = memRaw s.mem a)) ∧
  (∀ (s : State) (a : Nat), decodePhys (memRaw s.mem a) = .poisoned →
    scrubWord s a = { s with scrub := { s.scrub with poisonSeen := s.scrub.poisonSeen + 1 } })

/-- O39 (R196, R197, R198, R199, R200, R201, R209, R211). While firmware runs, for a request of a requester that has
a place at the arbiter, presented alone in a cycle of the arbiter's own clock: with nothing granted or waiting
there it is granted from that cycle with its declared burst; with one grant standing, which its holder releases
in that cycle with its words transferred, it is granted then and the longest hold kept. With every server taken
and nothing released it is parked behind the others while fewer than 8 entries are in use; with 8 in use, and no
dedicated line, it stalls behind them and the full queue is counted. At a transmit chain's arbiter held by
management cores alone, with nothing waiting, the chain's transmit ME is granted at that decision and their
grants end. -/
def Obligations.ArbitersGrantOrPark : Prop :=
  ∀ (dt sub : Nat) (a : Fin 52) (q : ArbReq) (s : State), running s = true → (arbRank s a.val q.code q.header).isSome = true →
    let x := tblAt s.arbs a.val {}
    let cycle := arbCycles a.val (s.now + dt) + sub
    let g : Grant := ⟨q.code, q.burst, q.header, cycle⟩
    let after := fun t : State => tblAt t.arbs a.val {}
    (x.holders = [] → x.parked = [] → x.stalled = [] → ∃ t, exec (.arbiterDecision dt a [q] [] sub) s = .next t ∧
      (after t).holders = [g] ∧ (after t).parked = [] ∧ (after t).stalled = []) ∧
    (∀ h, x.holders = [h] → h.since + h.burst ≤ cycle → x.parked = [] → x.stalled = [] →
      ∃ t, exec (.arbiterDecision dt a [q] [h.code] sub) s = .next t ∧ (after t).holders = [g] ∧
        (after t).holdMax = max x.holdMax (cycle - h.since)) ∧
    (arbServers a.val ≤ x.holders.length → (∀ h ∈ x.parked ++ x.stalled, h.code ≠ q.code) →
      (a.val < 40 ∨ q.code ≠ a.val - 38 ∨ ∀ h ∈ x.holders, 2 ≤ h.code) →
      (queued a.val x < 8 → x.stalled = [] → ∃ t, exec (.arbiterDecision dt a [q] [] sub) s = .next t ∧
        (after t).holders = x.holders ∧ (after t).parked = x.parked ++ [g] ∧ (after t).stalled = []) ∧
      (8 ≤ queued a.val x → dedicated a.val q.code = false → ∃ t, exec (.arbiterDecision dt a [q] [] sub) s = .next t ∧
        (after t).holders = x.holders ∧ (after t).parked = x.parked ∧ (after t).stalled = x.stalled ++ [g] ∧
        counter t (0x380 + a.val) = min (2 ^ 64 - 1) (counter s (0x380 + a.val) + 1))) ∧
    (40 ≤ a.val → q.code = a.val - 38 → (∀ h ∈ x.holders, h.code ≤ 1) → x.parked = [] → x.stalled = [] →
      ∃ t, exec (.arbiterDecision dt a [q] [] sub) s = .next t ∧ (after t).holders = [g])

/-- O40 (R190, R191, R192, R194, R289, R290, R291). While firmware runs: FRAME_SEGMENT_WRITE of a context in payload
with enough whole octets of its PSDU appends the segment, two equal header words of its context, frame sequence,
kind and length and then its data, each under its check bits, to what the filling bank and the words held behind
it hold. FIFO_BANK_SWAP, when due, makes the filling bank the draining one and takes the words held into the
other. DRAIN_SEGMENT of a readable first segment at the head of the draining bank opens the lowest-numbered free
buffer with its words, which leave the bank, or stops the drain and counts it where none is free; DRAIN_RESUME
starts it again once one is. -/
def Obligations.FrameFifoAndDrain : Prop :=
  (∀ (dt : Nat) (b : Band) (ctx : Fin 144) (kind : Fin 4) (n k l : Nat) (x : Lane) (s : State), running s = true →
    let v := syncReads (advance dt s)
    let rest := (x.octets.take x.length).drop x.written
    (fifo v b.val).held = [] → v.rx.tails.find? (fun t => t.band == b && t.ctx == ctx.val) = none →
    laneOfCtx v b.val ctx.val = some (k, l, x) → x.st = .payload → segmentFits kind.val n rest.length x.fseq = true →
    ∃ t, exec (.frameSegmentWrite dt b ctx kind n) s = .next t ∧
      (fifo t b.val).filling ++ (fifo t b.val).held = (fifo v b.val).filling ++
        (segmentWords ctx.val (x.fseq.getD (tblAt v.rx.fseq b.val 0)) kind.val (packWords n (rest.take (9 * n)))).map
          (fun w => (fifoWord w.1, w.2))) ∧
  (∀ (ctx : Fin 144) (fseq : BitVec 16) (kind : Fin 4) (data : List Word), data.length ≤ 64 →
    ∃ h, (segmentWords ctx.val fseq.toNat kind.val data).map (·.1) = h :: h :: data ∧ fld h 7 0 = ctx.val ∧
      fld h 23 8 = fseq.toNat ∧ fld h 25 24 = kind.val ∧ fld h 32 26 = data.length) ∧
  (∀ (dt : Nat) (f : Fin 4) (s : State), running s = true → swapDue f.val (fifo s f.val) = true →
    ∃ t, exec (.fifoBankSwap dt f) s = .next t ∧ (fifo t f.val).draining = (fifo s f.val).filling ∧
      (fifo t f.val).fillBank = !(fifo s f.val).fillBank ∧ (fifo t f.val).filling = (fifo s f.val).held.take (bankSize f.val) ∧
      (fifo t f.val).held = (fifo s f.val).held.drop (bankSize f.val)) ∧
  (∀ (dt : Nat) (b : Band) (h : Word) (rest : List Word) (s : State), running s = true → (pool s b.val).stopped = false →
    (fifo s b.val).partly = [] → (fifo s b.val).draining.map (·.1) = fifoWord h :: fifoWord h :: rest.map fifoWord →
    fld h 25 24 = 0 → fld h 32 26 ≤ rest.length →
    (∀ k, freeBuffer (pool s b.val) = some k → ∃ t, exec (.drainSegment dt b []) s = .next t ∧
      tblGet (pool t b.val).opened (fld h 23 8) = some (k, fld h 32 26) ∧ tblAt (pool t b.val).used k false = true ∧
      (fifo t b.val).draining.map (·.1) = (rest.drop (fld h 32 26)).map fifoWord ∧
      ∀ i < fld h 32 26, memRaw t.mem (bufferAddr b.val k + 4 + i) = physOf (rest.getD i 0)) ∧
    (freeBuffer (pool s b.val) = none → ∃ t, exec (.drainSegment dt b []) s = .next t ∧ (pool t b.val).stopped = true ∧
      (fifo t b.val).draining = (fifo s b.val).draining ∧
      counter t (0x80D + 32 * b.val) = min (2 ^ 64 - 1) (counter s (0x80D + 32 * b.val) + 1))) ∧
  (∀ (dt : Nat) (b : Band) (s : State), running s = true → (pool s b.val).stopped = true →
    (freeBuffer (pool s b.val)).isSome = true → ∃ t, exec (.drainResume dt b) s = .next t ∧ (pool t b.val).stopped = false)

/-- O41 (R271, R272, R274, R276, R277, R281, R285, R286, R288, R293, R308). While firmware runs, with the contexts'
reading brought up to the present: a LANE_DETECTION above the threshold, in the capture range and as long as its
profile says locks lane 0 of a running channel when it searches, with its mark, gain and frequency, a FOLLOW lane
searching instead, and is counted. CONTEXT_ASSIGN gives the oldest locked lane that fits a context of the engine
chosen and sends it to DEMOD from its detection point, or to REWIND from its mark less the pre-roll where it
reads from its ring. REWIND_FREEZE ends a rewind that has read up to the detection point in DEMOD with gain and
frequency as retrained. HEADER_CHECK of a lane in DEMOD that has read its header enters PAYLOAD with the declared
length and rate where it passes, abandons the frame under its cause where it fails, and notes an allowed mode
switch. CODEWORD_DECODED appends the octets of the oldest waiting payload codeword where it converged, the
whitening taken off where the frame is whitened, and otherwise abandons the frame as not decoded. FRAME_END of a
frame wholly read and decoded whose check matches leaves its last segment to be written with its metadata and
frees the lane; where the check fails the frame is abandoned. -/
def Obligations.LanesDetectAndDemodulate : Prop :=
  (∀ (dt : Nat) (b : Band) (ch : Fin 64) (mark detect : Nat) (metric : BitVec 10) (foff level : Int) (s : State), running s = true →
    let v := syncReads (advance dt s)
    let k := chanKey b.val ch.val
    let c := chanOf v k
    let p := (rxProfile s b.val (defProfile c.def_)).1
    c.status = 1 → present v b.val c ≠ 0 → mark ≤ detect → spansUnits c p mark detect = true → detect ≤ writePointer v c →
    fld p 32 23 < metric.toNat → foff.natAbs ≤ captureHz (fld p 2 1) (fld p 10 3) → c.lane0.st = .search →
    ∃ t m, exec (.laneDetection dt b ch mark detect metric foff level) s = .next t ∧ (chanOf t k).lane0.st = .locked ∧
      (chanOf t k).lane0.mark = some m ∧ (chanOf t k).lane0.gain = some (-48 - level) ∧ (chanOf t k).lane0.foff = foff ∧
      m.mark = mark ∧ m.detect = detect ∧ m.metric = metric ∧ m.foff = foff ∧ m.ants = present v b.val c ∧
      (chanOf t k).lane1.st = (if c.lane1.st = .follow then .search else c.lane1.st) ∧
      counter t (0x800 + 32 * b.val) = min (2 ^ 64 - 1) (counter s (0x800 + 32 * b.val) + 1) ∧
      counter t (0xA00 + k) = min (2 ^ 64 - 1) (counter s (0xA00 + k) + 1)) ∧
  (∀ (dt : Nat) (x k l d : Nat) (m : Mark) (s : State), running s = true → l < 2 →
    let v := syncReads (advance dt s)
    oldest ((lockedLanes v).filter (fun e => (pickDv v (chanRate (chanOf v e.2.1))).isSome)) = some (x, k, l) →
    pickDv v (chanRate (chanOf v k)) = some d → (laneOf (chanOf v k) l).mark = some m →
    ∃ t c, exec (.contextAssign dt) s = .next t ∧ (laneOf (chanOf t k) l).ctx = some c ∧ c / 18 = d ∧
      (laneOf (chanOf t k) l).st = (if (laneOf (chanOf v k) l).rewound then .rewind else .demod) ∧
      (laneOf (chanOf t k) l).read = (if (laneOf (chanOf v k) l).rewound then m.mark - m.pre else m.detect) * readUnit) ∧
  (∀ (dt : Nat) (b : Band) (ch : Fin 64) (l : Fin 2) (foff level : Int) (m : Mark) (s : State), running s = true →
    let v := syncReads (advance dt s)
    let k := chanKey b.val ch.val
    let x := laneOf (chanOf v k) l.val
    let p := (rxProfile s b.val (defProfile (chanOf v k).def_)).1
    x.st = .rewind → x.mark = some m → hasRead x m.detect = true → ∃ t, exec (.rewindFreeze dt b ch l foff level) s = .next t ∧
      laneOf (chanOf t k) l.val = { x with st := .demod, gain := some (-48 - level),
                                           foff := clampHz (captureHz (fld p 2 1) (fld p 10 3)) foff }) ∧
  (∀ (dt : Nat) (b : Band) (ch : Fin 64) (l : Fin 2) (obs : HeaderObs) (endAt : Nat) (ends : List Nat) (est : List (List AntEst))
    (hist : HistReads) (s : State), running s = true →
    let v := syncReads (advance dt s)
    let k := chanKey b.val ch.val
    let x := laneOf (chanOf v k) l.val
    let verdict := judgeHeader (rxProfile s b.val (defProfile (chanOf v k).def_)).1 x.switched obs
    x.st = .demod → x.stalled = false → hasRead x endAt = true →
    (∀ n r fcs4 w, verdict = .pass n r fcs4 w → ∃ t, exec (.headerCheck dt b ch l obs endAt ends est hist) s = .next t ∧
      (laneOf (chanOf t k) l.val).st = .payload ∧ (laneOf (chanOf t k) l.val).length = n ∧ 1 ≤ n ∧ n ≤ 2047 ∧
      (laneOf (chanOf t k) l.val).rate = BitVec.ofNat 8 r ∧ (laneOf (chanOf t k) l.val).octets = x.octets) ∧
    (∀ cause, verdict = .fail cause → ∃ t, exec (.headerCheck dt b ch l obs endAt ends est hist) s = .next t ∧
      Abandons v t b k l.val cause) ∧
    (∀ i e, verdict = .switch i e → parB s (0xB400 + b.val) = true → i ≤ 6 → leastBins 1 i ≤ defBins (chanOf v k).def_ →
      ∃ t, exec (.headerCheck dt b ch l obs endAt ends est hist) s = .next t ∧
        laneOf (chanOf t k) l.val = { x with switched := some (i, e) })) ∧
  (∀ (dt : Nat) (b : Band) (ch : Fin 64) (l : Fin 2) (it co : Nat) (os : Octets) (hist : HistReads) (s : State), running s = true →
    let v := syncReads (advance dt s)
    let k := chanKey b.val ch.val
    let x := laneOf (chanOf v k) l.val
    let lrc := fld (rxProfile s b.val (defProfile (chanOf v k).def_)).1 2 1 == 0
    let new := os.take (x.length + (if lrc then 4 else 0) - x.octets.length)
    x.st = .payload → x.stalled = false → firstQueued v k x = true →
    (∃ t, exec (.codewordDecoded dt b ch l false true it co os hist) s = .next t ∧
      (laneOf (chanOf t k) l.val).octets = x.octets ++ (if x.whiten then whiten x.octets.length new else new) ∧
      (laneOf (chanOf t k) l.val).queued = x.queued.tail ∧ (laneOf (chanOf t k) l.val).st = .payload) ∧
    (∃ t, exec (.codewordDecoded dt b ch l false false it co os hist) s = .next t ∧ Abandons v t b k l.val 4)) ∧
  (∀ (dt : Nat) (b : Band) (ch : Fin 64) (l : Fin 2) (obs : RxObs) (hist : HistReads) (m : Mark) (c : Nat) (s : State), running s = true →
    let v := syncReads (advance dt s)
    let k := chanKey b.val ch.val
    let x := laneOf (chanOf v k) l.val
    let lrc := fld (rxProfile s b.val (defProfile (chanOf v k).def_)).1 2 1 == 0
    let y := { x with octets := takeOctets lrc x obs.rest }
    x.st = .payload → x.mark = some m → x.ctx = some c → y.octets.length = wanted lrc x → x.stalled = false →
    hasRead x obs.endInstant = true → x.ends = [] → x.queued = [] →
    ((if lrc then crcOk y else fcsOk x.fcs4 y.octets) = true →
      ∃ t z, exec (.frameEnd dt b ch l obs hist) s = .next t ∧ t.rx.tails = v.rx.tails ++ [z] ∧ z.band = b ∧ z.ctx = c ∧
        z.ch = ch.val ∧ z.info = some (metaWords v b.val ch.val l.val (chanOf v k) y m obs) ∧
        z.octets = (y.octets.take x.length).drop x.written ∧ LaneFreed v t k l.val) ∧
    ((if lrc then crcOk y else fcsOk x.fcs4 y.octets) = false →
      ∃ t, exec (.frameEnd dt b ch l obs hist) s = .next t ∧ Abandons v t b k l.val 5))

/-- O42 (R267, R268, R270, R279, R281, R284). While firmware runs, with the contexts' reading brought up to the
present: LANE_OVERRUN of a lane past LOCKED whose next instant the write pointer has overwritten, and
LANE_BLANK_INSTANT of one that has read into samples that are all blanked or absent, each abandon the frame under
its cause: it is counted, an abandon segment is left where one was written before, and the lane takes the oldest
mark or searches or follows. MARK_OVERTAKEN drops the overtaken marks of a running channel and of its lanes in
LOCKED and counts them. AGC_WINDOW_END of a receiving chain that is not blanked lowers the analog gain by two
steps at full scale and by one above rx.agc.high; otherwise it raises it by one step, to 15 at most, once as many
windows as rx.agc.dwell names have stayed below rx.agc.low, and else leaves it. -/
def Obligations.LanesLoseFrames : Prop :=
  (∀ (dt : Nat) (b : Band) (ch : Fin 64) (l : Fin 2) (s : State), running s = true →
    let v := syncReads (advance dt s)
    let k := chanKey b.val ch.val
    let c := chanOf v k
    let x := laneOf c l.val
    carries x = true → x.st ≠ .locked →
    (x.read / readUnit + c.ringLen ≤ writePointer v c → ∃ t, exec (.laneOverrun dt b ch l) s = .next t ∧
      Abandons v t b k l.val 7) ∧
    (∀ m e, x.mark = some m → m.blankAt = some e → readPast c x e = true → ∃ t, exec (.laneBlankInstant dt b ch l) s = .next t ∧
      Abandons v t b k l.val 6)) ∧
  (∀ (dt : Nat) (b : Band) (ch : Fin 64) (s : State), running s = true →
    let v := syncReads (advance dt s)
    let k := chanKey b.val ch.val
    let c := chanOf v k
    let late := c.marks.filter (fun m => overtaken v c m.mark (par s 0xA800))
    let lost := fun (x : Lane) => x.st == .locked && (match x.mark with | some m => overtaken v c m.mark m.pre | none => false)
    let n := late.length + (lost c.lane0).toNat + (lost c.lane1).toNat
    c.status = 1 → n ≠ 0 → ∃ t, exec (.markOvertaken dt b ch) s = .next t ∧
      counter t (0x80A + 32 * b.val) = min (2 ^ 64 - 1) (counter s (0x80A + 32 * b.val) + n) ∧
      (∀ m ∈ (chanOf t k).marks, m ∈ c.marks ∧ overtaken v c m.mark (par s 0xA800) = false) ∧
      lost (chanOf t k).lane0 = false ∧ lost (chanOf t k).lane1 = false ∧
      (lost c.lane0 = false → lost c.lane1 = false →
        (chanOf t k).marks = c.marks.filter (fun m => !overtaken v c m.mark (par s 0xA800)))) ∧
  (∀ (dt : Nat) (chain : Chain) (peak : Int) (s : State), running s = true →
    let x := chainSt s chain.val
    let dwell := if peak < parI s (0xA403 + bandOf chain.val) then x.dwell + 1 else 0
    inRx x = true → blanked s (bandOf chain.val) = false →
    (∃ t, exec (.agcWindowEnd dt chain peak true) s = .next t ∧ (chainSt t chain.val).gain = x.gain - 2) ∧
    (∃ t, exec (.agcWindowEnd dt chain peak false) s = .next t ∧
      (parI s (0xA400 + bandOf chain.val) < peak → (chainSt t chain.val).gain = x.gain - 1) ∧
      (peak ≤ parI s (0xA400 + bandOf chain.val) →
        (chainSt t chain.val).gain = if par s (0xA406 + bandOf chain.val) ≤ dwell then min (x.gain + 1) 15 else x.gain)))

/-- O43 (R215, R216, R217, R219, R221, R223, R225, R226, R230, R232, R254, R256). While firmware runs: BELLOWS_CHOICE
sets the gate of the chain's transmit engine from the time to the chain's next event (R219), and sends a free
chain standing in RX of a duty-cycled band with no event ahead towards Sleep, over in 2 µs, its synthesiser
setting gone. CHAIN_TRANSITION_END of a due transition into TX that has not ramped up puts the chain in TX and
plays its ramp curve; at the end of a due ramp-up of the chain's item it sends the item's frame in its mode on
its frequency and sets the start of ramp-down. A due transition into RX of a chain at its window's frequency that
nothing wants ends there. CAL_POINT_START takes the chain on which the band's next background point lies for it:
a chain in Standby, Synth-on or RX into CAL for 160 µs, one Off or asleep on the way. CAL_END of a point of the
band's grid writes the entry VALID where it locked and FAILED where not. CHAIN_CONFIG with one action completes
ST_OK with the chain's status after it: a query changes nothing else, and the others enable, disable, or clear
the back-off, low count and halt; enabling or disabling under another context's lock completes ST_LOCKED with the
holder. CAL_RUN of an enabled chain and a scope that has points leaves a journal record that is not done and a
run of those points. -/
def Obligations.ChainStatesAndCalibration : Prop :=
  (∀ (dt : Nat) (c : Chain) (s : State), running s = true →
    let u := advance dt s
    ∃ t, exec (.bellowsChoice dt c) s = .next t ∧ (engine t (2 + c.val)).gate = gateFor u (nextEvent u c.val) ∧
      (bellowsFree u c.val = true → par s (0xD002 + bandOf c.val) ≠ 0 → nextEvent u c.val = none → (chainSt s c.val).st = .rx →
        (chainSt s c.val).target = none →
        (chainSt t c.val).target = some (.sleep, s.now + dt + usC 2) ∧ (chainSt t c.val).freq = 0)) ∧
  (∀ (dt : Nat) (c : Chain) (e : Nat) (s : State), running s = true → (chainSt s c.val).target = some (.tx, e) →
    e ≤ s.now + dt → (chainSt s c.val).stop = none →
    ((chainSt s c.val).st ≠ .cal → (chainSt s c.val).st ≠ .tx → s.now + dt < e + usC (chainSt s c.val).rampUs →
      ∃ t, exec (.chainTransitionEnd dt c) s = .next t ∧ (chainSt t c.val).st = .tx ∧
        (chainSt t c.val).target = some (.tx, e + usC (chainSt s c.val).rampUs) ∧
        t.out = s.out ++ [.ramp c (rampPoints s c.val) (chainSt s c.val).rampUs]) ∧
    (∀ id i, (chainSt s c.val).st = .tx → (chainSt s c.val).holder = .item id → findItem s id = some i →
      ∃ t w, exec (.chainTransitionEnd dt c) s = .next t ∧ (chainSt t c.val).st = .tx ∧ (chainSt t c.val).target = none ∧
        (chainSt t c.val).downAt = some (e + cycles6 i.air6 - 2 * usC i.rampUs) ∧ t.out = s.out ++ [.air c i.freq w] ∧
        w.mode = packetMode s (bandOf c.val) i.mode ∧ w.psdu = psduOnAir w.mode i.frame)) ∧
  (∀ (dt : Nat) (c : Chain) (e : Nat) (s : State), running s = true → (chainSt s c.val).st ≠ .cal →
    (chainSt s c.val).target = some (.rx, e) → (chainSt s c.val).holder = .none → (chainSt s c.val).next = none →
    (chainSt s c.val).want = none → (chainSt s c.val).blankFrom = none → chainEnabled s c.val = true →
    s.calRuns.find? (fun r => r.chain.val == c.val) = none → (chainSt s c.val).freq = windowLo s (bandOf c.val) →
    ∃ t, exec (.chainTransitionEnd dt c) s = .next t ∧ (chainSt t c.val).st = .rx ∧ (chainSt t c.val).target = none) ∧
  (∀ (dt : Nat) (c : Chain) (g : Nat) (s : State), let u := advance dt s
    running s = true → parB s 0x1801 = true → backgroundBusy u (bandOf c.val) = false →
    backgroundPoint u (bandOf c.val) = some (c.val, g) →
    ∃ t, exec (.calPointStart dt c) s = .next t ∧ (chainSt t c.val).calPoint = g ∧ (chainSt t c.val).holder = .background ∧
      ((chainSt s c.val).st ≠ .off → (chainSt s c.val).st ≠ .sleep → (chainSt t c.val).st = .cal ∧
        (chainSt t c.val).target = some (.synthOn, s.now + dt + usC 160)) ∧
      ((chainSt s c.val).st = .off → (chainSt t c.val).target = some (.sleep, s.now + dt + usC 50)) ∧
      ((chainSt s c.val).st = .sleep → (chainSt t c.val).target = some (.standby, s.now + dt + usC 120))) ∧
  (∀ (dt : Nat) (c : Chain) (locked : Bool) (vb : BitVec 6) (cap kv : BitVec 8) (li lq : BitVec 12) (s : State),
    running s = true → (chainSt s c.val).st = .cal → (chainSt s c.val).calPoint ≤ lastGrid (bandOf c.val) →
    ∃ t, exec (.calEnd dt c locked vb cap kv li lq) s = .next t ∧
      calState t c.val (chainSt s c.val).calPoint = if locked then 1 else 3) ∧
  (∀ (dt : Nat) (hc : Hc) (w : Word) (s u : State) (p : Packet), Took dt hc 0x100 1 1 s p u → p.payload = [w] →
    reservedSet w (bits 7 0) = false →
    let k := fld w 3 0
    k < 12 →
    let ends := fun (v : State) => exec (.chainConfig dt hc) s =
      .next (completeAs v hc 0x100 p.hdr stOk [BitVec.ofNat 72 (chainStatus v k)])
    (fld w 7 4 = 0 → ends u) ∧
    (groupLocked u hc 0x1400 = false →
      (fld w 7 4 = 1 → ∃ v, ends v ∧ chainEnabled v k = true) ∧ (fld w 7 4 = 2 → ∃ v, ends v ∧ chainEnabled v k = false)) ∧
    (fld w 7 4 = 3 → ∃ v, ends v ∧ (chainSt v k).backoff = 0 ∧ (chainSt v k).halted = false ∧ (chainSt v k).low = 0) ∧
    (∀ o, lockedBy u hc (groupOf 0x1400) = some o → (fld w 7 4 = 1 ∨ fld w 7 4 = 2) →
      exec (.chainConfig dt hc) s = .next (completeAs u hc 0x100 p.hdr stLocked [at' 0 o.val]))) ∧
  (∀ (dt : Nat) (hc : Hc) (s u : State) (p : Packet), Took dt hc 0x102 1 1 s p u → reservedSet (p.word 1) (bits 27 0) = false →
    let c := fld (p.word 1) 3 0
    c < 12 → fld (p.word 1) 5 4 ≠ 3 → (fld (p.word 1) 5 4 = 0 → inBand (bandOf c) (fld (p.word 1) 27 6) = true) →
    chainEnabled u c = true → calScope u c (fld (p.word 1) 5 4) (fld (p.word 1) 27 6) ≠ [] →
    ∃ t j r, exec (.calRun dt hc) s = .next t ∧ j ∈ (ctx t hc).journal ∧ j.id = p.id ∧ j.opcode = 0x102 ∧ j.done = false ∧
      r ∈ t.calRuns ∧ r.job = p.id ∧ r.chain.val = c ∧ r.points = calScope u c (fld (p.word 1) 5 4) (fld (p.word 1) 27 6))

/-- O44 (R117, R228, R229, R231, R245, R246, R247, R248, R257, R366, R367). While firmware runs: TX_COMMIT at an
eligible item's commit point ends it where one of R229's checks fails, and for a host item that holds no chain
its record becomes DONE with that status and AIR clear; an item that passes and whose frame is built stands
committed with that frame, its start planned, one attempt more and the acknowledgement wait in force.
QUENCH_PA_REQUEST at the start of the transition into TX of the committed item that stands ready ends the item
where its chain is disabled or Quench refuses, the duty bins and reservations unchanged, and otherwise puts it on
air: its duty is reserved, the chain blanks from now, and its PA comes on a ramp before the transmit instant.
QUENCH_CUT of a transmission that has reached its dwell or the duty allowance stops it as ST_REG_CUT.
QUENCH_BIN_ROLL at a bin's end moves every bin on by one and empties the current one. EV_SYNTH_UNLOCK marks the
entry in use INCOMPLETE, stops a transmission in progress with ST_SYNTH_UNLOCK, and sends a receiving chain that
nothing holds through CAL back to RX. -/
def Obligations.CommitAndQuench : Prop :=
  (∀ (dt item : Nat) (i : Item) (c : Chain) (s : State), running s = true → findItem s item = some i →
    i.chain = some c → i.st = .eligible →
    let b := bandOf c.val
    let u := readCal (advance dt s) c.val (gridOf b (txLo s b i.freq (occupied s b i.mode)))
    cyclesAt u i.instant - usC 300 ≤ u.now → (i.src = .group → groupEntries u i ≠ []) →
    let check := commitCheck u c.val (airtime6 u b i.mode i.psdu (ramp u c.val)) (plan u c.val i).1
      (cyclesAt u i.instant + usC i.tolerance)
    (∀ st, check = some st → ∃ t, exec (.txCommit dt item) s = .next t ∧ findItem t item = none ∧
      ∀ hc job tag, i.src = .host hc job tag → (chainSt s c.val).holder ≠ .item item →
        ∀ r ∈ (ctx t hc).journal, r.id = job → r.done = true ∧ r.status = st ∧ r.air = false) ∧
    (∀ frame v, check = none → buildFrame u i (plan u c.val i).1 = (v, .inl frame) → (findItem v item).isSome = true →
      chainEnabled v c.val = true →
      ∃ t j, exec (.txCommit dt item) s = .next t ∧ findItem t item = some j ∧ j.st = .committed ∧ j.frame = frame ∧
        j.attempts = i.attempts + 1 ∧ j.lastAsn = i.asn ∧ j.ackWait = par s (0x28C4 + b) ∧ j.startAt = (plan u c.val i).1)) ∧
  (∀ (dt : Nat) (c : Chain) (id : Nat) (i : Item) (s : State), running s = true → (chainSt s c.val).holder = .item id →
    findItem s id = some i → i.st = .committed →
    let b := bandOf c.val
    let bw := occupied s b i.mode
    let lead := usC (leadUs s c.val + i.rampUs)
    readyForTx s c.val (txLo s b i.freq bw) i.useCal = true → i.startAt - lead ≤ s.now + dt →
    (chainEnabled s c.val = true → ∀ e, quenchCheck s c.val i.freq bw i.air6 = .inl e →
      ∃ t j, exec (.quenchPaRequest dt c) s = .next t ∧ findItem t id = some j ∧ j.st = .onAir ∧
        j.startAt = max i.startAt (s.now + dt + lead) ∧ (chainSt t c.val).target = some (.tx, j.startAt - usC i.rampUs) ∧
        (chainSt t c.val).paSince = some (j.startAt - usC i.rampUs) ∧ (chainSt t c.val).blankFrom = some (s.now + dt) ∧
        t.quench.reserves = s.quench.reserves ++ [⟨e, c, ticks6 i.air6⟩]) ∧
    ((chainEnabled s c.val = false ∨ ∃ r, quenchCheck s c.val i.freq bw i.air6 = .inr r) →
      ∃ t, exec (.quenchPaRequest dt c) s = .next t ∧ findItem t id = none ∧ t.quench = s.quench)) ∧
  (∀ (dt : Nat) (c : Chain) (r : Reserve) (s : State), running s = true →
    s.quench.reserves.find? (fun x => x.chain.val == c.val) = some r →
    let u := advance dt s
    paOn u c.val = true → mayStop u c.val stRegCut = true →
    (fld (quenchB s.quench r.entry) 15 0 ≠ 0 ∧ usC (100 * fld (quenchB s.quench r.entry) 15 0) ≤ paTime u c.val ∨
      allowance s.quench r.entry ≤ dutyRunning u r.entry) →
    ∃ t, exec (.quenchCut dt c) s = .next t ∧ (chainSt t c.val).stop = some stRegCut) ∧
  (∀ (dt : Nat) (s : State), s.quench.valid = true → s.quench.binStart + binLength s.quench ≤ s.now + dt →
    ∃ t, exec (.quenchBinRoll dt) s = .next t ∧ t.quench.binStart = s.quench.binStart + binLength s.quench ∧
      ∀ e, bin t.quench e 0 = 0 ∧ ∀ i < 64, bin t.quench e (i + 1) = bin s.quench e i) ∧
  (∀ (dt : Nat) (c : Chain) (s : State), running s = true →
    ((chainSt s c.val).st = .synthOn ∨ (chainSt s c.val).st = .rx ∨ (chainSt s c.val).st = .tx) → (chainSt s c.val).freq ≠ 0 →
    gridOf (bandOf c.val) (chainSt s c.val).freq ≤ lastGrid (bandOf c.val) →
    (paOn (advance dt s) c.val = true → (chainSt s c.val).stop = none → ∃ t, exec (.evSynthUnlock dt c) s = .next t ∧
      (chainSt t c.val).stop = some stSynthUnlock ∧ calState t c.val (gridOf (bandOf c.val) (chainSt s c.val).freq) = 2) ∧
    (paOn (advance dt s) c.val = false → (chainSt s c.val).holder = .none → (chainSt s c.val).st = .rx →
      ∃ t, exec (.evSynthUnlock dt c) s = .next t ∧ (chainSt t c.val).st = .cal ∧ (chainSt t c.val).want = some .rx ∧
        calState t c.val (gridOf (bandOf c.val) (chainSt s c.val).freq) = 2))

/-- O45 (R123, R234, R235, R236, R237, R238, R239, R240, R241, R255, R366). While firmware runs: RETURN_LOSS_READING
of a transmission at full power, at −10 dBm or more and not a probe's, is counted, and below the abort limit
stops the transmission, sets the 12 dB back-off, counts the abort and halts the chain at the third. PDET_STEP,
when its 16 µs are over, keeps the drive within 3 dB of the set power and under the clamp, and moves it by one
step of 0.25 dB towards the set power as the detector's curve gives the sample. TX_TIMEOUT of a PA that has been
on for its timeout is a cause to stop. TX_RAMP_DOWN_END, when the ramp-down is over, frees the chain, and ends
the item or, of a complete one that asked for it, lets it await its acknowledgement until the wait of its band is
over. ACK_WAIT_EXPIRY requeues the item with one retry less, or ends it. TUNE queues a search, or completes
ST_LOCKED with the holder under another context's lock of group 5; TUNE_NO_SLOT past the deadline ends it
ST_TUNE_NO_SLOT; TUNE_PROBE_START at the start of a quiet slot gives it its idle chain; TUNE_SEARCH_END stores
the codes at which the search over the readings ends, records ST_OK and starts the ramp-down. The measuring rows
change nothing but chains, Quench, counters and events. -/
def Obligations.TransmissionInProgress : Prop :=
  (∀ (dt : Nat) (c : Chain) (rl : BitVec 8) (f : Int) (s : State), running s = true → atFullPower (advance dt s) c.val = true →
    mayStop (advance dt s) c.val stTxAbortMismatch = true → -40 ≤ f → (chainSt s c.val).holder ≠ .tune →
    ∃ t, exec (.returnLossReading dt c rl f) s = .next t ∧ (chainSt t c.val).rlCount = (chainSt s c.val).rlCount + 1 ∧
      (chainSt t c.val).rlSum = (chainSt s c.val).rlSum + rl.toNat ∧
      (4 * par s 0x1C11 ≤ rl.toNat → (chainSt t c.val).stop = (chainSt s c.val).stop) ∧
      (rl.toNat < 4 * par s 0x1C11 → ((chainSt s c.val).stop = none → (chainSt t c.val).stop = some stTxAbortMismatch) ∧
        (chainSt t c.val).backoff = 12 ∧ (chainSt t c.val).aborts = (chainSt s c.val).aborts + 1 ∧
        (2 ≤ (chainSt s c.val).aborts → (chainSt t c.val).halted = true))) ∧
  (∀ (dt : Nat) (c : Chain) (sample : BitVec 12) (t0 : Nat) (s : State), running s = true → (chainSt s c.val).pdet = some t0 →
    atFullPower (advance dt s) c.val = true → (chainSt s c.val).stop = none → t0 + usC 16 ≤ s.now + dt →
    let m := tblAt s.image.detector (4096 * bandOf c.val + sample.toNat) 0
    let x := chainSt s c.val
    ∃ t, exec (.pdetStep dt c sample) s = .next t ∧ (chainSt t c.val).pdet = some (t0 + usC 16) ∧
      (chainSt t c.val).drive ≤ x.setPower + 12 ∧ (∀ k, x.clamp = some k → (chainSt t c.val).drive ≤ k) ∧
      (x.clamp = none → x.setPower - 12 ≤ (chainSt t c.val).drive) ∧
      (x.clamp = none → m < x.setPower → x.drive < x.setPower + 12 → x.setPower - 12 ≤ x.drive →
        (chainSt t c.val).drive = x.drive + 1) ∧
      (x.clamp = none → x.setPower < m → x.drive ≤ x.setPower + 12 → x.setPower - 12 < x.drive →
        (chainSt t c.val).drive = x.drive - 1)) ∧
  (∀ (dt : Nat) (c : Chain) (s : State), running s = true → paOn (advance dt s) c.val = true →
    mayStop (advance dt s) c.val stTxTimeout = true → msC (chainSt s c.val).timeout ≤ paTime (advance dt s) c.val →
    ∃ t, exec (.txTimeout dt c) s = .next t ∧ stTxTimeout ∈ (chainSt t c.val).causes ∧
      ((chainSt s c.val).stop = none → (chainSt t c.val).stop = some stTxTimeout)) ∧
  (∀ (dt : Nat) (c : Chain) (lv : List Int) (id : Nat) (i : Item) (s : State), running s = true →
    (chainSt s c.val).holder = .item id → findItem s id = some i → i.st = .onAir → rampedDown (advance dt s) c.val = true →
    ∃ t, exec (.txRampDownEnd dt c lv) s = .next t ∧ (chainSt t c.val).holder = .none ∧ (chainSt t c.val).paSince = none ∧
      ((chainSt s c.val).stop.isSome = true ∨ i.ack = false → findItem t id = none) ∧
      (∀ d, (chainSt s c.val).stop = none → (chainSt s c.val).downAt = some d → i.ack = true → ∃ j, findItem t id = some j ∧
        j.st = .awaitAck ∧ j.aired = true ∧ j.ackAt = d + usC i.ackWait)) ∧
  (∀ (dt item : Nat) (i : Item) (s : State), running s = true → findItem s item = some i → i.st = .awaitAck → i.ackAt ≤ s.now + dt →
    ∃ t, exec (.ackWaitExpiry dt item) s = .next t ∧ (i.retries = 0 → findItem t item = none) ∧
      (i.retries ≠ 0 → ∃ j, findItem t item = some j ∧ j.st = .queued ∧ j.retries = i.retries - 1)) ∧
  (∀ (dt : Nat) (hc : Hc) (s u : State) (p : Packet), Took dt hc 0x101 1 2 s p u → reservedSet (p.word 1) (bits 26 0) = false →
    fld (p.word 1) 3 0 < 12 → (fld (p.word 1) 25 4 = 0 ∨ inBand (bandOf (fld (p.word 1) 3 0)) (fld (p.word 1) 25 4) = true) →
    (∀ o, lockedBy u hc (groupOf 0x1450) = some o →
      exec (.tune dt hc) s = .next (completeAs u hc 0x101 p.hdr stLocked [at' 0 o.val])) ∧
    (groupLocked u hc 0x1450 = false → chainEnabled u (fld (p.word 1) 3 0) = true →
      ∃ t j r, exec (.tune dt hc) s = .next t ∧ t.tunes = u.tunes ++ [j] ∧ j.job = p.id ∧ j.chain.val = fld (p.word 1) 3 0 ∧
        j.probe = none ∧ r ∈ (ctx t hc).journal ∧ r.id = p.id ∧ r.opcode = 0x101 ∧ r.done = false)) ∧
  (∀ (dt : Nat) (c : Chain) (j : TuneJob) (s : State), running s = true →
    s.tunes.find? (fun j => j.chain.val == c.val && j.probe.isNone) = some j → j.deadline < s.now + dt →
    ∃ t, exec (.tuneNoSlot dt c) s = .next t ∧ (∀ k ∈ t.tunes, ¬(k.hc = j.hc ∧ k.job = j.job)) ∧
      ∀ r ∈ (ctx t j.hc).journal, r.id = j.job → r.done = true ∧ r.status = stTuneNoSlot) ∧
  (∀ (dt : Nat) (c : Chain) (j : TuneJob) (a m : Nat) (s : State), running s = true →
    let u := advance dt s
    let b := bandOf c.val
    s.tunes.find? (fun j => j.chain.val == c.val) = some j → j.probe = none → asnNow u = some a → governingSlot u b a = some m →
    slotBegins u a = true → slotQuiet u b a m = true → bandCommitted s b = false → s.now + dt ≤ j.deadline →
    chainIdle s c.val = true → (chainSt s c.val).target = none →
    ∃ t, exec (.tuneProbeStart dt c) s = .next t ∧ (chainSt t c.val).holder = .tune ∧
      ∃ k ∈ t.tunes, k.hc = j.hc ∧ k.job = j.job ∧ k.probe = some (s.now + dt, a)) ∧
  (∀ (dt : Nat) (c : Chain) (rs : List (BitVec 8)) (j : TuneJob) (t0 : Nat) (s : State), running s = true →
    s.tunes.find? (fun j => j.chain.val == c.val && j.probe.isSome) = some j → (chainSt s c.val).holder = .tune →
    (chainSt s c.val).paSince = some t0 → atFullPower (advance dt s) c.val = true → (chainSt s c.val).stop = none →
    t0 + usC ((chainSt s c.val).rampUs + if j.refine then 76 else 356) ≤ s.now + dt →
    let v : BitVec 64 := (codesWord (tuneSearch (chainSt s c.val).tuner j.refine rs).best).setWidth 64
    ∃ t, exec (.tuneSearchEnd dt c rs) s = .next t ∧ parStored t (0x1450 + c.val) = v ∧ parV t (0x1450 + c.val) = v ∧
      (chainSt t c.val).downAt = some (s.now + dt) ∧
      ∀ r ∈ (ctx t j.hc).journal, r.id = j.job → r.done = true ∧ r.status = stOk) ∧
  (∀ (dt : Nat) (c : Chain) (rl : BitVec 8) (f m : Int) (sample : BitVec 12) (full : Bool) (s t : State) (e : Instr),
    e ∈ [Instr.returnLossReading dt c rl f, .pdetStep dt c sample, .txTimeout dt c, .quenchCut dt c, .quenchBinRoll dt,
      .agcWindowEnd dt c m full] → exec e s = .next t →
    t = { advance dt s with chains := t.chains, quench := t.quench, counters := t.counters, evOut := t.evOut,
                            routes := t.routes, latches := t.latches })

/-- O46 (R486, R487, R490, R491, R492, R495, R496). TIME_SET while the timebase is UNSET makes it SET at the time
given, or arms that time for the next pulse, and completes ST_OK; while SET it completes ST_STEP_LOCKED and
counts. TIME_RATE with the servo off takes a rate within 1,000 ppm with ST_OK, the rings' anchors moving with it,
refuses a greater one ST_RATE_RANGE, and completes ST_TIME_SERVO while a source disciplines the timebase.
TIME_RESET completes ST_OK and leaves the timebase UNSET with its value running, no step armed, every unit
disarmed, the ASN unset, the replay filter and the group acknowledgements empty. While firmware runs, a whole ZDA
or RMC sentence of the running timebase, in its window and labelling the pulse before it, labels the last
accepted pulse, and counts TOD_MISMATCH where the timebase differs; one with a bad checksum or field counts
TOD_BAD and changes nothing else. TOD_OUTPUT sends the sentence that is due. -/
def Obligations.TimebaseStepsAndRates : Prop :=
  (∀ (dt : Nat) (hc : Hc) (s u : State) (p : Packet), Took dt hc 0x600 2 0 s p u → reservedSet (p.word 2) (bits 0 0) = false →
    (u.tb.set = true → exec (.timeSet dt hc) s = .next (completeAs (bump u 0x1604) hc 0x600 p.hdr stStepLocked [])) ∧
    (u.tb.set = false → (p.word 2).getLsbD 0 = true → exec (.timeSet dt hc) s =
      .next (completeAs { u with tb := { u.tb with armed := some (p.word 1) } } hc 0x600 p.hdr stOk [])) ∧
    (u.tb.set = false → (p.word 2).getLsbD 0 = false → ∃ v, exec (.timeSet dt hc) s = .next (completeAs v hc 0x600 p.hdr stOk []) ∧
      v.tb.set = true ∧ time v = p.word 1 ∧ v.tb.rate = u.tb.rate ∧ v.tb.armed = none)) ∧
  (∀ (dt : Nat) (hc : Hc) (s u : State) (p : Packet), Took dt hc 0x601 1 0 s p u → reservedSet (p.word 1) (bits 39 0) = false →
    let r : BitVec 40 := (p.word 1).setWidth 40
    (par u 0x6000 ≠ 0 → exec (.timeRate dt hc) s = .next (completeAs u hc 0x601 p.hdr stTimeServo [])) ∧
    (par u 0x6000 = 0 → (r.toInt < -281474976710 ∨ 281474976710 < r.toInt) →
      exec (.timeRate dt hc) s = .next (completeAs u hc 0x601 p.hdr stRateRange [])) ∧
    (par u 0x6000 = 0 → -281474976710 ≤ r.toInt → r.toInt ≤ 281474976710 →
      exec (.timeRate dt hc) s = .next (completeAs (rebase { u with tb := { u.tb with rate := r } }) hc 0x601 p.hdr stOk []))) ∧
  (∀ (dt : Nat) (hc : Hc) (s u : State) (p : Packet), Took dt hc 0x602 0 0 s p u →
    ∃ v, exec (.timeReset dt hc) s = .next (completeAs v hc 0x602 p.hdr stOk []) ∧ v.tb.set = false ∧ v.tb.armed = none ∧
      v.tb.value = u.tb.value ∧ (∀ n < 16, (teu v n).armed = false) ∧ v.mac.asnSet = false ∧ v.mac.replay = [] ∧ v.mac.groups = []) ∧
  (∀ (dt : Nat) (text : Octets) (c : Time72) (i utc : Nat) (s : State), running s = true → s.tb.set = true →
    let fs := splitAt' 0x2C (sentenceBody text).1
    let kind := (fs.headD []).drop 2
    let sec := utc + par s 0x6004
    (kind = [0x5A, 0x44, 0x41] ∨ kind = [0x52, 0x4D, 0x43]) →
    ((sentenceBody text).2 = true → sentenceTime (kind == [0x52, 0x4D, 0x43]) fs = some utc → s.tb.pulse = some (c, i) →
      i + msC 10 ≤ s.now + dt → s.now + dt ≤ i + msC 990 → par s 0x6803 = 0 →
      ∃ t, exec (.todSentence dt text) s = .next t ∧ t.tb.labelled = some (c, sec) ∧ t.tb.value = (advance dt s).tb.value ∧
        counter t 0x1603 = (if sec = (c.toNat + 2 ^ 31) / 2 ^ 32 then counter s 0x1603 else min (2 ^ 64 - 1) (counter s 0x1603 + 1))) ∧
    (((sentenceBody text).2 = false ∨ sentenceTime (kind == [0x52, 0x4D, 0x43]) fs = none) →
      exec (.todSentence dt text) s = .next (bump (advance dt s) 0x1602))) ∧
  (∀ (dt i : Nat) (c : Time72) (s : State), running s = true → s.tb.todOut = some (i, c) → i + msC 100 ≤ s.now + dt →
    ∃ t, exec (.todOutput dt) s = .next t ∧ t.tb.todOut = none ∧
      t.out = s.out ++ [.tod (zda (par s 0x6805) (c.toNat / 2 ^ 32 - par s 0x6004))])

/-- O47 (R71, R72, R490, R494). While its registers are served the device captures an edge of the selected sense with
its time, and an opposite edge ends its level. A captured edge whose level was shorter than pps.min.width is
dropped. The first edge starts qualification; during qualification an edge out of the window counts in PPS_REJECT
and becomes the reference, and the third one in the window brings acceptance and counts; an accepting input
rejects an edge out of the window. A pulse delivered while a step is armed moves the timebase so that the pulse
carries the armed time. PPS_LOSS_TIMEOUT 1.5 s after the last pulse ends acceptance as lost, with the servo of
source 1 in holdover, or qualification in the state it came from. -/
def Obligations.PulsePerSecondInput : Prop :=
  (∀ (dt : Nat) (rising : Bool) (s : State), regsServed s = true →
    (s.pps.edge = none → rising = (par s 0x12 == 0) → ∃ t, exec (.ppsEdgeCapture dt rising) s = .next t ∧
      t = { advance dt s with pps := { s.pps with edge := some (time (advance dt s), s.now + dt, none) } }) ∧
    (∀ c i, s.pps.edge = some (c, i, none) → s.now + dt < i + nsC (par s 0x13) → rising ≠ (par s 0x12 == 0) →
      exec (.ppsEdgeCapture dt rising) s =
        .next { advance dt s with pps := { s.pps with edge := some (c, i, some (s.now + dt)) } })) ∧
  (∀ (dt : Nat) (c : Time72) (i : Nat) (other : Option Nat) (s : State), regsServed s = true →
    s.pps.edge = some (c, i, other) → i + nsC (par s 0x13) ≤ s.now + dt →
    (∀ o, other = some o → (o - i) * 10000 < par s 0x13 * 4096 →
      exec (.ppsEdgeJudged dt) s = .next { advance dt s with pps := { s.pps with edge := none } }) ∧
    (other = none → (s.pps.st = 0 ∨ s.pps.st = 3) → ∃ t, exec (.ppsEdgeJudged dt) s = .next t ∧ t.pps.st = 1 ∧ t.pps.base = c ∧
      t.pps.count = 0 ∧ t.pps.edge = none ∧ t.tb = (advance dt s).tb) ∧
    (other = none → s.pps.st = 1 → oneSecond s s.pps.base c = false → ∃ t, exec (.ppsEdgeJudged dt) s = .next t ∧ t.pps.st = 1 ∧
      t.pps.base = c ∧ t.pps.count = 0 ∧ t.pps.reject = sat32 s.pps.reject ∧ t.tb = (advance dt s).tb) ∧
    (other = none → s.pps.st = 2 → oneSecond s s.pps.base c = false → exec (.ppsEdgeJudged dt) s =
      .next { advance dt s with pps := { s.pps with edge := none, reject := sat32 s.pps.reject } }) ∧
    (other = none → s.pps.st = 1 → oneSecond s s.pps.base c = true → ∃ t, exec (.ppsEdgeJudged dt) s = .next t ∧
      t.pps.st = (if 2 ≤ s.pps.count then 2 else 1) ∧ t.pps.count = s.pps.count + 1 ∧ t.pps.lastAt = i) ∧
    (other = none → s.pps.st = 2 → oneSecond s s.pps.base c = true → s.tb.set = false → s.tb.label = none → par s 0x6000 ≠ 1 →
      (s.tb.armed = none → ∃ t, exec (.ppsEdgeJudged dt) s = .next t ∧ t.pps.last = c ∧ t.pps.base = c ∧
        counter t 0x1600 = min (2 ^ 64 - 1) (counter s 0x1600 + 1) ∧ t.tb.pulse = some (c, i) ∧ t.tb.value = (advance dt s).tb.value) ∧
      (∀ target, s.tb.armed = some target → ∃ t, exec (.ppsEdgeJudged dt) s = .next t ∧ t.tb.set = true ∧ t.tb.armed = none ∧
        time t = time (advance dt s) + (target - c) ∧ t.tb.pulse = some (target, i)))) ∧
  (∀ (dt : Nat) (s : State), regsServed s = true → s.pps.lastAt + msC 1500 ≤ s.now + dt →
    (s.pps.st = 1 → exec (.ppsLossTimeout dt) s =
      .next { advance dt s with pps := { s.pps with st := if s.pps.from3 then 3 else 0, count := 0 } }) ∧
    (s.pps.st = 2 → ∃ t, exec (.ppsLossTimeout dt) s = .next t ∧ t.pps.st = 3 ∧ t.pps.last = s.pps.last ∧
      (par s 0x6000 = 1 → t.tb.servo = 3 ∧ t.tb.holdFrom = s.now + dt ∧ t.tb.rate = BitVec.ofInt 40 s.tb.freq) ∧
      (par s 0x6000 ≠ 1 → t.tb = (advance dt s).tb)))

/-- O48 (R161, R505, R506, R507, R509). TEU_CONFIG of a unit that the context does not own completes ST_NOT_OWNER;
with ARM 0 it disarms the unit. A unit without an output that is armed completes ST_TEU_RANGE with its fields out
of range, for a time in an UNSET timebase ST_TIME_UNSET, and otherwise ST_OK: it stands armed with its period for
its time, or, counting a late target, for the first multiple of its period that is not past. TEU_FIRE at the
firing time of a unit armed for a time, which feature 0x01 does not hold, counts the firing; a unit without a
period is disarmed, a periodic one armed a period later; its pin, while it carries the unit, is driven high, low
or to the opposite level; a pulse ends after its width. TEU_WIDTH_END when a width is over ends it, a pulse's pin
low again. -/
def Obligations.TimeEventUnits : Prop :=
  (∀ (dt : Nat) (hc : Hc) (s u : State) (p : Packet), Took dt hc 0x604 2 1 s p u → reservedSet (p.word 1) (bits 38 0) = false →
    let w := p.word 1
    let n := fld w 3 0
    let period := if w.getLsbD 5 then fld (p.word 3) 15 0 else (p.word 3).toNat
    (owns u hc 4 n = false → exec (.teuConfig dt hc) s = .next (completeAs u hc 0x604 p.hdr stNotOwner [])) ∧
    (owns u hc 4 n = true →
      (w.getLsbD 4 = false → exec (.teuConfig dt hc) s =
        .next (completeAs (setTeu u n { teu u n with armed := false }) hc 0x604 p.hdr stOk [])) ∧
      (w.getLsbD 4 = true → fld w 8 6 = 0 →
        (teuInRange u w (p.word 2) period = false →
          exec (.teuConfig dt hc) s = .next (completeAs u hc 0x604 p.hdr stTeuRange [])) ∧
        (teuInRange u w (p.word 2) period = true → w.getLsbD 5 = false →
          (u.tb.set = false → exec (.teuConfig dt hc) s = .next (completeAs u hc 0x604 p.hdr stTimeUnset [])) ∧
          (u.tb.set = true → ∃ v, exec (.teuConfig dt hc) s = .next (completeAs v hc 0x604 p.hdr stOk []) ∧ (teu v n).armed = true ∧
            (teu v n).aligned = false ∧ (teu v n).period = period ∧ (teu v n).fires = (teu u n).fires ∧
            ((p.word 2).toNat < (time u).toNat → (teu v n).late = (teu u n).late + 1 ∧
              (period = 0 → (teu v n).next = (p.word 2).toNat) ∧
              (period ≠ 0 → (time u).toNat ≤ (teu v n).next ∧ (teu v n).next < (time u).toNat + period ∧
                ∃ k, (teu v n).next = (p.word 2).toNat + k * period)) ∧
            ((time u).toNat ≤ (p.word 2).toNat → (teu v n).next = (p.word 2).toNat ∧ (teu v n).late = (teu u n).late)))))) ∧
  (∀ (dt : Nat) (n : Fin 16) (s : State), regsServed s = true → (teu s n.val).armed = true → (teu s n.val).aligned = false →
    (teu s n.val).held = false → (teu s n.val).next ≤ (time (advance dt s)).toNat →
    ∃ t, exec (.teuFire dt n) s = .next t ∧ (teu t n.val).fires = (teu s n.val).fires + 1 ∧
      ((teu s n.val).period = 0 → (teu t n.val).armed = false) ∧
      ((teu s n.val).period ≠ 0 → (teu t n.val).armed = true ∧ (teu t n.val).next = (teu s n.val).next + (teu s n.val).period) ∧
      (tblAt s.pins.fn (teu s n.val).pin .gpio = .teu n.val →
        let was := tblAt s.pins.level (teu s n.val).pin false
        let now := tblAt t.pins.level (teu s n.val).pin false
        (((teu s n.val).out = 1 ∨ (teu s n.val).out = 2) → now = true) ∧ ((teu s n.val).out = 3 → now = false) ∧
        ((teu s n.val).out = 4 → now = !was) ∧ ((teu s n.val).out = 0 → t.pins = s.pins)) ∧
      ((teu s n.val).out = 1 → (teu t n.val).till = some (s.now + dt + usC (teu s n.val).width))) ∧
  (∀ (dt : Nat) (n : Fin 16) (e : Nat) (s : State), (teu s n.val).till = some e → e ≤ s.now + dt →
    ∃ t, exec (.teuWidthEnd dt n) s = .next t ∧ (teu t n.val) = { teu s n.val with till := none } ∧
      ((teu s n.val).out = 1 → tblAt s.pins.fn (teu s n.val).pin .gpio = .teu n.val →
        tblAt t.pins.level (teu s n.val).pin false = false) ∧
      ((teu s n.val).out ≠ 1 → t.pins = s.pins))

/-- O49 (R161, R510, R511, R512, R513, R514). TIMER_CONFIG of a timer the context does not own completes ST_NOT_OWNER
and changes nothing else. Without CTRL it completes ST_OK and forces a reload, writes BUFFER, COMPARE and clears
the captures, as its strobes ask. With CTRL and neither output nor capture it completes ST_OK and stores RUN,
ONE_SHOT, PRESCALE and the actions; a timer that starts has its first edge a prescaled period later. While
registers are served: an edge of a running timer loads BUFFER at the start, when forced, or from zero in periodic
mode; a one-shot timer at zero stops; otherwise it counts down, and matches where the count reaches a COMPARE
that is not new. A capture's edge of the sense that begins a level stores the count, the other edge the count and
the width, marked new and, over one not yet read, overrun. -/
def Obligations.CountdownTimers : Prop :=
  (∀ (dt : Nat) (hc : Hc) (s u : State) (p : Packet), Took dt hc 0x603 2 1 s p u → reservedSet (p.word 1) (bits 44 0) = false →
    reservedSet (p.word 2) (bits 63 0) = false →
    let w := p.word 1
    let n := fld w 4 0
    (owns u hc 3 n = false → exec (.timerConfig dt hc) s = .next (completeAs u hc 0x603 p.hdr stNotOwner [])) ∧
    (owns u hc 3 n = true →
      (w.getLsbD 5 = false → ∃ v, exec (.timerConfig dt hc) s = .next (completeAs v hc 0x603 p.hdr stOk []) ∧
        v = { u with timers := v.timers } ∧ (timer v n).run = (timer u n).run ∧
        (timer v n).force = ((timer u n).force || w.getLsbD 10) ∧
        (timer v n).buffer = (if w.getLsbD 6 then (p.word 2).setWidth 32 else (timer u n).buffer) ∧
        (timer v n).compare = (if w.getLsbD 7 then (p.word 2 >>> 32).setWidth 32 else (timer u n).compare) ∧
        (w.getLsbD 44 = true → (timer v n).capRise = 0 ∧ (timer v n).capFall = 0 ∧ (timer v n).width = 0)) ∧
      (w.getLsbD 5 = true → w.getLsbD 15 = false → fld w 25 20 = 0 →
        ∃ v, exec (.timerConfig dt hc) s = .next (completeAs v hc 0x603 p.hdr stOk []) ∧
        (timer v n).run = w.getLsbD 8 ∧ (timer v n).oneShot = w.getLsbD 9 ∧ (timer v n).prescale = fld w 14 11 ∧
        (timer v n).matchAct = fld w 17 16 ∧ (timer v n).reloadAct = fld w 19 18 ∧
        (w.getLsbD 8 = true → (timer u n).run = false →
          (timer v n).starting = true ∧ (timer v n).edgeAt = u.now + 2 ^ fld w 14 11)))) ∧
  (∀ (dt : Nat) (k : Fin 32) (s : State), regsServed s = true → (timer s k.val).run = true → (timer s k.val).edgeAt ≤ s.now + dt →
    let x := timer s k.val
    let loads := x.starting = true ∨ x.force = true ∨ (x.count = 0 ∧ x.oneShot = false)
    ∃ t, exec (.timerEdge dt k) s = .next t ∧ (timer t k.val).edgeAt = x.edgeAt + 2 ^ x.prescale ∧
      (loads → (timer t k.val).count = x.buffer ∧ (timer t k.val).reloaded = true ∧ (timer t k.val).run = true) ∧
      (¬ loads → x.count = 0 → (timer t k.val).run = false ∧ (timer t k.val).count = 0) ∧
      (¬ loads → x.count ≠ 0 → (timer t k.val).count = x.count - 1 ∧ (timer t k.val).run = true) ∧
      (x.fresh = false → ¬ loads → x.count ≠ 0 → (timer t k.val).matched = (x.matched || x.compare == x.count - 1)) ∧
      (x.outEn = false → t.pins = s.pins)) ∧
  (∀ (dt : Nat) (k : Fin 32) (rising : Bool) (s : State), regsServed s = true → captures s k.val (timer s k.val) = true →
    let x := timer s k.val
    ∃ t, exec (.timerCapture dt k rising) s = .next t ∧
      (rising ≠ x.capInv → (timer t k.val).capRise = x.count ∧ (timer t k.val).widthCtr = 0) ∧
      (rising = x.capInv → (timer t k.val).capFall = x.count ∧ (timer t k.val).width = x.widthCtr ∧
        (timer t k.val).capNew = true ∧ (timer t k.val).capOverrun = (x.capOverrun || x.capNew)) ∧
      t = { advance dt s with timers := t.timers })

/-- O50 (R194, R494, R498, R499, R500, R501, R502). While firmware runs, once a PTP row has its message (an event
message with its capture): PTP_SYNC_RX of a Sync that is not the slave port's master's only counts it; of the
master's, a two-step one waits for its Follow_Up, and a one-step one is kept, and where a mean path delay is
known makes the port SLAVE and updates the servo with the phase error, after a step to the master's time where
the timebase is UNSET. PTP_FOLLOW_UP_RX of the waiting sequence number, with no mean path delay known yet, is
counted and kept. PTP_DELAY_REQ_RX off a MASTER port only counts it, on one it counts an answer.
PTP_DELAY_RESP_RX of the open exchange gives meanPathDelay as the mean of both directions. PTP_ANNOUNCE_RX of
another device with fewer than 255 steps enters its master in the port's list; an unsuitable one is only counted.
On a MASTER port PTP_SYNC_TX and PTP_ANNOUNCE_TX, on a slave port PTP_DELAY_REQ_TX, when due note their sending
and the next sequence number. After three announce intervals without an Announce a listening, passive or slave
port becomes MASTER, or LISTENING while the timebase is UNSET, its list empty; PRE_MASTER becomes MASTER when its
qualification is over. None of these rows changes memory, chains, parameters, fuses or contexts. -/
def Obligations.PtpMessagesAndPorts : Prop :=
  (∀ (dt : Nat) (q : Port) (flips : List (BitVec 80)) (s v : State) (m : PtpMsg), running s = true →
    takeEvent (advance dt s) q.val 0 flips = (v, some m) →
    (fromMaster v q.val m.octets = false → exec (.ptpSyncRx dt q flips) s = .next (ptpBump v q.val 0)) ∧
    (fromMaster v q.val m.octets = true → 44 ≤ m.octets.length →
      ((m.octets.getD 6 0).getLsbD 1 = true → ∃ t, exec (.ptpSyncRx dt q flips) s = .next t ∧
        (ptp t q.val).syncWait = some (ptpSeq m.octets, m.at_, ptpCorrection m.octets) ∧ t.tb = v.tb) ∧
      ((m.octets.getD 6 0).getLsbD 1 = false → ∃ t, exec (.ptpSyncRx dt q flips) s = .next t ∧ (ptp t q.val).syncWait = none ∧
        ((ptp v q.val).mean = none → (ptp t q.val).sync = some (ptpStamp m.octets + ptpCorrection m.octets, m.at_) ∧ t.tb = v.tb) ∧
        (∀ d, (ptp v q.val).mean = some d → v.tb.set = true → (ptp t q.val).st = 9 ∧ t.tb.value = v.tb.value ∧
          t.tb.phase = ingressNs v q.val m.at_ - (ptpStamp m.octets + ptpCorrection m.octets) - d) ∧
        (∀ d, (ptp v q.val).mean = some d → v.tb.set = false → (ptp t q.val).st = 9 ∧ t.tb.set = true ∧ t.tb.phase = 0)))) ∧
  (∀ (dt : Nat) (q : Port) (s v : State) (m : PtpMsg) (seq : Nat) (c : Time72) (k : Int), running s = true →
    takeGeneral (advance dt s) q.val 8 = some (v, m) → (ptp v q.val).syncWait = some (seq, c, k) → fromMaster v q.val m.octets = true →
    44 ≤ m.octets.length → ptpSeq m.octets = seq → (ptp v q.val).mean = none → ∃ t, exec (.ptpFollowUpRx dt q) s = .next t ∧
      (ptp t q.val).sync = some (ptpStamp m.octets + ptpCorrection m.octets + k, c) ∧ (ptp t q.val).syncWait = none ∧
      counter t (0x1621 + 16 * q.val) = min (2 ^ 64 - 1) (counter s (0x1621 + 16 * q.val) + 1)) ∧
  (∀ (dt : Nat) (q : Port) (flips : List (BitVec 80)) (s v : State) (m : PtpMsg), running s = true →
    takeEvent (advance dt s) q.val 1 flips = (v, some m) → 44 ≤ m.octets.length → ptpOn v q.val = true →
    ((ptp v q.val).st ≠ 6 → exec (.ptpDelayReqRx dt q flips) s = .next (ptpBump v q.val 2)) ∧
    ((ptp v q.val).st = 6 → ∃ t, exec (.ptpDelayReqRx dt q flips) s = .next t ∧
      counter t (0x1627 + 16 * q.val) = min (2 ^ 64 - 1) (counter v (0x1627 + 16 * q.val) + 1))) ∧
  (∀ (dt : Nat) (q : Port) (s v : State) (m : PtpMsg) (seq : Nat) (sent c : Time72) (k : Int), running s = true →
    takeGeneral (advance dt s) q.val 9 = some (v, m) → (ptp v q.val).delay = some (seq, some sent) → (ptp v q.val).sync = some (k, c) →
    fromMaster v q.val m.octets = true → 54 ≤ m.octets.length → ptpSeq m.octets = seq → beField m.octets 44 10 = portIdentity v q.val →
    ∃ t, exec (.ptpDelayRespRx dt q) s = .next t ∧ (ptp t q.val).delay = none ∧ (ptp t q.val).mean = some
      (((ingressNs v q.val c - k) + (ptpStamp m.octets - ptpCorrection m.octets - (ptpNs sent + par v (0x640A + q.val) : Nat))) / 2)) ∧
  (∀ (dt : Nat) (q : Port) (s v : State) (m : PtpMsg), running s = true → takeGeneral (advance dt s) q.val 11 = some (v, m) →
    ((ptpOn v q.val = false ∨ m.octets.length < 64 ∨ 255 ≤ beField m.octets 61 2 ∨ beField m.octets 20 8 = devEui v) →
      exec (.ptpAnnounceRx dt q) s = .next (ptpBump v q.val 4)) ∧
    (ptpOn v q.val = true → 64 ≤ m.octets.length → beField m.octets 61 2 < 255 → beField m.octets 20 8 ≠ devEui v →
      ∃ t, exec (.ptpAnnounceRx dt q) s = .next t ∧
        ∃ f ∈ (ptp t q.val).foreign, f.announce = m.octets ∧ f.last = s.now + dt)) ∧
  (∀ (dt : Nat) (q : Port) (s : State), running s = true → ptpOn s q.val = true →
    ((ptp s q.val).st = 6 → (ptp s q.val).sentSync + logCycles (parI s 0x6412) ≤ s.now + dt →
      ∃ t, exec (.ptpSyncTx dt q) s = .next t ∧ (ptp t q.val).sentSync = s.now + dt ∧
        (ptp t q.val).seqSync = (ptp s q.val).seqSync + 1) ∧
    (((ptp s q.val).st = 8 ∨ (ptp s q.val).st = 9) → (ptp s q.val).sentDelay + logCycles (parI s 0x6414) ≤ s.now + dt →
      ∃ t, exec (.ptpDelayReqTx dt q) s = .next t ∧ (ptp t q.val).sentDelay = s.now + dt ∧
        (ptp t q.val).delay = some ((ptp s q.val).seqDelay.toNat, none) ∧ (ptp t q.val).seqDelay = (ptp s q.val).seqDelay + 1) ∧
    ((ptp s q.val).st = 6 → (ptp s q.val).sentAnnounce + announceCycles s ≤ s.now + dt →
      ∃ t, exec (.ptpAnnounceTx dt q) s = .next t ∧ (ptp t q.val).sentAnnounce = s.now + dt ∧
        (ptp t q.val).seqAnnounce = (ptp s q.val).seqAnnounce + 1) ∧
    (((ptp s q.val).st = 4 ∨ (ptp s q.val).st = 7 ∨ (ptp s q.val).st = 8 ∨ (ptp s q.val).st = 9) →
      (ptp s q.val).announceAt + 3 * announceCycles s ≤ s.now + dt → ∃ t, exec (.announceReceiptTimeout dt q) s = .next t ∧
        (ptp t q.val).st = (if s.tb.set then 6 else 4) ∧ (ptp t q.val).foreign = []) ∧
    ((ptp s q.val).st = 5 → (ptp s q.val).qualAt ≤ s.now + dt → s.tb.set = true →
      ∃ t, exec (.ptpQualificationTimeout dt q) s = .next t ∧ (ptp t q.val).st = 6)) ∧
  (∀ (dt : Nat) (q : Port) (flips : List (BitVec 80)) (s t : State) (e : Instr),
    e ∈ [Instr.ptpSyncRx dt q flips, .ptpFollowUpRx dt q, .ptpDelayReqRx dt q flips, .ptpDelayRespRx dt q, .ptpAnnounceRx dt q,
      .ptpSyncTx dt q, .ptpDelayReqTx dt q, .ptpAnnounceTx dt q, .announceReceiptTimeout dt q, .ptpQualificationTimeout dt q] →
    exec e s = .next t → t.mem = s.mem ∧ t.chains = s.chains ∧ t.params = s.params ∧ t.otp = s.otp ∧ t.ctxs = s.ctxs)

/-- O51 (R118, R151, R525, R526, R527, R528, R530, R533, R534, R535). UPDATE_BEGIN is refused by source, by an open
session and in probation, and with 180 octets by the first header check that fails; where its header passes every
check it completes ST_OK with the holder and the version, and the context holds a session that expects position
0, the staging record gone and the sets as they were. UPDATE_DATA of a length in range, UPDATE_END and
UPDATE_ABORT from a context that does not hold the session complete ST_NOT_OWNER; from the holder the first two
leave a record that is not done and renew the session, and the third completes ST_OK with the session ended.
UPDATE_CONFIRM from any context is refused outside probation, and otherwise completes ST_OK, writes a NORMAL
record and starts the further steps. COMMAND_WORK_END of an UPDATE_DATA at the expected position that ends within
the part table moves that position on and removes its record. UPDATE_SESSION_IDLE ends a session that has been
idle for upd.session.idle. EV_PROBATION_EXPIRED at the end of probation sets the restart 100 ms ahead.
CONFIRM_FOLLOW_UP clears no fuse; where the running set is the active one it programs the version fuses of its
header, and otherwise it touches no fuse and no flash. SETTINGS_WRITE stores every parameter that differs from
its default. -/
def Obligations.UpdateSession : Prop :=
  (∀ (dt : Nat) (hc : Hc) (s u : State) (p : Packet), Took dt hc 0x700 4 2 s p u → reservedSet (p.word 1) (bits 7 0) = false →
    let h := (unpackWords (p.payload.drop 1)).take 180
    ((par u 0x7800).testBit hc.val = false → exec (.updateBegin dt hc) s = .next (completeAs u hc 0x700 p.hdr stUpdateSource [])) ∧
    ((par u 0x7800).testBit hc.val = true →
      (u.update.holder.isSome = true →
        exec (.updateBegin dt hc) s = .next (completeAs u hc 0x700 p.hdr stUpdateBusy (sessionWords u))) ∧
      (u.update.holder = none →
        ((bootOf u.flashA).1.state = 3 → exec (.updateBegin dt hc) s = .next (completeAs u hc 0x700 p.hdr stUpdateProbation [])) ∧
        ((bootOf u.flashA).1.state ≠ 3 → fld (p.word 1) 7 0 = 180 → p.payload.length = 21 → headerForm h = true →
          (∀ st, headerRefusal u h = some st → exec (.updateBegin dt hc) s = .next (completeAs u hc 0x700 p.hdr st [])) ∧
          (headerRefusal u h = none → ∃ v, exec (.updateBegin dt hc) s =
              .next (completeAs v hc 0x700 p.hdr stOk [at' 0 hc.val, BitVec.ofNat 72 (hdrVersion h)]) ∧
            v = { u with update := v.update, flashA := v.flashA } ∧ v.update.holder = some hc ∧ v.update.header = h ∧
            v.update.next = 0 ∧ v.update.table = [] ∧ v.update.since = u.now ∧ v.flashA.staged = none ∧
            v.flashA.set0 = u.flashA.set0 ∧ v.flashA.set1 = u.flashA.set1))))) ∧
  (∀ (dt : Nat) (hc : Hc) (s u : State) (p : Packet), Took dt hc 0x701 2 1 s p u → reservedSet (p.word 1) (bits 43 0) = false →
    1 ≤ fld (p.word 1) 43 32 → fld (p.word 1) 43 32 ≤ 2295 → 1 + (fld (p.word 1) 43 32 + 8) / 9 ≤ p.payload.length →
    (u.update.holder ≠ some hc → exec (.updateData dt hc) s = .next (completeAs u hc 0x701 p.hdr stNotOwner [])) ∧
    (u.update.holder = some hc → ∃ t r, exec (.updateData dt hc) s = .next t ∧ r ∈ (ctx t hc).journal ∧ r.id = p.id ∧
      r.work = .updateData ∧ r.payload = p.payload ∧ r.done = false ∧ t.update = { u.update with since := u.now })) ∧
  (∀ (dt : Nat) (hc : Hc) (s u : State) (p : Packet), Took dt hc 0x702 1 1 s p u → reservedSet (p.word 1) (bits 0 0) = false →
    (u.update.holder ≠ some hc → exec (.updateEnd dt hc) s = .next (completeAs u hc 0x702 p.hdr stNotOwner [])) ∧
    (u.update.holder = some hc → ∃ t r, exec (.updateEnd dt hc) s = .next t ∧ r ∈ (ctx t hc).journal ∧ r.id = p.id ∧
      r.work = .updateEnd ∧ r.done = false ∧ t.update = { u.update with since := u.now })) ∧
  (∀ (dt : Nat) (hc : Hc) (s u : State) (p : Packet), Took dt hc 0x704 0 0 s p u →
    (u.update.holder ≠ some hc → exec (.updateAbort dt hc) s = .next (completeAs u hc 0x704 p.hdr stNotOwner [])) ∧
    (u.update.holder = some hc → ∃ v, exec (.updateAbort dt hc) s = .next (completeAs v hc 0x704 p.hdr stOk []) ∧
      v = { u with update := v.update, flashA := v.flashA } ∧ v.update.holder = none ∧ v.flashA.staged = none)) ∧
  (∀ (dt : Nat) (hc : Hc) (s u : State) (p : Packet), Took dt hc 0x703 0 0 s p u →
    ((bootOf u.flashA).1.state ≠ 3 →
      exec (.updateConfirm dt hc) s = .next (completeAs u hc 0x703 p.hdr stUpdateNotProbation [])) ∧
    ((bootOf u.flashA).1.state = 3 → exec (.updateConfirm dt hc) s = .next (completeAs
      { u with flashA := writeBoot u.flashA { (bootOf u.flashA).1 with state := 1 },
               update := { u.update with confirming := true, expired := none } } hc 0x703 p.hdr stOk []))) ∧
  (∀ (dt : Nat) (hc : Hc) (r : JRec) (s : State), serving s = true → (∀ x ∈ (ctx s hc).journal, x.done = false) →
    (ctx s hc).journal.find? (fun x => x.work != .elsewhere) = some r → r.work = .updateData → s.update.holder = some hc →
    fld (r.payload.getD 0 0) 31 0 = s.update.next → s.update.next + fld (r.payload.getD 0 0) 43 32 < 288 →
    ∃ t, exec (.commandWorkEnd dt hc true) s = .next t ∧ t.update.next = s.update.next + fld (r.payload.getD 0 0) 43 32 ∧
      t.update.holder = some hc ∧ ∀ x ∈ (ctx t hc).journal, x.id ≠ r.id) ∧
  (∀ (dt : Nat) (hc : Hc) (s : State), serving s = true → s.update.holder = some hc →
    s.update.since + secC (par s 0x7000) ≤ s.now + dt → ∃ t, exec (.updateSessionIdle dt) s = .next t ∧ t.update.holder = none ∧
      t.flashA.staged = none ∧ t.mem = s.mem) ∧
  (∀ (dt : Nat) (s : State), running s = true → (bootOf s.flashA).1.state = 3 → s.update.expired = none →
    secC (bootOf s.flashA).1.prob ≤ s.update.probation + (s.now + dt - s.update.readyAt) →
    ∃ t, exec (.evProbationExpired dt) s = .next t ∧ t.update.expired = some (s.now + dt + msC 100) ∧ t.flashA = s.flashA) ∧
  (∀ (dt : Nat) (s : State), running s = true → s.update.confirming = true →
    (runsActive s = false → ∃ t, exec (.confirmFollowUp dt) s = .next t ∧ t.update.confirming = false ∧ t.otp = s.otp ∧
      t.flashA = s.flashA ∧ t.flashB = s.flashB) ∧
    (runsActive s = true → ∃ t, exec (.confirmFollowUp dt) s = .next t ∧ t.update.confirming = false ∧
      (∀ i, s.otp.getLsbD i = true → t.otp.getLsbD i = true) ∧
      (∀ i, i < 128 → i < hdrSvn s.update.running → t.otp.getLsbD (1974 + i) = true))) ∧
  (∀ (dt : Nat) (s : State), running s = true → s.update.dirty.isSome = true →
    ∃ t k r, exec (.settingsWrite dt) s = .next t ∧ t.update.dirty = none ∧ tblGet t.flashA.settings k = some r ∧
      r.format = hdrFormat s.update.running ∧ r.entries = settingsEntries s ∧ t.params = s.params)

/-- O52 (R384, R389, R414, R415, R416, R417, R424, R426, R427, R444). NODE_ADD and NODE_DELETE for a domain that the
context does not own complete ST_NOT_OWNER, and ST_TABLE_BUSY while a rehash runs. Otherwise, and in NODE_READ,
the key's slots in both tables are read first. NODE_ADD of a static entry with an unknown named parent completes
ST_PARENT_UNKNOWN; a new one of parent kind 0 or 1, with an empty slot in a bucket, stands there and completes
ST_OK with its slot, its pipeline and CREATED. NODE_DELETE of an unknown key completes ST_NODE_UNKNOWN, of an
entry with children ST_NODE_HAS_CHILDREN, and of one that stands in a slot of one table alone ST_OK, its key word
zeroed. NODE_READ of a key that neither table holds completes ST_NODE_UNKNOWN, otherwise ST_OK with the words of
both tables, zeros for one without it. TABLE_REHASH is refused while one runs; otherwise the seeds take effect at
once, the generation turns over, and a record stands that is not done. FLOW_CONFIG of one record, of flow 0
completes ST_FLOW_RANGE, of a flow the context does not own ST_NOT_OWNER, otherwise ST_OK: the record stands, its
counts as they were and no other flow changed. FLOW_STATS of flow 0 completes ST_FLOW_RANGE, of another ST_OK
with twelve words, its record first; with CLEAR its counts are zero after it, and without nothing else changes. -/
def Obligations.NodeAndFlowCommands : Prop :=
  (∀ (dt : Nat) (hc : Hc) (s u : State) (p : Packet), Took dt hc 0x302 5 1 s p u → reservedSet (p.word 2) (bits 65 0) = false →
    reservedSet (p.word 3) (bits 35 0) = false → reservedSet (p.word 4) (bits 7 0) = false → p.word 5 = 0 →
    let key := p.word 1
    let pipe := fld (p.word 3) 1 1
    (owns u hc 1 (fld key 71 64) = false → exec (.nodeAdd dt hc) s = .next (completeAs u hc 0x302 p.hdr stNotOwner [])) ∧
    (owns u hc 1 (fld key 71 64) = true →
      (rehashing u = true → exec (.nodeAdd dt hc) s = .next (completeAs u hc 0x302 p.hdr stTableBusy [])) ∧
      (rehashing u = false → (p.word 3).getLsbD 0 = false →
        let v := meetSlots (meetSlots u 0 key) 1 key
        (fld (p.word 2) 65 64 = 2 → findNode v pipe (keyWord (keyDomain key) ((p.word 2).setWidth 64)) = none →
          exec (.nodeAdd dt hc) s = .next (completeAs v hc 0x302 p.hdr stParentUnknown [])) ∧
        (∀ k, fld (p.word 2) 65 64 ≤ 1 → findIn v pipe key = none → emptyFor v pipe key = some k →
          ∃ t, exec (.nodeAdd dt hc) s = .next (completeAs t hc 0x302 p.hdr stOk [at' 0 k ||| at' 17 pipe ||| at' 18 1]) ∧
            peek t (0x200000 + 0x80000 * pipe + 4 * k) = key)))) ∧
  (∀ (dt : Nat) (hc : Hc) (s u : State) (p : Packet), Took dt hc 0x303 1 0 s p u →
    let key := p.word 1
    (owns u hc 1 (fld key 71 64) = false → exec (.nodeDelete dt hc) s = .next (completeAs u hc 0x303 p.hdr stNotOwner [])) ∧
    (owns u hc 1 (fld key 71 64) = true →
      (rehashing u = true → exec (.nodeDelete dt hc) s = .next (completeAs u hc 0x303 p.hdr stTableBusy [])) ∧
      (rehashing u = false →
        let v := meetSlots (meetSlots u 0 key) 1 key
        (findIn v 0 key = none → findIn v 1 key = none →
          exec (.nodeDelete dt hc) s = .next (completeAs v hc 0x303 p.hdr stNodeUnknown [])) ∧
        (∀ q c, q ≤ 1 → findIn v q key = some c → (placeNode v c).anchored = true →
          exec (.nodeDelete dt hc) s = .next (completeAs v hc 0x303 p.hdr stNodeHasChildren [])) ∧
        (∀ q k, q ≤ 1 → findIn v q key = some (.slot q k) → findIn v (1 - q) key = none →
          (placeNode v (.slot q k)).anchored = false →
          ∃ t, exec (.nodeDelete dt hc) s = .next (completeAs t hc 0x303 p.hdr stOk []) ∧
            peek t (0x200000 + 0x80000 * q + 4 * k) = 0)))) ∧
  (∀ (dt : Nat) (hc : Hc) (s u : State) (p : Packet), Took dt hc 0x304 1 8 s p u →
    let v := meetSlots (meetSlots u 0 (p.word 1)) 1 (p.word 1)
    let words := fun q => ((findIn v q (p.word 1)).map (fun c => (placeNode v c).words)).getD [0, 0, 0, 0]
    exec (.nodeRead dt hc) s = .next (if findIn v 0 (p.word 1) = none ∧ findIn v 1 (p.word 1) = none then
      completeAs v hc 0x304 p.hdr stNodeUnknown [] else completeAs v hc 0x304 p.hdr stOk (words 0 ++ words 1))) ∧
  (∀ (dt : Nat) (hc : Hc) (s u : State) (p : Packet), Took dt hc 0x305 2 2 s p u → reservedSet (p.word 1) (bits 0 0) = false →
    reservedSet (p.word 2) (bits 63 0) = false →
    let pipe := fld (p.word 1) 0 0
    (rehashing u = true → exec (.tableRehash dt hc) s = .next (completeAs u hc 0x305 p.hdr stTableBusy [])) ∧
    (rehashing u = false → ∃ t j, exec (.tableRehash dt hc) s = .next t ∧ (fwd t pipe).rehash.isSome = true ∧
      (fwd t pipe).seedGen = !(fwd u pipe).seedGen ∧ par t (0x3401 + 2 * pipe) = fld (p.word 2) 31 0 ∧
      par t (0x3402 + 2 * pipe) = fld (p.word 2) 63 32 ∧ j ∈ (ctx t hc).journal ∧ j.id = p.id ∧ j.done = false ∧ t.mem = u.mem)) ∧
  (∀ (dt : Nat) (hc : Hc) (s u : State) (p : Packet) (a b : Word), Took dt hc 0x400 2 0 s p u → p.payload = [a, b] →
    reservedSet a (bits 60 0) = false →
    (fld a 11 0 = 0 → exec (.flowConfig dt hc) s = .next (completeAs u hc 0x400 p.hdr stFlowRange [])) ∧
    (fld a 11 0 ≠ 0 → owns u hc 2 (fld a 11 0) = false →
      exec (.flowConfig dt hc) s = .next (completeAs u hc 0x400 p.hdr stNotOwner [])) ∧
    (fld a 11 0 ≠ 0 → owns u hc 2 (fld a 11 0) = true →
      ∃ v, exec (.flowConfig dt hc) s = .next (completeAs v hc 0x400 p.hdr stOk []) ∧
        (flow v (fld a 11 0)).w1 = a ∧ (flow v (fld a 11 0)).w2 = b ∧ (∀ f, f ≠ fld a 11 0 → flow v f = flow u f) ∧
        (flow v (fld a 11 0)).sent = (flow u (fld a 11 0)).sent)) ∧
  (∀ (dt : Nat) (hc : Hc) (s u : State) (p : Packet), Took dt hc 0x401 1 12 s p u → reservedSet (p.word 1) (bits 12 0) = false →
    let f := fld (p.word 1) 11 0
    (f = 0 → exec (.flowStats dt hc) s = .next (completeAs u hc 0x401 p.hdr stFlowRange [])) ∧
    (f ≠ 0 → ∃ v ws, exec (.flowStats dt hc) s = .next (completeAs v hc 0x401 p.hdr stOk ws) ∧ ws.length = 12 ∧
      ws.take 2 = [(flow u f).w1, (flow u f).w2] ∧ ws.getD 7 0 = BitVec.ofNat 72 (flow u f).sent ∧
      ((p.word 1).getLsbD 12 = false → v = u) ∧
      ((p.word 1).getLsbD 12 = true → (flow v f).sent = 0 ∧ (flow v f).failed = 0 ∧ (flow v f).green = 0 ∧ (flow v f).airUs = 0 ∧
        (flow v f).w1 = (flow u f).w1)))

/-- O53 (R456, R457, R459, R470, R473, R474, R476, R479, R480, R481, R482). KEY_LOAD for a domain the context does
not own completes ST_NOT_OWNER; behind a KEY_UPDATE or KEY_LOAD in hand it leaves a record that is not done;
otherwise, for one whose keys the key store supplies ST_KEY_SOURCE, and with a poisoned word of the blobs stored
ST_POISONED; for a generation below the current one ST_KEY_MSG_STALE; for a domain without a key, the blob that
unwraps and whose check value agrees stands in sub-slot 0, completed ST_OK with its slot, generation and KCV.
KEY_INVALIDATE of a key-store domain's current key revokes it and, where its epoch word is readable, raises its
epoch, completing ST_OK with both epochs. KEY_UPDATE of a domain's key by another context completes ST_NOT_OWNER;
otherwise it and ATTEST leave a record that is not done; the end of a malformed message's work, when it is its
turn, counts the refusal and removes its record. While firmware runs: SLOT_LOAD loads an EMPTY KEK slot from its
record's current slot, the storage key readable, counts it, and leaves a slot that is not EMPTY. GRACE_END of a
current key whose grace is over empties the previous sub-slot and, its epoch word readable, raises its epoch.
ENTROPY_FAILURE stops the source and counts; ENTROPY_RESTART a second later starts it where its test passes. The
unit's memory words are the model's (log 215). -/
def Obligations.KeyCommandsAndEntropy : Prop :=
  (∀ (dt : Nat) (hc : Hc) (s u : State) (p : Packet), Took dt hc 0x500 2 1 s p u → reservedSet (p.word 1) (bits 7 0) = false →
    1 + (fld (p.word 1) 7 0 + 8) / 9 ≤ p.payload.length →
    let b := (unpackWords (p.payload.drop 1)).take (fld (p.word 1) 7 0)
    let d := beField b 2 1
    (owns u hc 1 d = false → exec (.keyLoad dt hc) s = .next (completeAs u hc 0x500 p.hdr stNotOwner [])) ∧
    (owns u hc 1 d = true → (keyInWork u).isSome = true → ∃ t r, exec (.keyLoad dt hc) s = .next t ∧
      r ∈ (ctx t hc).journal ∧ r.id = p.id ∧ r.work = .keyLoad ∧ r.payload = p.payload ∧ r.done = false ∧ t.anvil = u.anvil) ∧
    (owns u hc 1 d = true → keyInWork u = none →
      (blobSourced u d = false → exec (.keyLoad dt hc) s = .next (completeAs u hc 0x500 p.hdr stKeySource [])) ∧
      (blobSourced u d = true → blobWellFormed b = true →
        let first := readKey u (blobBase d 0) 10
        let second := readKey first.1 (blobBase d 1) 10
        let v := second.1
        ((first.2 = false ∨ second.2 = false) → exec (.keyLoad dt hc) s = .next (completeAs v hc 0x500 p.hdr stPoisoned [])) ∧
        (first.2 = true → second.2 = true →
          (∀ c g, currentSub v d = some c → subGen v d c = some g → beField b 4 4 < g →
            exec (.keyLoad dt hc) s = .next (completeAs v hc 0x500 p.hdr stKeyMsgStale [])) ∧
          (∀ k w, currentSub v d = none → openBlob (ensureKek v (beField b 10 1 % 16)) b d (nowSeconds u) = (w, .ok k) →
            kcvAes k.key = k.kcv → ∃ t, exec (.keyLoad dt hc) s = .next (completeAs t hc 0x500 p.hdr stOk
              [at' 0 (subSlot d 0) ||| at' 10 (beField b 4 4) ||| at' 42 (beField b 12 2)]) ∧ keySlot t (subSlot d 0) = k))))) ∧
  (∀ (dt : Nat) (hc : Hc) (s u : State) (p : Packet), Took dt hc 0x501 1 1 s p u → reservedSet (p.word 1) (bits 10 0) = false →
    (p.word 1).getLsbD 0 = false →
    let d := fld (p.word 1) 8 1
    (owns u hc 1 d = false → exec (.keyInvalidate dt hc) s = .next (completeAs u hc 0x501 p.hdr stNotOwner [])) ∧
    (owns u hc 1 d = true → fld (p.word 1) 10 9 = 0 → blobSourced u d = false → ∀ c, currentSub u d = some c →
      ∃ v, exec (.keyInvalidate dt hc) s = .next (completeAs v hc 0x501 p.hdr stOk
          [at' 0 (epoch v (subSlot d 0)) ||| at' 32 (epoch v (subSlot d 1))]) ∧ (keySlot v (subSlot d c)).revoked = true ∧
        ((readWord u (epochWord (subSlot d c)) 12).2.isSome = true →
          epoch v (subSlot d c) = (epoch u (subSlot d c) + 1) % 2 ^ 32))) ∧
  (∀ (dt : Nat) (hc : Hc) (s u : State) (p : Packet), Took dt hc 0x502 4 1 s p u → reservedSet (p.word 1) (bits 9 0) = false →
    1 + (fld (p.word 1) 9 0 + 8) / 9 ≤ p.payload.length →
    let m := updateMessage p.payload
    ((beField m 1 1 = 2 ∨ beField m 1 1 = 5) → owns u hc 1 (beField m 2 1) = false →
      exec (.keyUpdate dt hc) s = .next (completeAs u hc 0x502 p.hdr stNotOwner [])) ∧
    (¬ ((beField m 1 1 = 2 ∨ beField m 1 1 = 5) ∧ owns u hc 1 (beField m 2 1) = false) → ∃ t r, exec (.keyUpdate dt hc) s = .next t ∧
      r ∈ (ctx t hc).journal ∧ r.id = p.id ∧ r.work = .keyUpdate ∧ r.payload = p.payload ∧ r.done = false ∧ t.anvil = u.anvil)) ∧
  (∀ (dt : Nat) (hc : Hc) (s u : State) (p : Packet), Took dt hc 0x503 4 24 s p u → attestReserved p.payload = false →
    ∃ t r, exec (.attest dt hc) s = .next t ∧ r ∈ (ctx t hc).journal ∧ r.id = p.id ∧ r.work = .attest ∧ r.done = false ∧
      t.anvil = u.anvil) ∧
  (∀ (dt : Nat) (hc : Hc) (ok : Bool) (r : JRec) (s : State), serving s = true → (∀ x ∈ (ctx s hc).journal, x.done = false) →
    (ctx s hc).journal.find? (fun x => x.work != .elsewhere) = some r → r.work = .keyUpdate →
    keyTurn s r = true →
    messageWellFormed (updateMessage r.payload) = false → ∃ t, exec (.commandWorkEnd dt hc ok) s = .next t ∧
      counter t 0x1427 = min (2 ^ 64 - 1) (counter s 0x1427 + 1) ∧ t.anvil = s.anvil ∧ ∀ x ∈ (ctx t hc).journal, x.id ≠ r.id) ∧
  (∀ (dt : Nat) (n : Fin 528) (s : State), running s = true →
    ((keySlot s n.val).st ≠ .empty → exec (.slotLoad dt n) s = .next (advance dt s)) ∧
    (∀ i, n.val < 16 → (keySlot s n.val).st = .empty → recCurrent s (1 + n.val) = some i →
      (useSlot (advance dt s) 529).2 = true →
      ∃ t, exec (.slotLoad dt n) s = .next t ∧ (keySlot t n.val).st = .loaded ∧
        counter t 0x1423 = min (2 ^ 64 - 1) (counter s 0x1423 + 1))) ∧
  (∀ (dt : Nat) (d : BitVec 8) (c : Nat) (s : State), running s = true → currentSub s d.toNat = some c →
    (subGen s d.toNat (1 - c)).isSome = true → s.tb.set = true → inGrace (advance dt s) d.toNat c = false →
    (keySlot s (subSlot d.toNat (1 - c))).st ≠ .empty → ∃ t, exec (.graceEnd dt d) s = .next t ∧
      keySlot t (subSlot d.toNat (1 - c)) = {} ∧ ((readWord s (epochWord (subSlot d.toNat (1 - c))) 12).2.isSome = true →
        epoch t (subSlot d.toNat (1 - c)) = (epoch s (subSlot d.toNat (1 - c)) + 1) % 2 ^ 32)) ∧
  (∀ (dt : Nat) (s : State), running s = true → s.anvil.entropy = true → ∃ t, exec (.entropyFailure dt) s = .next t ∧
    t.anvil = { s.anvil with entropy := false, failedAt := s.now + dt } ∧
    counter t 0x1428 = min (2 ^ 64 - 1) (counter s 0x1428 + 1)) ∧
  (∀ (dt : Nat) (passed : Bool) (s : State), running s = true → s.anvil.entropy = false → s.anvil.failedAt + secC 1 ≤ s.now + dt →
    ∃ t, exec (.entropyRestart dt passed) s = .next t ∧ t.anvil.entropy = passed)

/-- O54 (R129, R342, R344, R365, R366, R368, R412, R418, R434). SLOTFRAME_SET of one record while another context
holds the group's lock completes ST_LOCKED with the holder; otherwise, its values in range, ST_OK, each of them
stored. CELL_WRITE of one cell completes ST_OK with the count: its two words stand in the cell table and no other
word of memory changes, and while the ASN is set the cell in effect is still the old one. TX_SUBMIT of a kind 0
to 3 for a domain that the context does not own completes ST_NOT_OWNER, longer than a PSDU can be ST_TX_LENGTH,
of kind 0 or 1 for a node in neither table ST_NODE_UNKNOWN; an order that passes these, with a cell of its kind
and room in the pool, stands as a QUEUED item with a record that is not done. TX_CANCEL completes ST_NOT_FOUND
without an item of the tag that is QUEUED or HELD; otherwise ST_OK, the first such item gone, its command's
record done with ST_CANCELLED and every other item kept. BUF_POST of a buffer below 64 octets completes
ST_BUF_SPACE; one that R412 allows and that overlaps no other is kept with a record that is not done.
FRAME_INJECT of a flow that the context does not own completes ST_NOT_OWNER, of a length outside 40 to 1,500
ST_BUF_SPACE; a packet in host memory joins the pipeline's queue last, its buffer kept with a record that is not
done. -/
def Obligations.TransmitAndBufferCommands : Prop :=
  (∀ (dt : Nat) (hc : Hc) (s u : State) (p : Packet) (a b : Word), Took dt hc 0x200 2 1 s p u → p.payload = [a, b] →
    reservedSet a (bits 50 0) = false → reservedSet b (bits 21 0) = false →
    (∀ h, lockedBy u hc 8 = some h →
      exec (.slotframeSet dt hc) s = .next (completeAs u hc 0x200 p.hdr stLocked [holderWord (some (.host h))])) ∧
    (lockedBy u hc 8 = none → (∀ e ∈ slotframeValues (a, b), paramInRange u e.1 e.2 = true) →
      ∃ v, exec (.slotframeSet dt hc) s = .next (completeAs v hc 0x200 p.hdr stOk []) ∧
        ∀ e ∈ slotframeValues (a, b), parStored v e.1 = e.2)) ∧
  (∀ (dt : Nat) (hc : Hc) (s u : State) (p : Packet) (w a b : Word), Took dt hc 0x201 1 1 s p u → p.payload = [w, a, b] →
    fld w 22 16 = 1 → reservedSet w (bits 22 0) = false → reservedSet a (bits 37 0) = false →
    ∃ v, exec (.cellWrite dt hc) s = .next (completeAs v hc 0x201 p.hdr stOk [at' 0 1]) ∧
      peek v (0x20000 + 2 * fld w 15 0) = a ∧ peek v (0x20001 + 2 * fld w 15 0) = b ∧
      (∀ i, i < 65536 → i ≠ fld w 15 0 → cellAt v i = cellAt u i) ∧
      (u.mac.asnSet = true → cellAt v (fld w 15 0) = cellAt u (fld w 15 0)) ∧
      MemSame u v (fun i => i / 2 = 0x10000 + fld w 15 0)) ∧
  (∀ (dt : Nat) (hc : Hc) (s u : State) (p : Packet), Took dt hc 0x202 3 3 s p u → reservedSet (p.word 1) (bits 60 0) = false →
    2 + (txLength (p.word 1) + 8) / 9 ≤ p.payload.length → 1 ≤ txLength (p.word 1) →
    fld (p.word 1) 33 27 ≤ txLength (p.word 1) →
    let w := p.word 1
    let data := (unpackWords (p.payload.drop 2)).take (txLength w)
    let node := keyWord (w.setWidth 8) ((p.word 2).setWidth 64)
    let psdu := data.length + overhead u ((submitBand u w node).getD 0) (fld w 12 8) (w.getLsbD 23) (par u 0xC000)
    (owns u hc 1 (fld w 7 0) = false → exec (.txSubmit dt hc) s = .next (completeAs u hc 0x202 p.hdr stNotOwner [])) ∧
    (owns u hc 1 (fld w 7 0) = true → txKind w ≤ 3 →
      (2047 < psdu → exec (.txSubmit dt hc) s = .next (completeAs u hc 0x202 p.hdr stTxLength [])) ∧
      (psdu ≤ 2047 → txKind w ≤ 1 → timingPlace u node = none →
        exec (.txSubmit dt hc) s = .next (completeAs u hc 0x202 p.hdr stNodeUnknown [])) ∧
      (psdu ≤ 2047 → (txKind w ≤ 1 → (timingPlace u node).isSome = true) → submitCell u w node = true →
        blocksFor data.length ≤ poolFree u → ∃ t i r, exec (.txSubmit dt hc) s = .next t ∧ i ∈ t.mac.items ∧
          i.src = .host hc p.id (BitVec.ofNat 16 (fld p.hdr 27 12)) ∧ i.st = .queued ∧ i.length = data.length ∧ i.psdu = psdu ∧
          r ∈ (ctx t hc).journal ∧ r.id = p.id ∧ r.opcode = 0x202 ∧ r.done = false))) ∧
  (∀ (dt : Nat) (hc : Hc) (s u : State) (p : Packet), Took dt hc 0x203 1 0 s p u → reservedSet (p.word 1) (bits 15 0) = false →
    let tag := BitVec.ofNat 16 (fld (p.word 1) 15 0)
    let mine (i : Item) : Bool := (i.st == .queued || i.st == .held) &&
      (match i.src with | .host h _ t => h == hc && t == tag | _ => false)
    (u.mac.items.find? mine = none → exec (.txCancel dt hc) s = .next (completeAs u hc 0x203 p.hdr stNotFound [])) ∧
    (∀ i, u.mac.items.find? mine = some i → ∃ v, exec (.txCancel dt hc) s = .next (completeAs v hc 0x203 p.hdr stOk []) ∧
      findItem v i.id = none ∧ (∀ x ∈ u.mac.items, x.id ≠ i.id → x ∈ v.mac.items) ∧
      (∀ h job g, i.src = .host h job g → ∀ r ∈ (ctx v h).journal, r.id = job → r.done = true ∧ r.status = stCancelled))) ∧
  (∀ (dt : Nat) (hc : Hc) (s u : State) (p : Packet), Took dt hc 0x301 2 3 s p u → reservedSet (p.word 1) (bits 64 0) = false →
    reservedSet (p.word 2) (bits 15 0) = false →
    let b : PostedBuf := ⟨p.id, (p.word 1).getLsbD 64, (p.word 1).setWidth 64, fld (p.word 2) 15 0⟩
    (b.length < 64 → exec (.bufPost dt hc) s = .next (completeAs u hc 0x301 p.hdr stBufSpace [])) ∧
    (64 ≤ b.length → bufferOk u hc b.shm b.addr.toNat b.length = true → (∀ x ∈ (ctx u hc).bufs, bufsOverlap b x = false) →
      ∃ t r, exec (.bufPost dt hc) s = .next t ∧ (ctx t hc).bufs = (ctx u hc).bufs ++ [b] ∧ r ∈ (ctx t hc).journal ∧ r.id = p.id ∧
        r.opcode = 0x301 ∧ r.done = false ∧ t.mem = u.mem)) ∧
  (∀ (dt : Nat) (hc : Hc) (s u : State) (p : Packet), Took dt hc 0x300 3 2 s p u → reservedSet (p.word 1) (bits 64 0) = false →
    reservedSet (p.word 2) (bits 11 0) = false → reservedSet (p.word 3) (bits 11 0) = false →
    let f := fld (p.word 3) 11 0
    let q := fld (p.word 2) 11 11
    let len := fld (p.word 2) 10 0
    (f ≠ 0 → owns u hc 2 f = false → exec (.frameInject dt hc) s = .next (completeAs u hc 0x300 p.hdr stNotOwner [])) ∧
    ((f = 0 ∨ owns u hc 2 f = true) →
      ((len < 40 ∨ 1500 < len) → exec (.frameInject dt hc) s = .next (completeAs u hc 0x300 p.hdr stBufSpace [])) ∧
      (40 ≤ len → len ≤ 1500 → (p.word 1).getLsbD 64 = false → (pcieOf (bindOf u hc)).isSome = true →
        ∃ t r, exec (.frameInject dt hc) s = .next t ∧ (fwd t q).down.map (fun d => (d.src, d.hostMem)) =
            (fwd u q).down.map (fun d => (d.src, d.hostMem)) ++ [(.inject hc p.id f (p.word 4), true)] ∧
          (ctx t hc).injects = (ctx u hc).injects ++ [⟨p.id, false, (p.word 1).setWidth 64, len⟩] ∧
          r ∈ (ctx t hc).journal ∧ r.id = p.id ∧ r.opcode = 0x300 ∧ r.done = false ∧ t.mem = u.mem)))

/-- O55 (R13, R338, R341, R345, R350, R351, R353, R366, R370, R427, R432). While firmware runs, with a base slot
entered: SLOT_BOUNDARY of a later base slot, no stored value waiting, enters it, and a slotframe that starts
there runs exactly where it is enabled with a slot length in range; in a slot already entered nothing happens.
SCHED_DECISION for a slot not yet decided, a slotframe running, marks it decided and counts; a decided one is not
decided again. RX_FRAME_PROCESS of a running engine with no frame to take changes nothing but the time; it takes
the frame that it has claimed, or else the oldest waiting one of a band whose reorder window has room. Where the
row is not the frame's end it claims the frame and its gate opens. Where it is, a poisoned word of the buffer, a
frame of fewer than two octets and one that no descriptor governs each end with the frame gone and its buffer
returned, the last two counted; a plain frame of another destination than drop that asks for no acknowledgement
and is none stands finished in its place. ITEM_EXPIRY ends a QUEUED or HELD item at the end of its lifetime, the
record of a host's item done with the status of R366. On a standby, BEACON_WATCH_SLOT_END of a watched slot
clears the misses for a beacon heard; on a preferred unit that heard none it counts one, and the third makes a
takeover due where no change is. METER_TICK refills every flow for the ticks passed. -/
def Obligations.ScheduleAndReception : Prop :=
  (∀ (dt a q : Nat) (s : State), running s = true → asnNow (advance dt s) = some a → s.mac.slot = some q → s.mac.asnSet = true →
    (a ≤ q → exec (.slotBoundary dt) s = .next (advance dt s)) ∧
    (q < a → s.storedAt = [] → keysRise 0 s.mac.running = true → ∃ t, exec (.slotBoundary dt) s = .next t ∧ t.mac.slot = some a ∧ t.mac.asnSet = true ∧
      ∀ f < 16, startsIn s q a f = true → sfRuns t f = (parB s (0x2000 + f) && slotInRange s f))) ∧
  (∀ (dt a : Nat) (b : Band) (s : State), running s = true →
    asnOf s ((time (advance dt s)).toNat + timeUs (par s 0x4804)) = some a →
    (∀ d, tblGet s.mac.decided b.val = some d → a ≤ d → exec (.schedDecision dt b) s = .next (advance dt s)) ∧
    ((∀ d, tblGet s.mac.decided b.val = some d → d < a) → (lowestRunning (ahead (advance dt s) a)).isSome = true →
      ∃ t, exec (.schedDecision dt b) s = .next t ∧ tblGet t.mac.decided b.val = some a ∧
        counter t (0x1200 + 16 * b.val) = min (2 ^ 64 - 1) (counter s (0x1200 + 16 * b.val) + 1))) ∧
  (∀ (dt : Nat) (k : Fin 4) (ends : Bool) (s : State), running s = true → engineRuns s (14 + k.val) = true →
    (nextFrame s k = none → exec (.rxFrameProcess dt k ends) s = .next (advance dt s)) ∧
    (∀ f, nextFrame s k = some f →
      let g := setGate (advance dt s) (14 + k.val) 0
      let gone := fun t : State => t.rx.frames = s.rx.frames.erase f ∧
        (pool t f.band.val).used = tblErase (pool s f.band.val).used f.buffer
      (∃ t, exec (.rxFrameProcess dt k false) s = .next t ∧ (engine t (14 + k.val)).gate = 0 ∧ t.mem = s.mem ∧
        t.rx.frames = s.rx.frames.map (fun x => if x = f then { f with place := .claimed k } else x)) ∧
      (∀ v m, readWords 3 (4 + (f.octets + 8) / 9) (bufferAddr f.band.val f.buffer) g = (v, .inr m) →
        ∃ t, exec (.rxFrameProcess dt k true) s = .next t ∧ gone t) ∧
      (∀ v ws, readWords 3 (4 + (f.octets + 8) / 9) (bufferAddr f.band.val f.buffer) g = (v, .inl ws) →
        let os := ((unpackWords (ws.drop 4)).take f.octets).take (f.octets - f.fcs)
        (os.length < 2 → ∃ t, exec (.rxFrameProcess dt k true) s = .next t ∧ gone t ∧
          counter t (0xE02 + 32 * f.band.val) = min (2 ^ 64 - 1) (counter v (0xE02 + 32 * f.band.val) + 1)) ∧
        (2 ≤ os.length → descriptorOf s (leField os 0 2) = none → ∃ t, exec (.rxFrameProcess dt k true) s = .next t ∧ gone t ∧
          counter t (0xE00 + 32 * f.band.val) = min (2 ^ 64 - 1) (counter v (0xE00 + 32 * f.band.val) + 1)) ∧
        (∀ d p, 2 ≤ os.length → descriptorOf s (leField os 0 2) = some d → fld d.1 34 33 = 1 → parseFrame os = some p →
          fld d.1 39 38 ≠ 2 → d.1.getLsbD 40 = false → p.hdr.fcf.type ≠ 2 →
          ∃ t x, exec (.rxFrameProcess dt k true) s = .next t ∧ x ∈ t.rx.frames ∧ x.place = .finished ∧ x.band = f.band ∧
            x.buffer = f.buffer ∧ x.octets = f.octets ∧ t.rx.frames.length = s.rx.frames.length)))) ∧
  (∀ (dt item e : Nat) (i : Item) (s : State), running s = true → findItem s item = some i → i.expiry = some e → e ≤ s.now + dt →
    (i.st = .queued ∨ i.st = .held) → ∃ t, exec (.itemExpiry dt item) s = .next t ∧ findItem t item = none ∧
      ∀ hc job g, i.src = .host hc job g → ∀ r ∈ (ctx t hc).journal, r.id = job → r.done = true ∧
        r.status = (if (asnNow (advance dt s)).isNone then stAsnUnset else if i.st = .held then stNodeDesync else stExpired)) ∧
  (∀ (dt n a : Nat) (s : State), running s = true → standby s = true → asnNow (advance dt s) = some n → sfMult s (par s 0x9400) ≤ n →
    endedWatch (advance dt s) n = some a →
    (s.pair.heardAsn = some a → exec (.beaconWatchSlotEnd dt) s =
      .next { advance dt s with pair := { s.pair with judged := some a, misses := 0 } }) ∧
    (s.pair.heardAsn ≠ some a → preferred s = true → ∃ t, exec (.beaconWatchSlotEnd dt) s = .next t ∧ t.pair.judged = some a ∧
      t.pair.misses = min 3 (s.pair.misses + 1) ∧ t.pair.lastMiss = s.now + dt ∧
      (2 ≤ s.pair.misses → s.pair.due = none → ∃ x, t.pair.due = some (1, 1, x)) ∧
      (s.pair.misses < 2 → t.pair.due = s.pair.due))) ∧
  (∀ (dt : Nat) (s : State), running s = true → s.shape.tick ≠ 0 → s.shape.tickAt + usC s.shape.tick ≤ s.now + dt →
    let k := (s.now + dt - s.shape.tickAt) / usC s.shape.tick
    ∃ t, exec (.meterTick dt) s = .next t ∧ t.shape.tickAt = s.shape.tickAt + k * usC s.shape.tick ∧
      (∀ f, tblGet t.shape.flows f = (tblGet s.shape.flows f).map (refillFlow s.shape.tick k)) ∧ t.mac = s.mac)

/-- O56 (R103, R378, R389, R394, R395, R396, R406, R410, R413, R417, R418, R424). While firmware runs: UPLINK_FRAME
takes the pipeline's next finished frame, counts it, and the frame gives up its place. REASM_TIMEOUT discards a
context that has stood for the reassembly time, and no other. LEARN_CREATE of a key that its table does not hold,
no rehash running, creates the entry in an empty slot of its buckets and counts. LEARN_BUCKET_REFILL fills a
bucket to now, to its burst at most, and changes nothing else outside the pipelines. AGEING_SWEEP when due dates
its pass. EV_TABLE_REHASH_DONE ends a rehash, its command's record done with ST_OK or ST_REHASH_LOSS.
DOWNLINK_PACKET takes the oldest packet out of the queue; the record of an injected packet of a disabled flow is
done with ST_FLOW_DISABLED, and of one in host memory whose DMA fails with ST_DMA_ERROR; one whose reads are
issued leaves the queue as they deliver. DMA_COMPLETION_TIMEOUT takes the context's first packet whose reads were
issued 50 ms ago out of its queue, pipeline 0 first, its record done with ST_DMA_ERROR. EXCEPTION_DELIVERY with a
context set takes the oldest exception for its first open buffer: into SHM, its words read without poison, the
record is done with ST_OK and the words of R413, the octets stand in the buffer, and it counts; into host memory
without an endpoint or without DMA the record is done with ST_DMA_ERROR. -/
def Obligations.ForwardingPipelines : Prop :=
  (∀ (dt : Nat) (pp : Pipe) (s : State), running s = true →
    (nextUplink s pp.val = none → exec (.uplinkFrame dt pp) s = .next (advance dt s)) ∧
    (∀ f, nextUplink s pp.val = some f → ∃ t, exec (.uplinkFrame dt pp) s = .next t ∧ t.rx.frames = s.rx.frames.erase f ∧
      counter t (0x1000 + 0x40 * pp.val) = min (2 ^ 64 - 1) (counter s (0x1000 + 0x40 * pp.val) + 1))) ∧
  (∀ (dt : Nat) (pp : Pipe) (k : Fin 512) (r : Reasm) (s : State), running s = true → tblGet (fwd s pp.val).reasm k.val = some r →
    (s.now + dt < r.since + secC (par s 0x3E15) → exec (.reasmTimeout dt pp k) s = .next (advance dt s)) ∧
    (r.since + secC (par s 0x3E15) ≤ s.now + dt → ∃ t, exec (.reasmTimeout dt pp k) s = .next t ∧
      fwd t pp.val = { fwd s pp.val with reasm := tblErase (fwd s pp.val).reasm k.val } ∧
      counter t (0x101B + 0x40 * pp.val) = min (2 ^ 64 - 1) (counter s (0x101B + 0x40 * pp.val) + 1))) ∧
  (∀ (dt k : Nat) (pp : Pipe) (l : Learn) (ls : List Learn) (s : State), running s = true → (fwd s pp.val).learnQ = l :: ls →
    (fwd s pp.val).rehash = none →
    let v := meetSlots (setFwd (advance dt s) pp.val { fwd s pp.val with learnQ := ls }) pp.val l.node.key
    findIn v pp.val l.node.key = none → emptyFor v pp.val l.node.key = some k →
    ∃ t, exec (.learnCreate dt pp) s = .next t ∧ (fwd t pp.val).learnQ = ls ∧
      peek t (0x200000 + 0x80000 * pp.val + 4 * k) = l.node.key ∧
      counter t (0x1008 + 0x40 * pp.val) = min (2 ^ 64 - 1) (counter s (0x1008 + 0x40 * pp.val) + 1)) ∧
  (∀ (dt : Nat) (pp : Pipe) (b : Band) (s : State), running s = true → ∃ t x, exec (.learnBucketRefill dt pp b) s = .next t ∧
    tblGet (fwd t pp.val).buckets b.val = some x ∧ x.at_ = s.now + dt ∧
    x.level ≤ par s (0x3808 + 3 * pp.val + b.val) * 1000000 ∧ t = { advance dt s with fwds := t.fwds }) ∧
  (∀ (dt : Nat) (pp : Pipe) (s : State), running s = true →
    (s.now + dt < (fwd s pp.val).sweepAt + secC (par s 0x381C) → exec (.ageingSweep dt pp) s = .next (advance dt s)) ∧
    ((fwd s pp.val).sweepAt + secC (par s 0x381C) ≤ s.now + dt → ∃ t, exec (.ageingSweep dt pp) s = .next t ∧
      (fwd t pp.val).sweepAt = s.now + dt)) ∧
  (∀ (dt : Nat) (pp : Pipe) (j : Rehash) (s : State), running s = true → (fwd s pp.val).rehash = some j →
    ∃ t, exec (.evTableRehashDone dt pp) s = .next t ∧ (fwd t pp.val).rehash = none ∧
      ∀ r ∈ (ctx t j.hc).journal, r.id = j.job → r.done = true ∧ (r.status = stOk ∨ r.status = stRehashLoss)) ∧
  (∀ (dt : Nat) (pp : Pipe) (dma : Option Octets) (d : Down) (ds : List Down) (s : State), running s = true →
    (fwd s pp.val).down = d :: ds →
    (d.hostMem = false → ∃ t, exec (.downlinkPacket dt pp dma) s = .next t ∧ (fwd t pp.val).down = ds) ∧
    (∀ hc job f w, d.src = .inject hc job f w →
      (d.hostMem = false → ip6Ok d.packet = true → f ≠ 0 → (flow s f).enabled = false →
        ∃ t, exec (.downlinkPacket dt pp dma) s = .next t ∧
          ∀ r ∈ (ctx t hc).journal, r.id = job → r.done = true ∧ r.status = stFlowDisabled) ∧
      (d.hostMem = true →
        (∃ t, exec (.downlinkPacket dt pp none) s = .next t ∧ (fwd t pp.val).down.map (·.src) = ds.map (·.src) ∧
          ∀ r ∈ (ctx t hc).journal, r.id = job → r.done = true ∧ r.status = stDmaError) ∧
        (∀ b os, (dmaEndpoint s hc).isSome = true → injectBuf s d = some b → d.reads.isSome = true → os.length = b.length →
          ∃ t, exec (.downlinkPacket dt pp (some os)) s = .next t ∧ (fwd t pp.val).down.map (·.src) = ds.map (·.src))))) ∧
  (∀ (dt : Nat) (hc : Hc) (s : State), running s = true →
    let waits := fun x : Down => ∃ at_ e n job f w, x.reads = some (at_, e, n) ∧ x.src = .inject hc job f w ∧
      at_ + msC 50 ≤ s.now + dt
    ((∀ q ≤ 1, ∀ x ∈ (fwd s q).down, ¬ waits x) → exec (.dmaCompletionTimeout dt hc) s = .next (advance dt s)) ∧
    (∀ q d pre ds job f w, q ≤ 1 → (fwd s q).down = pre ++ d :: ds → waits d → (∀ x ∈ pre, ¬ waits x) →
      (q = 1 → ∀ x ∈ (fwd s 0).down, ¬ waits x) → d.src = .inject hc job f w →
      ∃ t, exec (.dmaCompletionTimeout dt hc) s = .next t ∧ (fwd t q).down.map (·.src) = (pre ++ ds).map (·.src) ∧
        ∀ r ∈ (ctx t hc).journal, r.id = job → r.done = true ∧ r.status = stDmaError)) ∧
  (∀ (dt : Nat) (pp : Pipe) (ok : Bool) (hc : Hc) (e : ExcSlot) (es : List ExcSlot) (b : PostedBuf) (s : State), running s = true →
    (fwd s pp.val).excQ = e :: es → par s (0x3F04 + pp.val) = hc.val → openBuffer s hc = some b →
    let n := min e.length b.length
    let u := setFwd (advance dt s) pp.val { fwd s pp.val with excQ := es }
    (∀ v ws, b.shm = true → windowBase hc ≤ b.addr.toNat → b.addr.toNat + (b.length + 8) / 9 ≤ windowBase hc + 65536 →
      readWords (5 + pp.val) ((n + 8) / 9) (excAddr pp.val e.place) u = (v, .inl ws) →
      let words := packWords 8192 ((unpackWords ws).take n)
      ∃ t, exec (.exceptionDelivery dt pp ok) s = .next t ∧ (fwd t pp.val).excQ = es ∧
        (∀ r ∈ (ctx t hc).journal, r.id = b.job → r.done = true ∧ r.status = stOk ∧ r.result = filledWords pp.val e b.length) ∧
        (∀ i, i < words.length → peek t (b.addr.toNat + i) = words.getD i 0) ∧
        counter t (0x1020 + 0x40 * pp.val) = min (2 ^ 64 - 1) (counter s (0x1020 + 0x40 * pp.val) + 1)) ∧
    (b.shm = false → ok = false ∨ dmaEndpoint s hc = none → ∃ t, exec (.exceptionDelivery dt pp ok) s = .next t ∧
      (fwd t pp.val).excQ = es ∧ ∀ r ∈ (ctx t hc).journal, r.id = b.job → r.done = true ∧ r.status = stDmaError))

/-- O57 (R171, R541, R542, R544, R545, R546, R547, R550, R552, R553, R565). While firmware runs: on a port that is
not the partner link's, BACKBONE_RX_FRAME counts its frame; one with a bad FCS, and one shorter than 64 octets,
counts again and does nothing else; on a port without redundancy, of an active unit, an IPv6 packet for the
device that is no exception joins its pipeline's queue with its time, last but for packets that the same instant
brought on a later port. EGRESS_FRAME of a port that is up takes the next frame out of the queue, which unstamped
leaves with its FCS and counts; where its read meets a poisoned or uncorrectable word it leaves with an inverted
FCS if its first octet had left, and not at all otherwise. EV_BACKBONE_LINK of a change takes the port up or
down, its queue as it was, counting a loss; of no change it does nothing. SUPERVISION_SEND when due sends under
the next sequence numbers. PRP_LAN_TIMEOUT, where only this LAN has been silent, and HSR_RING_TIMEOUT, when a
supervision frame has not come back, set the port's fault. But for the link change, none of these changes a
parameter, a chain, Anvil or a context, and no word of memory but those of the port's pipeline's exception queue
by a received frame. -/
def Obligations.BackbonePorts : Prop :=
  (∀ (dt : Nat) (q : Port) (f : Octets) (s : State), running s = true → isPartnerPort s q.val = false →
    (f ≠ f.take (f.length - 4) ++ leOctets 4 (crc32 (f.take (f.length - 4))).toNat →
      exec (.backboneRxFrame dt q f) s = .next (portBump (portBump (advance dt s) q.val 0) q.val 1)) ∧
    (f = f.take (f.length - 4) ++ leOctets 4 (crc32 (f.take (f.length - 4))).toNat → f.length < 64 →
      exec (.backboneRxFrame dt q f) s = .next (portBump (portBump (advance dt s) q.val 0) q.val 2)) ∧
    (f = f.take (f.length - 4) ++ leOctets 4 (crc32 (f.take (f.length - 4))).toNat → 64 ≤ f.length → f.length ≤ par s 0x9C07 →
      prpMode s = false → hsrMode s = false → standby s = false →
      let g := f.take (f.length - 4)
      let h := ethHdr g
      let pkt := ip6Trim (g.drop h.off)
      let w := pipeOf s (q.val + 3)
      h.etype = 0x86DD → h.dst = ownMac s → (ptpAt g).isSome = false → ip6Ok (g.drop h.off) = true → icmpType pkt = none →
      isLinkLocal (ip6Dst pkt) = false → (fwd s w).down.length < 512 →
      ∃ t d, exec (.backboneRxFrame dt q f) s = .next t ∧ (fwd t w).down = joinDown (fwd s w).down q.val d ∧ d.packet = pkt ∧
        d.at_ = s.now + dt ∧ ((∀ x ∈ (fwd s w).down, x.at_ < s.now + dt) → (fwd t w).down = (fwd s w).down ++ [d]) ∧
        d.time = time (advance dt s) ∧ counter t (0x1A00 + 0x20 * q.val) = min (2 ^ 64 - 1) (counter s (0x1A00 + 0x20 * q.val) + 1))) ∧
  (∀ (dt : Nat) (q : Port) (f : EthFrame) (s : State), running s = true → (port s q.val).up = true →
    nextEgress (port s q.val).egress = some f → f.stamp = .none → ∃ t, exec (.egressFrame dt q none) s = .next t ∧
      t.out = s.out ++ [.ether q (f.octets ++ leOctets 4 (crc32 f.octets).toNat)] ∧
      (port t q.val).egress = (port s q.val).egress.erase f ∧
      counter t (0x1A10 + 0x20 * q.val) = min (2 ^ 64 - 1) (counter s (0x1A10 + 0x20 * q.val) + 1)) ∧
  (∀ (dt : Nat) (q : Port) (f : EthFrame) (a : BitVec 23) (started : Bool) (s v : State), running s = true →
    (port s q.val).up = true → nextEgress (port s q.val).egress = some f → f.stamp = .none →
    readWord (setPort (advance dt s) q.val { port s q.val with egress := (port s q.val).egress.erase f }) a.toNat 7 = (v, none) →
    exec (.egressFrame dt q (some (a, started))) s =
      .next (if started then emit v (.ether q (f.octets ++ leOctets 4 (~~~ (crc32 f.octets)).toNat)) else v)) ∧
  (∀ (dt : Nat) (q : Port) (up : Bool) (s : State), running s = true →
    ((port s q.val).up = up → exec (.evBackboneLink dt q up) s = .next (advance dt s)) ∧
    ((port s q.val).up ≠ up → ∃ t, exec (.evBackboneLink dt q up) s = .next t ∧ (port t q.val).up = up ∧
      (port t q.val).egress = (port s q.val).egress ∧
      (up = false → counter t (0x1A15 + 0x20 * q.val) = min (2 ^ 64 - 1) (counter s (0x1A15 + 0x20 * q.val) + 1)))) ∧
  (∀ (dt : Nat) (s : State), running s = true →
    (prpMode s = true → s.bb.supPrpAt + msC (par s 0x9801) ≤ s.now + dt → ∃ t, exec (.supervisionSend dt false) s = .next t ∧
      t.bb.supPrpAt = s.now + dt ∧ t.bb.supSeqPrp = s.bb.supSeqPrp + 1 ∧ t.bb.seqPrp = s.bb.seqPrp + 1) ∧
    (hsrMode s = true → s.bb.supHsrAt + msC (par s 0x9801) ≤ s.now + dt → ∃ t, exec (.supervisionSend dt true) s = .next t ∧
      t.bb.supHsrAt = s.now + dt ∧ t.bb.supSeqHsr = s.bb.supSeqHsr + 1 ∧ t.bb.seqHsr = s.bb.seqHsr + 1)) ∧
  (∀ (dt : Nat) (q : Port) (s : State), running s = true → (port s q.val).fault = false →
    (q.val < 2 → prpMode s = true → max (port s q.val).rxAt s.pair.startAt + msC (par s 0x9802) ≤ s.now + dt →
      s.now + dt < (port s (otherOf q.val)).rxAt + msC (par s 0x9802) → ∃ t, exec (.prpLanTimeout dt q) s = .next t ∧
        port t q.val = { port s q.val with fault := true }) ∧
    (∀ e, 2 ≤ q.val → hsrMode s = true → (port s q.val).supAt = some e → e + msC (par s 0x9803) ≤ s.now + dt →
      ∃ t, exec (.hsrRingTimeout dt q) s = .next t ∧ port t q.val = { port s q.val with fault := true })) ∧
  (∀ (dt : Nat) (q : Port) (hsr : Bool) (f : Octets) (s t : State) (e : Instr),
    e ∈ [Instr.backboneRxFrame dt q f, .egressFrame dt q none, .supervisionSend dt hsr, .prpLanTimeout dt q, .hsrRingTimeout dt q] →
    exec e s = .next t → t.params = s.params ∧ t.chains = s.chains ∧ t.anvil = s.anvil ∧ t.ctxs = s.ctxs ∧
      MemSame s t (fun a => e = .backboneRxFrame dt q f ∧
        ∃ k i, k < 64 ∧ i < 256 ∧ a = excAddr (pipeOf s (q.val + 3)) k + i))

/-- O58 (R370, R371, R372, R373, R555, R556, R557, R558, R559, R561). PAIR_ROLE is refused with pair mode off, for an
unknown action, for a role already held, for an agreed change without the partner link, and for a unit that is
not fit to be active; otherwise an agreed change becomes a proposal with a record that is not done, and FORCE
sets the change for the next watched start and completes ST_OK. PAIR_STATUS completes ST_OK with six words, the
second the partner's EUI-64 and the last the time of its last beacon heard. While firmware runs: a role change
due makes a standby active, its items as they were, or an active unit standby with no item ELIGIBLE and what
waits a shadow; the handover ASN brings the role agreed. PAIR_REVERT_AGREE of a preferred standby that has been
fit for the time proposes a revert. HELLO_SEND when due dates its HELLO and queues it on a partner port that is
up. A HELLO takes the partner's role and preference, and brings the link up where the port is; a PROPOSE brings a
handover, and an ACCEPT of the proposal in progress too, the record of its PAIR_ROLE done with ST_OK; a MIRROR of
a transmit order makes a shadow item on a standby, and any MIRROR only counts on an active unit. EV_PARTNER_LINK
takes the link down where the port is down or no HELLO has come for 3 periods and up otherwise, and
PAIR_ROLE_TIMEOUT drops a proposal not accepted in time, its record done with ST_PAIR_LINK_DOWN. -/
def Obligations.PairUnits : Prop :=
  (∀ (dt : Nat) (hc : Hc) (s u : State) (p : Packet), Took dt hc 0x900 1 0 s p u → reservedSet (p.word 1) (bits 2 0) = false →
    let a := fld (p.word 1) 1 0
    let wanted : BitVec 2 := if a = 0 then 2 else 1
    (pairMode u = false → exec (.pairRole dt hc) s = .next (completeAs u hc 0x900 p.hdr stPairOff [])) ∧
    (pairMode u = true →
      (a = 3 → exec (.pairRole dt hc) s = .next (completeAs u hc 0x900 p.hdr stPairAction [])) ∧
      (a ≠ 3 → u.pairRole = wanted → exec (.pairRole dt hc) s = .next (completeAs u hc 0x900 p.hdr stPairRole [])) ∧
      (a ≤ 1 → u.pairRole ≠ wanted → u.pair.link = false →
        exec (.pairRole dt hc) s = .next (completeAs u hc 0x900 p.hdr stPairLinkDown [])) ∧
      ((a = 1 ∧ u.pair.link = true) ∨ a = 2 → u.pairRole ≠ 1 → pairFit u = false →
        exec (.pairRole dt hc) s = .next (completeAs u hc 0x900 p.hdr stPairUnfit [])) ∧
      (a = 0 ∨ (a = 1 ∧ pairFit u = true) → u.pairRole ≠ wanted → u.pair.link = true →
        ∃ t j r, exec (.pairRole dt hc) s = .next t ∧ t.pair.proposal = some j ∧ j.kind = (if a = 0 then 2 else 1) ∧
          j.job = some (hc, p.id) ∧ r ∈ (ctx t hc).journal ∧ r.id = p.id ∧ r.opcode = 0x900 ∧ r.done = false) ∧
      (a = 2 → u.pairRole ≠ 1 → pairFit u = true → exec (.pairRole dt hc) s = .next (completeAs
        { u with pair := { u.pair with due := some (1, 4, nextWatchStart u) } } hc 0x900 p.hdr stOk [])))) ∧
  (∀ (dt : Nat) (hc : Hc) (s u : State) (p : Packet), Took dt hc 0x901 0 6 s p u →
    ∃ ws, exec (.pairStatus dt hc) s = .next (completeAs u hc 0x901 p.hdr stOk ws) ∧ ws.length = 6 ∧
      ws.getD 1 0 = at' 0 (par u 0x9003) ∧ ws.getD 5 0 = u.pair.heardTime) ∧
  (∀ (dt cause a : Nat) (s : State), running s = true →
    (dueRole (advance dt s) = some (1, cause, a) → s.pairRole = 2 → ∃ t, exec (.evPairTakeover dt) s = .next t ∧ t.pairRole = 1 ∧
      t.pair.due = none ∧ t.pair.misses = 0 ∧ t.pair.changeAsn = a ∧ t.pair.changeCause = cause ∧ t.mac = s.mac) ∧
    (dueRole (advance dt s) = some (2, cause, a) → s.pairRole = 1 → ∃ t, exec (.pairYield dt) s = .next t ∧ t.pairRole = 2 ∧
      t.pair.due = none ∧ t.pair.changeAsn = a ∧ (∀ i ∈ t.mac.items, i.st ≠ .eligible) ∧
      (∀ i ∈ t.mac.items, i.st = .queued ∨ i.st = .held → i.shadow = true))) ∧
  (∀ (dt n : Nat) (h : Handover) (s : State), running s = true → s.pair.handover = some h → asnNow (advance dt s) = some n →
    h.asn ≤ n → ∃ t, exec (.evPairRevert dt) s = .next t ∧ t.pairRole = h.role ∧ t.pair.handover = none) ∧
  (∀ (dt a : Nat) (s : State), running s = true → standby s = true → preferred s = true → s.pair.link = true → pairFit s = true →
    s.pair.suspended = false → max (max s.pair.lastMiss s.pair.lastChange) s.pair.unfitAt + secC (par s 0x9402) ≤ s.now + dt →
    s.pair.handover = none → s.pair.proposal = none → leadStart (advance dt s) = some a →
    ∃ t, exec (.pairRevertAgree dt) s = .next t ∧ t.pair.proposal = some ⟨a, 0, false, s.now + dt, none⟩ ∧ t.pairRole = s.pairRole) ∧
  (∀ (dt : Nat) (s : State), running s = true → pairMode s = true → s.pair.helloTx + msC (par s 0x9405) ≤ s.now + dt →
    ∃ t, exec (.helloSend dt) s = .next t ∧ t.pair = { s.pair with helloTx := s.now + dt } ∧
      ∀ q, partnerPort s = some q → (port s q).up = true → (port s q).egress.length < 512 →
        (port t q).egress.length = (port s q).egress.length + 1) ∧
  (∀ (dt : Nat) (m : Octets) (ms : List Octets) (s : State), running s = true → s.bb.partnerIn = m :: ms →
    (oct m 1 = 1 → ∃ t, exec (.partnerHello dt) s = .next t ∧ t.bb.partnerIn = ms ∧ t.pair.helloRx = some (s.now + dt) ∧
      t.pair.partnerRole = (m.getD 10 0).setWidth 2 ∧ t.pair.partnerPreferred = (m.getD 10 0).getLsbD 2 ∧
      (partnerPortUp s = true → t.pair.link = true) ∧
      counter t 0x1A81 = min (2 ^ 64 - 1) (counter s 0x1A81 + 1)) ∧
    (oct m 1 = 2 → ∃ t h, exec (.partnerPropose dt) s = .next t ∧ t.bb.partnerIn = ms ∧ t.pair.handover = some h ∧
      h.asn = beField m 10 5 ∧ h.role = (if oct m 15 = 2 then 1 else 2) ∧ t.pairRole = s.pairRole) ∧
    (∀ j, oct m 1 = 3 → s.pair.proposal = some j → (m.drop 10).take 7 = proposalOctets j.asn j.kind j.suspend →
      ∃ t h, exec (.partnerAccept dt) s = .next t ∧ t.pair.proposal = none ∧ t.pair.handover = some h ∧ h.asn = j.asn ∧
        h.role = (if j.kind = 2 then 2 else 1) ∧
        ∀ hc job, j.job = some (hc, job) → ∀ r ∈ (ctx t hc).journal, r.id = job → r.done = true ∧ r.status = stOk) ∧
    (oct m 1 = 4 →
      (standby s = false → ∃ t, exec (.partnerMirror dt) s = .next t ∧ t.bb.partnerIn = ms ∧ t.mac = s.mac ∧ t.fwds = s.fwds ∧
        counter t 0x1A84 = min (2 ^ 64 - 1) (counter s 0x1A84 + 1)) ∧
      (standby s = true → oct m 12 ≠ 0 → s.pair.overheard = [] →
        let w : Word := BitVec.ofNat 72 (natOfLe ((m.drop 13).take 9))
        let w2 : Word := BitVec.ofNat 72 (natOfLe ((m.drop 22).take 9))
        let data := (m.drop 31).take (txLength w)
        let v := bump { advance dt s with bb := { s.bb with partnerIn := ms } } 0x1A84
        data.length = txLength w → (submit v w w2 data .mirror).2 = none → ∃ t i, exec (.partnerMirror dt) s = .next t ∧
          i ∈ t.mac.items ∧ i.src = .mirror ∧ i.shadow = true ∧ t.bb.partnerIn = ms))) ∧
  (∀ (dt : Nat) (s : State), running s = true → s.pair.link = true →
    (partnerPortUp s = false ∨ s.pair.helloRx = none ∨ ∃ r, s.pair.helloRx = some r ∧ r + msC (3 * par s 0x9405) ≤ s.now + dt) →
    ∃ t, exec (.evPartnerLink dt) s = .next t ∧ t.pair.link = false) ∧
  (∀ (dt r : Nat) (s : State), running s = true → partnerPortUp s = true → s.pair.helloRx = some r →
    s.now + dt < r + msC (3 * par s 0x9405) → ∃ t, exec (.evPartnerLink dt) s = .next t ∧ t.pair.link = true) ∧
  (∀ (dt : Nat) (j : Proposal) (s : State), running s = true → s.pair.proposal = some j →
    j.at_ + msC (3 * par s 0x9405) ≤ s.now + dt → ∃ t, exec (.pairRoleTimeout dt) s = .next t ∧ t.pair.proposal = none ∧
      t.pairRole = s.pairRole ∧
      ∀ hc job, j.job = some (hc, job) → ∀ r ∈ (ctx t hc).journal, r.id = job → r.done = true ∧ r.status = stPairLinkDown)

/-- O59 (R81, R82, R83, R85, R89, R91, R92, R95). START_STEP_END of a start goes from cleaner lock, while REF_IN is
acquired, to SYSPLL lock; from there, with the timebase at zero and UNSET, to the fuse load, where failed groups
ID, AUTH or CFG, a lifecycle that is not operational and a wrong root key check enter start failure with codes 3,
4 and 5; from there to the memory test, failed sites beyond the spares giving code 6; from the memory test to the
valid-bit clear, after which a cold start holds no valid word in the address map and a warm start those of SHM
and TBM alone (Anvil's private memory, where it derives its keys, is outside the map: log 215); from there to
verification or, in a cold start, to the staging copy, and from that to verification, memory as it was. In a cold
start verification goes on to the load of the first set that verifies, or to the recovery start by strap or where
no set verifies; in a warm one whose cached parts all match, to the load of the set that ran. From the load to
firmware start, and from there to READY with the watchdog armed. Outside a start it changes nothing but the time. -/
def Obligations.StartSequence : Prop :=
  ∀ (dt : Nat) (obs : StartObs) (s : State),
    (s.start.phase ≠ .starting → exec (.startStepEnd dt obs) s = .next (advance dt s)) ∧
    (s.start.phase = .starting →
      (s.start.stage = .cleanerLock → s.clk.ref = .acquiring → ∃ t, exec (.startStepEnd dt obs) s = .next t ∧
        t.start.stage = .pllLock ∧ t.start.stageAt = s.now + dt ∧ t.clk.ref = .locked) ∧
      (s.start.stage = .pllLock → ∃ t, exec (.startStepEnd dt obs) s = .next t ∧ t.start.stage = .fuse ∧ t.clk.sysPll = true ∧
        time t = 0 ∧ t.tb.set = false) ∧
      (s.start.stage = .fuse →
        let m := failedGroups s
        let bad := m.testBit 0 || m.testBit 1 || m.testBit 3
        (bad = true → ∃ t, exec (.startStepEnd dt obs) s = .next t ∧ Failed t ∧ t.start.failCode = 3 ∧ t.start.detail.toNat = m) ∧
        (bad = false → fld s.otp 2330 2323 ≠ 0x0F → ∃ t, exec (.startStepEnd dt obs) s = .next t ∧ Failed t ∧ t.start.failCode = 4) ∧
        (bad = false → fld s.otp 2330 2323 = 0x0F → (kcvAes (rootKey s)).toNat ≠ fld s.otp 415 400 →
          ∃ t, exec (.startStepEnd dt obs) s = .next t ∧ Failed t ∧ t.start.failCode = 5) ∧
        (bad = false → fld s.otp 2330 2323 = 0x0F → (kcvAes (rootKey s)).toNat = fld s.otp 415 400 →
          ∃ t, exec (.startStepEnd dt obs) s = .next t ∧ t.start.phase = .starting ∧ t.start.stage = .memTest)) ∧
      (s.start.stage = .memTest →
        (mapSites (failedSites s obs) = none → ∃ t, exec (.startStepEnd dt obs) s = .next t ∧ Failed t ∧ t.start.failCode = 6) ∧
        (∀ r, mapSites (failedSites s obs) = some r → ∃ t, exec (.startStepEnd dt obs) s = .next t ∧ t.start.stage = .validClear ∧
          t.start.phase = .starting)) ∧
      (s.start.stage = .validClear → ∃ t, exec (.startStepEnd dt obs) s = .next t ∧
        (t.start.stage = .verify ∨ t.start.stage = .staging) ∧
        (s.start.warm = false → ∀ a < 0x800000, decodePhys (memRaw t.mem a) = .invalid) ∧
        (s.start.warm = true → t.start.stage = .verify ∧ (∀ a < 0x300000, memRaw t.mem a = memRaw s.mem a) ∧
          ∀ a, 0x300000 ≤ a → a < 0x800000 → decodePhys (memRaw t.mem a) = .invalid)) ∧
      (s.start.stage = .staging → ∃ t, exec (.startStepEnd dt obs) s = .next t ∧ t.start.stage = .verify ∧ t.mem = s.mem) ∧
      (s.start.stage = .verify → s.start.warm = false →
        let v := { advance dt s with start := { s.start with flashAOk := obs.sfdpOkA, flashBOk := obs.sfdpOkB } }
        (fld s.start.straps 1 0 = 1 → ∃ t, exec (.startStepEnd dt obs) s = .next t ∧ t.start.phase = .recovery ∧ t.start.boot = 4) ∧
        (fld s.start.straps 1 0 ≠ 1 → (∀ c ∈ setChoices v, setVerifies v c.set = false) →
          ∃ t, exec (.startStepEnd dt obs) s = .next t ∧ t.start.phase = .recovery ∧ t.start.boot = 5) ∧
        (∀ c, fld s.start.straps 1 0 ≠ 1 → (setChoices v).find? (fun c => setVerifies v c.set) = some c →
          ∃ t, exec (.startStepEnd dt obs) s = .next t ∧ t.start.phase = .starting ∧ t.start.stage = .load ∧ t.update.running = c.set)) ∧
      (s.start.stage = .verify → s.start.warm = true → s.update.running ≠ [] →
        let v := { advance dt s with start := { s.start with flashAOk := obs.sfdpOkA, flashBOk := obs.sfdpOkB,
                                                              cacheReloaded := false } }
        (checkParts v).2 = [] → ∃ t, exec (.startStepEnd dt obs) s = .next t ∧ t.start.phase = .starting ∧
          t.start.stage = .load ∧ t.update.running = s.update.running ∧ t.start.cacheReloaded = false) ∧
      (s.start.stage = .load → ∃ t, exec (.startStepEnd dt obs) s = .next t ∧ t.start.phase = .starting ∧ t.start.stage = .firmware) ∧
      (s.start.stage = .firmware → ∃ t, exec (.startStepEnd dt obs) s = .next t ∧ t.start.phase = .ready ∧ t.wd.armed = true ∧
        t.wd.since = s.now + dt))

/-- O60 (R74, R88, R144). An invariant of every step: wherever the device stands in the start-failure state, the
watchdog is unarmed and every chain is at its reset state. Every step from a state that meets it leads to one
that meets it. In the start-failure state no command or event but POWER_ON_RESET and RST_N_RESET changes the
state's code or detail or leaves it, and IRQ_N0 stays low; each of those two takes the device into a reset. (That
its entry halts every engine is in Failed, which StartSequence states.) -/
def Obligations.StartFailureIsLeftOnlyByReset : Prop :=
  (∀ s t : State, FailureHalts s → step s = .next t → FailureHalts t) ∧
  (∀ (s t : State) (c : Instr) (cs : List Instr), s.start.phase = .failure → FailureHalts s → s.pending = c :: cs →
    leavesFailure c = false → step s = .next t →
    t.start.phase = .failure ∧ t.start.failCode = s.start.failCode ∧ t.start.detail = s.start.detail ∧ irqLow t 0 = true) ∧
  (∀ (s : State) (c : Instr) (cs : List Instr), s.start.phase = .failure → s.pending = c :: cs → leavesFailure c = true →
    ∃ t, step s = .next t ∧ t.start.phase = .held ∧ t.pending = cs)
end

