-- ==== Sys2Proof/Laws/State.lean ====
section
/-!
SUPPORT. What each named update of the state does to each field: one lemma per field and update, so that no proof
unfolds a record update.
-/

namespace Sys2Proof.Machine

/-! ### advance: time runs on -/

@[simp] theorem advance_now (s : State) (dt : Nat) : (advance dt s).now = s.now + dt := rfl
@[simp] theorem advance_freeCtr (s : State) (dt : Nat) : (advance dt s).freeCtr = s.freeCtr := rfl
@[simp] theorem advance_out (s : State) (dt : Nat) : (advance dt s).out = s.out := rfl
@[simp] theorem advance_start (s : State) (dt : Nat) : (advance dt s).start = s.start := rfl
@[simp] theorem advance_clk (s : State) (dt : Nat) : (advance dt s).clk = s.clk := rfl
@[simp] theorem advance_pps (s : State) (dt : Nat) : (advance dt s).pps = s.pps := rfl
@[simp] theorem advance_wd (s : State) (dt : Nat) : (advance dt s).wd = s.wd := rfl
@[simp] theorem advance_tap (s : State) (dt : Nat) : (advance dt s).tap = s.tap := rfl
@[simp] theorem advance_temp (s : State) (dt : Nat) : (advance dt s).temp = s.temp := rfl
@[simp] theorem advance_pins (s : State) (dt : Nat) : (advance dt s).pins = s.pins := rfl
@[simp] theorem advance_otp (s : State) (dt : Nat) : (advance dt s).otp = s.otp := rfl
@[simp] theorem advance_repairs (s : State) (dt : Nat) : (advance dt s).repairs = s.repairs := rfl
@[simp] theorem advance_mem (s : State) (dt : Nat) : (advance dt s).mem = s.mem := rfl
@[simp] theorem advance_engRegs (s : State) (dt : Nat) : (advance dt s).engRegs = s.engRegs := rfl
@[simp] theorem advance_halted (s : State) (dt : Nat) : (advance dt s).halted = s.halted := rfl
@[simp] theorem advance_engEpoch (s : State) (dt : Nat) : (advance dt s).engEpoch = s.engEpoch := rfl
@[simp] theorem advance_engines (s : State) (dt : Nat) : (advance dt s).engines = s.engines := rfl
@[simp] theorem advance_ctxs (s : State) (dt : Nat) : (advance dt s).ctxs = s.ctxs := rfl
@[simp] theorem advance_jobId (s : State) (dt : Nat) : (advance dt s).jobId = s.jobId := rfl
@[simp] theorem advance_owners (s : State) (dt : Nat) : (advance dt s).owners = s.owners := rfl
@[simp] theorem advance_locks (s : State) (dt : Nat) : (advance dt s).locks = s.locks := rfl
@[simp] theorem advance_routes (s : State) (dt : Nat) : (advance dt s).routes = s.routes := rfl
@[simp] theorem advance_pinRoutes (s : State) (dt : Nat) : (advance dt s).pinRoutes = s.pinRoutes := rfl
@[simp] theorem advance_latches (s : State) (dt : Nat) : (advance dt s).latches = s.latches := rfl
@[simp] theorem advance_evOut (s : State) (dt : Nat) : (advance dt s).evOut = s.evOut := rfl
@[simp] theorem advance_params (s : State) (dt : Nat) : (advance dt s).params = s.params := rfl
@[simp] theorem advance_inForce (s : State) (dt : Nat) : (advance dt s).inForce = s.inForce := rfl
@[simp] theorem advance_storedAt (s : State) (dt : Nat) : (advance dt s).storedAt = s.storedAt := rfl
@[simp] theorem advance_counters (s : State) (dt : Nat) : (advance dt s).counters = s.counters := rfl
@[simp] theorem advance_scrub (s : State) (dt : Nat) : (advance dt s).scrub = s.scrub := rfl
@[simp] theorem advance_errLog (s : State) (dt : Nat) : (advance dt s).errLog = s.errLog := rfl
@[simp] theorem advance_fifos (s : State) (dt : Nat) : (advance dt s).fifos = s.fifos := rfl
@[simp] theorem advance_arbs (s : State) (dt : Nat) : (advance dt s).arbs = s.arbs := rfl
@[simp] theorem advance_chains (s : State) (dt : Nat) : (advance dt s).chains = s.chains := rfl
@[simp] theorem advance_quench (s : State) (dt : Nat) : (advance dt s).quench = s.quench := rfl
@[simp] theorem advance_image (s : State) (dt : Nat) : (advance dt s).image = s.image := rfl
@[simp] theorem advance_calRuns (s : State) (dt : Nat) : (advance dt s).calRuns = s.calRuns := rfl
@[simp] theorem advance_tunes (s : State) (dt : Nat) : (advance dt s).tunes = s.tunes := rfl
@[simp] theorem advance_calTail (s : State) (dt : Nat) : (advance dt s).calTail = s.calTail := rfl
@[simp] theorem advance_rx (s : State) (dt : Nat) : (advance dt s).rx = s.rx := rfl
@[simp] theorem advance_mac (s : State) (dt : Nat) : (advance dt s).mac = s.mac := rfl
@[simp] theorem advance_injections (s : State) (dt : Nat) : (advance dt s).injections = s.injections := rfl
@[simp] theorem advance_shape (s : State) (dt : Nat) : (advance dt s).shape = s.shape := rfl
@[simp] theorem advance_fwds (s : State) (dt : Nat) : (advance dt s).fwds = s.fwds := rfl
@[simp] theorem advance_anvil (s : State) (dt : Nat) : (advance dt s).anvil = s.anvil := rfl
@[simp] theorem advance_teus (s : State) (dt : Nat) : (advance dt s).teus = s.teus := rfl
@[simp] theorem advance_timers (s : State) (dt : Nat) : (advance dt s).timers = s.timers := rfl
@[simp] theorem advance_ptp (s : State) (dt : Nat) : (advance dt s).ptp = s.ptp := rfl
@[simp] theorem advance_flashA (s : State) (dt : Nat) : (advance dt s).flashA = s.flashA := rfl
@[simp] theorem advance_flashB (s : State) (dt : Nat) : (advance dt s).flashB = s.flashB := rfl
@[simp] theorem advance_update (s : State) (dt : Nat) : (advance dt s).update = s.update := rfl
@[simp] theorem advance_bb (s : State) (dt : Nat) : (advance dt s).bb = s.bb := rfl
@[simp] theorem advance_pair (s : State) (dt : Nat) : (advance dt s).pair = s.pair := rfl
@[simp] theorem advance_pairRole (s : State) (dt : Nat) : (advance dt s).pairRole = s.pairRole := rfl
@[simp] theorem advance_pending (s : State) (dt : Nat) : (advance dt s).pending = s.pending := rfl

/-! ### emit: something leaves the device -/

@[simp] theorem emit_now (s : State) (o : Output) : (emit s o).now = s.now := rfl
@[simp] theorem emit_freeCtr (s : State) (o : Output) : (emit s o).freeCtr = s.freeCtr := rfl
@[simp] theorem emit_out (s : State) (o : Output) : (emit s o).out = s.out ++ [o] := rfl
@[simp] theorem emit_start (s : State) (o : Output) : (emit s o).start = s.start := rfl
@[simp] theorem emit_clk (s : State) (o : Output) : (emit s o).clk = s.clk := rfl
@[simp] theorem emit_pps (s : State) (o : Output) : (emit s o).pps = s.pps := rfl
@[simp] theorem emit_wd (s : State) (o : Output) : (emit s o).wd = s.wd := rfl
@[simp] theorem emit_tap (s : State) (o : Output) : (emit s o).tap = s.tap := rfl
@[simp] theorem emit_temp (s : State) (o : Output) : (emit s o).temp = s.temp := rfl
@[simp] theorem emit_pins (s : State) (o : Output) : (emit s o).pins = s.pins := rfl
@[simp] theorem emit_otp (s : State) (o : Output) : (emit s o).otp = s.otp := rfl
@[simp] theorem emit_repairs (s : State) (o : Output) : (emit s o).repairs = s.repairs := rfl
@[simp] theorem emit_mem (s : State) (o : Output) : (emit s o).mem = s.mem := rfl
@[simp] theorem emit_engRegs (s : State) (o : Output) : (emit s o).engRegs = s.engRegs := rfl
@[simp] theorem emit_halted (s : State) (o : Output) : (emit s o).halted = s.halted := rfl
@[simp] theorem emit_engEpoch (s : State) (o : Output) : (emit s o).engEpoch = s.engEpoch := rfl
@[simp] theorem emit_engines (s : State) (o : Output) : (emit s o).engines = s.engines := rfl
@[simp] theorem emit_ctxs (s : State) (o : Output) : (emit s o).ctxs = s.ctxs := rfl
@[simp] theorem emit_jobId (s : State) (o : Output) : (emit s o).jobId = s.jobId := rfl
@[simp] theorem emit_owners (s : State) (o : Output) : (emit s o).owners = s.owners := rfl
@[simp] theorem emit_locks (s : State) (o : Output) : (emit s o).locks = s.locks := rfl
@[simp] theorem emit_routes (s : State) (o : Output) : (emit s o).routes = s.routes := rfl
@[simp] theorem emit_pinRoutes (s : State) (o : Output) : (emit s o).pinRoutes = s.pinRoutes := rfl
@[simp] theorem emit_latches (s : State) (o : Output) : (emit s o).latches = s.latches := rfl
@[simp] theorem emit_evOut (s : State) (o : Output) : (emit s o).evOut = s.evOut := rfl
@[simp] theorem emit_params (s : State) (o : Output) : (emit s o).params = s.params := rfl
@[simp] theorem emit_inForce (s : State) (o : Output) : (emit s o).inForce = s.inForce := rfl
@[simp] theorem emit_storedAt (s : State) (o : Output) : (emit s o).storedAt = s.storedAt := rfl
@[simp] theorem emit_counters (s : State) (o : Output) : (emit s o).counters = s.counters := rfl
@[simp] theorem emit_scrub (s : State) (o : Output) : (emit s o).scrub = s.scrub := rfl
@[simp] theorem emit_errLog (s : State) (o : Output) : (emit s o).errLog = s.errLog := rfl
@[simp] theorem emit_fifos (s : State) (o : Output) : (emit s o).fifos = s.fifos := rfl
@[simp] theorem emit_arbs (s : State) (o : Output) : (emit s o).arbs = s.arbs := rfl
@[simp] theorem emit_chains (s : State) (o : Output) : (emit s o).chains = s.chains := rfl
@[simp] theorem emit_quench (s : State) (o : Output) : (emit s o).quench = s.quench := rfl
@[simp] theorem emit_image (s : State) (o : Output) : (emit s o).image = s.image := rfl
@[simp] theorem emit_calRuns (s : State) (o : Output) : (emit s o).calRuns = s.calRuns := rfl
@[simp] theorem emit_tunes (s : State) (o : Output) : (emit s o).tunes = s.tunes := rfl
@[simp] theorem emit_calTail (s : State) (o : Output) : (emit s o).calTail = s.calTail := rfl
@[simp] theorem emit_rx (s : State) (o : Output) : (emit s o).rx = s.rx := rfl
@[simp] theorem emit_mac (s : State) (o : Output) : (emit s o).mac = s.mac := rfl
@[simp] theorem emit_injections (s : State) (o : Output) : (emit s o).injections = s.injections := rfl
@[simp] theorem emit_shape (s : State) (o : Output) : (emit s o).shape = s.shape := rfl
@[simp] theorem emit_fwds (s : State) (o : Output) : (emit s o).fwds = s.fwds := rfl
@[simp] theorem emit_anvil (s : State) (o : Output) : (emit s o).anvil = s.anvil := rfl
@[simp] theorem emit_tb (s : State) (o : Output) : (emit s o).tb = s.tb := rfl
@[simp] theorem emit_teus (s : State) (o : Output) : (emit s o).teus = s.teus := rfl
@[simp] theorem emit_timers (s : State) (o : Output) : (emit s o).timers = s.timers := rfl
@[simp] theorem emit_ptp (s : State) (o : Output) : (emit s o).ptp = s.ptp := rfl
@[simp] theorem emit_flashA (s : State) (o : Output) : (emit s o).flashA = s.flashA := rfl
@[simp] theorem emit_flashB (s : State) (o : Output) : (emit s o).flashB = s.flashB := rfl
@[simp] theorem emit_update (s : State) (o : Output) : (emit s o).update = s.update := rfl
@[simp] theorem emit_bb (s : State) (o : Output) : (emit s o).bb = s.bb := rfl
@[simp] theorem emit_pair (s : State) (o : Output) : (emit s o).pair = s.pair := rfl
@[simp] theorem emit_pairRole (s : State) (o : Output) : (emit s o).pairRole = s.pairRole := rfl
@[simp] theorem emit_pending (s : State) (o : Output) : (emit s o).pending = s.pending := rfl

/-! ### drawFree: a free value is drawn -/

@[simp] theorem drawFree_now (s : State) : ((drawFree s).1).now = s.now := rfl
@[simp] theorem drawFree_freeCtr (s : State) : ((drawFree s).1).freeCtr = s.freeCtr + 1 := rfl
@[simp] theorem drawFree_out (s : State) : ((drawFree s).1).out = s.out := rfl
@[simp] theorem drawFree_start (s : State) : ((drawFree s).1).start = s.start := rfl
@[simp] theorem drawFree_clk (s : State) : ((drawFree s).1).clk = s.clk := rfl
@[simp] theorem drawFree_pps (s : State) : ((drawFree s).1).pps = s.pps := rfl
@[simp] theorem drawFree_wd (s : State) : ((drawFree s).1).wd = s.wd := rfl
@[simp] theorem drawFree_tap (s : State) : ((drawFree s).1).tap = s.tap := rfl
@[simp] theorem drawFree_temp (s : State) : ((drawFree s).1).temp = s.temp := rfl
@[simp] theorem drawFree_pins (s : State) : ((drawFree s).1).pins = s.pins := rfl
@[simp] theorem drawFree_otp (s : State) : ((drawFree s).1).otp = s.otp := rfl
@[simp] theorem drawFree_repairs (s : State) : ((drawFree s).1).repairs = s.repairs := rfl
@[simp] theorem drawFree_mem (s : State) : ((drawFree s).1).mem = s.mem := rfl
@[simp] theorem drawFree_engRegs (s : State) : ((drawFree s).1).engRegs = s.engRegs := rfl
@[simp] theorem drawFree_halted (s : State) : ((drawFree s).1).halted = s.halted := rfl
@[simp] theorem drawFree_engEpoch (s : State) : ((drawFree s).1).engEpoch = s.engEpoch := rfl
@[simp] theorem drawFree_engines (s : State) : ((drawFree s).1).engines = s.engines := rfl
@[simp] theorem drawFree_ctxs (s : State) : ((drawFree s).1).ctxs = s.ctxs := rfl
@[simp] theorem drawFree_jobId (s : State) : ((drawFree s).1).jobId = s.jobId := rfl
@[simp] theorem drawFree_owners (s : State) : ((drawFree s).1).owners = s.owners := rfl
@[simp] theorem drawFree_locks (s : State) : ((drawFree s).1).locks = s.locks := rfl
@[simp] theorem drawFree_routes (s : State) : ((drawFree s).1).routes = s.routes := rfl
@[simp] theorem drawFree_pinRoutes (s : State) : ((drawFree s).1).pinRoutes = s.pinRoutes := rfl
@[simp] theorem drawFree_latches (s : State) : ((drawFree s).1).latches = s.latches := rfl
@[simp] theorem drawFree_evOut (s : State) : ((drawFree s).1).evOut = s.evOut := rfl
@[simp] theorem drawFree_params (s : State) : ((drawFree s).1).params = s.params := rfl
@[simp] theorem drawFree_inForce (s : State) : ((drawFree s).1).inForce = s.inForce := rfl
@[simp] theorem drawFree_storedAt (s : State) : ((drawFree s).1).storedAt = s.storedAt := rfl
@[simp] theorem drawFree_counters (s : State) : ((drawFree s).1).counters = s.counters := rfl
@[simp] theorem drawFree_scrub (s : State) : ((drawFree s).1).scrub = s.scrub := rfl
@[simp] theorem drawFree_errLog (s : State) : ((drawFree s).1).errLog = s.errLog := rfl
@[simp] theorem drawFree_fifos (s : State) : ((drawFree s).1).fifos = s.fifos := rfl
@[simp] theorem drawFree_arbs (s : State) : ((drawFree s).1).arbs = s.arbs := rfl
@[simp] theorem drawFree_chains (s : State) : ((drawFree s).1).chains = s.chains := rfl
@[simp] theorem drawFree_quench (s : State) : ((drawFree s).1).quench = s.quench := rfl
@[simp] theorem drawFree_image (s : State) : ((drawFree s).1).image = s.image := rfl
@[simp] theorem drawFree_calRuns (s : State) : ((drawFree s).1).calRuns = s.calRuns := rfl
@[simp] theorem drawFree_tunes (s : State) : ((drawFree s).1).tunes = s.tunes := rfl
@[simp] theorem drawFree_calTail (s : State) : ((drawFree s).1).calTail = s.calTail := rfl
@[simp] theorem drawFree_rx (s : State) : ((drawFree s).1).rx = s.rx := rfl
@[simp] theorem drawFree_mac (s : State) : ((drawFree s).1).mac = s.mac := rfl
@[simp] theorem drawFree_injections (s : State) : ((drawFree s).1).injections = s.injections := rfl
@[simp] theorem drawFree_shape (s : State) : ((drawFree s).1).shape = s.shape := rfl
@[simp] theorem drawFree_fwds (s : State) : ((drawFree s).1).fwds = s.fwds := rfl
@[simp] theorem drawFree_anvil (s : State) : ((drawFree s).1).anvil = s.anvil := rfl
@[simp] theorem drawFree_tb (s : State) : ((drawFree s).1).tb = s.tb := rfl
@[simp] theorem drawFree_teus (s : State) : ((drawFree s).1).teus = s.teus := rfl
@[simp] theorem drawFree_timers (s : State) : ((drawFree s).1).timers = s.timers := rfl
@[simp] theorem drawFree_ptp (s : State) : ((drawFree s).1).ptp = s.ptp := rfl
@[simp] theorem drawFree_flashA (s : State) : ((drawFree s).1).flashA = s.flashA := rfl
@[simp] theorem drawFree_flashB (s : State) : ((drawFree s).1).flashB = s.flashB := rfl
@[simp] theorem drawFree_update (s : State) : ((drawFree s).1).update = s.update := rfl
@[simp] theorem drawFree_bb (s : State) : ((drawFree s).1).bb = s.bb := rfl
@[simp] theorem drawFree_pair (s : State) : ((drawFree s).1).pair = s.pair := rfl
@[simp] theorem drawFree_pairRole (s : State) : ((drawFree s).1).pairRole = s.pairRole := rfl
@[simp] theorem drawFree_pending (s : State) : ((drawFree s).1).pending = s.pending := rfl

/-! ### bumpBy: a counter adds -/

@[simp] theorem bumpBy_now (s : State) (id n : Nat) : (bumpBy s id n).now = s.now := rfl
@[simp] theorem bumpBy_freeCtr (s : State) (id n : Nat) : (bumpBy s id n).freeCtr = s.freeCtr := rfl
@[simp] theorem bumpBy_out (s : State) (id n : Nat) : (bumpBy s id n).out = s.out := rfl
@[simp] theorem bumpBy_start (s : State) (id n : Nat) : (bumpBy s id n).start = s.start := rfl
@[simp] theorem bumpBy_clk (s : State) (id n : Nat) : (bumpBy s id n).clk = s.clk := rfl
@[simp] theorem bumpBy_pps (s : State) (id n : Nat) : (bumpBy s id n).pps = s.pps := rfl
@[simp] theorem bumpBy_wd (s : State) (id n : Nat) : (bumpBy s id n).wd = s.wd := rfl
@[simp] theorem bumpBy_tap (s : State) (id n : Nat) : (bumpBy s id n).tap = s.tap := rfl
@[simp] theorem bumpBy_temp (s : State) (id n : Nat) : (bumpBy s id n).temp = s.temp := rfl
@[simp] theorem bumpBy_pins (s : State) (id n : Nat) : (bumpBy s id n).pins = s.pins := rfl
@[simp] theorem bumpBy_otp (s : State) (id n : Nat) : (bumpBy s id n).otp = s.otp := rfl
@[simp] theorem bumpBy_repairs (s : State) (id n : Nat) : (bumpBy s id n).repairs = s.repairs := rfl
@[simp] theorem bumpBy_mem (s : State) (id n : Nat) : (bumpBy s id n).mem = s.mem := rfl
@[simp] theorem bumpBy_engRegs (s : State) (id n : Nat) : (bumpBy s id n).engRegs = s.engRegs := rfl
@[simp] theorem bumpBy_halted (s : State) (id n : Nat) : (bumpBy s id n).halted = s.halted := rfl
@[simp] theorem bumpBy_engEpoch (s : State) (id n : Nat) : (bumpBy s id n).engEpoch = s.engEpoch := rfl
@[simp] theorem bumpBy_engines (s : State) (id n : Nat) : (bumpBy s id n).engines = s.engines := rfl
@[simp] theorem bumpBy_ctxs (s : State) (id n : Nat) : (bumpBy s id n).ctxs = s.ctxs := rfl
@[simp] theorem bumpBy_jobId (s : State) (id n : Nat) : (bumpBy s id n).jobId = s.jobId := rfl
@[simp] theorem bumpBy_owners (s : State) (id n : Nat) : (bumpBy s id n).owners = s.owners := rfl
@[simp] theorem bumpBy_locks (s : State) (id n : Nat) : (bumpBy s id n).locks = s.locks := rfl
@[simp] theorem bumpBy_routes (s : State) (id n : Nat) : (bumpBy s id n).routes = s.routes := rfl
@[simp] theorem bumpBy_pinRoutes (s : State) (id n : Nat) : (bumpBy s id n).pinRoutes = s.pinRoutes := rfl
@[simp] theorem bumpBy_latches (s : State) (id n : Nat) : (bumpBy s id n).latches = s.latches := rfl
@[simp] theorem bumpBy_evOut (s : State) (id n : Nat) : (bumpBy s id n).evOut = s.evOut := rfl
@[simp] theorem bumpBy_params (s : State) (id n : Nat) : (bumpBy s id n).params = s.params := rfl
@[simp] theorem bumpBy_inForce (s : State) (id n : Nat) : (bumpBy s id n).inForce = s.inForce := rfl
@[simp] theorem bumpBy_storedAt (s : State) (id n : Nat) : (bumpBy s id n).storedAt = s.storedAt := rfl
@[simp] theorem bumpBy_counters (s : State) (id n : Nat) : (bumpBy s id n).counters = tblPut s.counters id (min (2 ^ 64 - 1) (counter s id + n)) := rfl
@[simp] theorem bumpBy_scrub (s : State) (id n : Nat) : (bumpBy s id n).scrub = s.scrub := rfl
@[simp] theorem bumpBy_errLog (s : State) (id n : Nat) : (bumpBy s id n).errLog = s.errLog := rfl
@[simp] theorem bumpBy_fifos (s : State) (id n : Nat) : (bumpBy s id n).fifos = s.fifos := rfl
@[simp] theorem bumpBy_arbs (s : State) (id n : Nat) : (bumpBy s id n).arbs = s.arbs := rfl
@[simp] theorem bumpBy_chains (s : State) (id n : Nat) : (bumpBy s id n).chains = s.chains := rfl
@[simp] theorem bumpBy_quench (s : State) (id n : Nat) : (bumpBy s id n).quench = s.quench := rfl
@[simp] theorem bumpBy_image (s : State) (id n : Nat) : (bumpBy s id n).image = s.image := rfl
@[simp] theorem bumpBy_calRuns (s : State) (id n : Nat) : (bumpBy s id n).calRuns = s.calRuns := rfl
@[simp] theorem bumpBy_tunes (s : State) (id n : Nat) : (bumpBy s id n).tunes = s.tunes := rfl
@[simp] theorem bumpBy_calTail (s : State) (id n : Nat) : (bumpBy s id n).calTail = s.calTail := rfl
@[simp] theorem bumpBy_rx (s : State) (id n : Nat) : (bumpBy s id n).rx = s.rx := rfl
@[simp] theorem bumpBy_mac (s : State) (id n : Nat) : (bumpBy s id n).mac = s.mac := rfl
@[simp] theorem bumpBy_injections (s : State) (id n : Nat) : (bumpBy s id n).injections = s.injections := rfl
@[simp] theorem bumpBy_shape (s : State) (id n : Nat) : (bumpBy s id n).shape = s.shape := rfl
@[simp] theorem bumpBy_fwds (s : State) (id n : Nat) : (bumpBy s id n).fwds = s.fwds := rfl
@[simp] theorem bumpBy_anvil (s : State) (id n : Nat) : (bumpBy s id n).anvil = s.anvil := rfl
@[simp] theorem bumpBy_tb (s : State) (id n : Nat) : (bumpBy s id n).tb = s.tb := rfl
@[simp] theorem bumpBy_teus (s : State) (id n : Nat) : (bumpBy s id n).teus = s.teus := rfl
@[simp] theorem bumpBy_timers (s : State) (id n : Nat) : (bumpBy s id n).timers = s.timers := rfl
@[simp] theorem bumpBy_ptp (s : State) (id n : Nat) : (bumpBy s id n).ptp = s.ptp := rfl
@[simp] theorem bumpBy_flashA (s : State) (id n : Nat) : (bumpBy s id n).flashA = s.flashA := rfl
@[simp] theorem bumpBy_flashB (s : State) (id n : Nat) : (bumpBy s id n).flashB = s.flashB := rfl
@[simp] theorem bumpBy_update (s : State) (id n : Nat) : (bumpBy s id n).update = s.update := rfl
@[simp] theorem bumpBy_bb (s : State) (id n : Nat) : (bumpBy s id n).bb = s.bb := rfl
@[simp] theorem bumpBy_pair (s : State) (id n : Nat) : (bumpBy s id n).pair = s.pair := rfl
@[simp] theorem bumpBy_pairRole (s : State) (id n : Nat) : (bumpBy s id n).pairRole = s.pairRole := rfl
@[simp] theorem bumpBy_pending (s : State) (id n : Nat) : (bumpBy s id n).pending = s.pending := rfl

/-! ### bump: a counter adds one -/

@[simp] theorem bump_now (s : State) (id : Nat) : (bump s id).now = s.now := rfl
@[simp] theorem bump_freeCtr (s : State) (id : Nat) : (bump s id).freeCtr = s.freeCtr := rfl
@[simp] theorem bump_out (s : State) (id : Nat) : (bump s id).out = s.out := rfl
@[simp] theorem bump_start (s : State) (id : Nat) : (bump s id).start = s.start := rfl
@[simp] theorem bump_clk (s : State) (id : Nat) : (bump s id).clk = s.clk := rfl
@[simp] theorem bump_pps (s : State) (id : Nat) : (bump s id).pps = s.pps := rfl
@[simp] theorem bump_wd (s : State) (id : Nat) : (bump s id).wd = s.wd := rfl
@[simp] theorem bump_tap (s : State) (id : Nat) : (bump s id).tap = s.tap := rfl
@[simp] theorem bump_temp (s : State) (id : Nat) : (bump s id).temp = s.temp := rfl
@[simp] theorem bump_pins (s : State) (id : Nat) : (bump s id).pins = s.pins := rfl
@[simp] theorem bump_otp (s : State) (id : Nat) : (bump s id).otp = s.otp := rfl
@[simp] theorem bump_repairs (s : State) (id : Nat) : (bump s id).repairs = s.repairs := rfl
@[simp] theorem bump_mem (s : State) (id : Nat) : (bump s id).mem = s.mem := rfl
@[simp] theorem bump_engRegs (s : State) (id : Nat) : (bump s id).engRegs = s.engRegs := rfl
@[simp] theorem bump_halted (s : State) (id : Nat) : (bump s id).halted = s.halted := rfl
@[simp] theorem bump_engEpoch (s : State) (id : Nat) : (bump s id).engEpoch = s.engEpoch := rfl
@[simp] theorem bump_engines (s : State) (id : Nat) : (bump s id).engines = s.engines := rfl
@[simp] theorem bump_ctxs (s : State) (id : Nat) : (bump s id).ctxs = s.ctxs := rfl
@[simp] theorem bump_jobId (s : State) (id : Nat) : (bump s id).jobId = s.jobId := rfl
@[simp] theorem bump_owners (s : State) (id : Nat) : (bump s id).owners = s.owners := rfl
@[simp] theorem bump_locks (s : State) (id : Nat) : (bump s id).locks = s.locks := rfl
@[simp] theorem bump_routes (s : State) (id : Nat) : (bump s id).routes = s.routes := rfl
@[simp] theorem bump_pinRoutes (s : State) (id : Nat) : (bump s id).pinRoutes = s.pinRoutes := rfl
@[simp] theorem bump_latches (s : State) (id : Nat) : (bump s id).latches = s.latches := rfl
@[simp] theorem bump_evOut (s : State) (id : Nat) : (bump s id).evOut = s.evOut := rfl
@[simp] theorem bump_params (s : State) (id : Nat) : (bump s id).params = s.params := rfl
@[simp] theorem bump_inForce (s : State) (id : Nat) : (bump s id).inForce = s.inForce := rfl
@[simp] theorem bump_storedAt (s : State) (id : Nat) : (bump s id).storedAt = s.storedAt := rfl
@[simp] theorem bump_counters (s : State) (id : Nat) : (bump s id).counters = tblPut s.counters id (min (2 ^ 64 - 1) (counter s id + 1)) := rfl
@[simp] theorem bump_scrub (s : State) (id : Nat) : (bump s id).scrub = s.scrub := rfl
@[simp] theorem bump_errLog (s : State) (id : Nat) : (bump s id).errLog = s.errLog := rfl
@[simp] theorem bump_fifos (s : State) (id : Nat) : (bump s id).fifos = s.fifos := rfl
@[simp] theorem bump_arbs (s : State) (id : Nat) : (bump s id).arbs = s.arbs := rfl
@[simp] theorem bump_chains (s : State) (id : Nat) : (bump s id).chains = s.chains := rfl
@[simp] theorem bump_quench (s : State) (id : Nat) : (bump s id).quench = s.quench := rfl
@[simp] theorem bump_image (s : State) (id : Nat) : (bump s id).image = s.image := rfl
@[simp] theorem bump_calRuns (s : State) (id : Nat) : (bump s id).calRuns = s.calRuns := rfl
@[simp] theorem bump_tunes (s : State) (id : Nat) : (bump s id).tunes = s.tunes := rfl
@[simp] theorem bump_calTail (s : State) (id : Nat) : (bump s id).calTail = s.calTail := rfl
@[simp] theorem bump_rx (s : State) (id : Nat) : (bump s id).rx = s.rx := rfl
@[simp] theorem bump_mac (s : State) (id : Nat) : (bump s id).mac = s.mac := rfl
@[simp] theorem bump_injections (s : State) (id : Nat) : (bump s id).injections = s.injections := rfl
@[simp] theorem bump_shape (s : State) (id : Nat) : (bump s id).shape = s.shape := rfl
@[simp] theorem bump_fwds (s : State) (id : Nat) : (bump s id).fwds = s.fwds := rfl
@[simp] theorem bump_anvil (s : State) (id : Nat) : (bump s id).anvil = s.anvil := rfl
@[simp] theorem bump_tb (s : State) (id : Nat) : (bump s id).tb = s.tb := rfl
@[simp] theorem bump_teus (s : State) (id : Nat) : (bump s id).teus = s.teus := rfl
@[simp] theorem bump_timers (s : State) (id : Nat) : (bump s id).timers = s.timers := rfl
@[simp] theorem bump_ptp (s : State) (id : Nat) : (bump s id).ptp = s.ptp := rfl
@[simp] theorem bump_flashA (s : State) (id : Nat) : (bump s id).flashA = s.flashA := rfl
@[simp] theorem bump_flashB (s : State) (id : Nat) : (bump s id).flashB = s.flashB := rfl
@[simp] theorem bump_update (s : State) (id : Nat) : (bump s id).update = s.update := rfl
@[simp] theorem bump_bb (s : State) (id : Nat) : (bump s id).bb = s.bb := rfl
@[simp] theorem bump_pair (s : State) (id : Nat) : (bump s id).pair = s.pair := rfl
@[simp] theorem bump_pairRole (s : State) (id : Nat) : (bump s id).pairRole = s.pairRole := rfl
@[simp] theorem bump_pending (s : State) (id : Nat) : (bump s id).pending = s.pending := rfl

/-! ### setCounter: a counter is set -/

@[simp] theorem setCounter_now (s : State) (id n : Nat) : (setCounter s id n).now = s.now := rfl
@[simp] theorem setCounter_freeCtr (s : State) (id n : Nat) : (setCounter s id n).freeCtr = s.freeCtr := rfl
@[simp] theorem setCounter_out (s : State) (id n : Nat) : (setCounter s id n).out = s.out := rfl
@[simp] theorem setCounter_start (s : State) (id n : Nat) : (setCounter s id n).start = s.start := rfl
@[simp] theorem setCounter_clk (s : State) (id n : Nat) : (setCounter s id n).clk = s.clk := rfl
@[simp] theorem setCounter_pps (s : State) (id n : Nat) : (setCounter s id n).pps = s.pps := rfl
@[simp] theorem setCounter_wd (s : State) (id n : Nat) : (setCounter s id n).wd = s.wd := rfl
@[simp] theorem setCounter_tap (s : State) (id n : Nat) : (setCounter s id n).tap = s.tap := rfl
@[simp] theorem setCounter_temp (s : State) (id n : Nat) : (setCounter s id n).temp = s.temp := rfl
@[simp] theorem setCounter_pins (s : State) (id n : Nat) : (setCounter s id n).pins = s.pins := rfl
@[simp] theorem setCounter_otp (s : State) (id n : Nat) : (setCounter s id n).otp = s.otp := rfl
@[simp] theorem setCounter_repairs (s : State) (id n : Nat) : (setCounter s id n).repairs = s.repairs := rfl
@[simp] theorem setCounter_mem (s : State) (id n : Nat) : (setCounter s id n).mem = s.mem := rfl
@[simp] theorem setCounter_engRegs (s : State) (id n : Nat) : (setCounter s id n).engRegs = s.engRegs := rfl
@[simp] theorem setCounter_halted (s : State) (id n : Nat) : (setCounter s id n).halted = s.halted := rfl
@[simp] theorem setCounter_engEpoch (s : State) (id n : Nat) : (setCounter s id n).engEpoch = s.engEpoch := rfl
@[simp] theorem setCounter_engines (s : State) (id n : Nat) : (setCounter s id n).engines = s.engines := rfl
@[simp] theorem setCounter_ctxs (s : State) (id n : Nat) : (setCounter s id n).ctxs = s.ctxs := rfl
@[simp] theorem setCounter_jobId (s : State) (id n : Nat) : (setCounter s id n).jobId = s.jobId := rfl
@[simp] theorem setCounter_owners (s : State) (id n : Nat) : (setCounter s id n).owners = s.owners := rfl
@[simp] theorem setCounter_locks (s : State) (id n : Nat) : (setCounter s id n).locks = s.locks := rfl
@[simp] theorem setCounter_routes (s : State) (id n : Nat) : (setCounter s id n).routes = s.routes := rfl
@[simp] theorem setCounter_pinRoutes (s : State) (id n : Nat) : (setCounter s id n).pinRoutes = s.pinRoutes := rfl
@[simp] theorem setCounter_latches (s : State) (id n : Nat) : (setCounter s id n).latches = s.latches := rfl
@[simp] theorem setCounter_evOut (s : State) (id n : Nat) : (setCounter s id n).evOut = s.evOut := rfl
@[simp] theorem setCounter_params (s : State) (id n : Nat) : (setCounter s id n).params = s.params := rfl
@[simp] theorem setCounter_inForce (s : State) (id n : Nat) : (setCounter s id n).inForce = s.inForce := rfl
@[simp] theorem setCounter_storedAt (s : State) (id n : Nat) : (setCounter s id n).storedAt = s.storedAt := rfl
@[simp] theorem setCounter_counters (s : State) (id n : Nat) : (setCounter s id n).counters = tblPut s.counters id (min (2 ^ 64 - 1) n) := rfl
@[simp] theorem setCounter_scrub (s : State) (id n : Nat) : (setCounter s id n).scrub = s.scrub := rfl
@[simp] theorem setCounter_errLog (s : State) (id n : Nat) : (setCounter s id n).errLog = s.errLog := rfl
@[simp] theorem setCounter_fifos (s : State) (id n : Nat) : (setCounter s id n).fifos = s.fifos := rfl
@[simp] theorem setCounter_arbs (s : State) (id n : Nat) : (setCounter s id n).arbs = s.arbs := rfl
@[simp] theorem setCounter_chains (s : State) (id n : Nat) : (setCounter s id n).chains = s.chains := rfl
@[simp] theorem setCounter_quench (s : State) (id n : Nat) : (setCounter s id n).quench = s.quench := rfl
@[simp] theorem setCounter_image (s : State) (id n : Nat) : (setCounter s id n).image = s.image := rfl
@[simp] theorem setCounter_calRuns (s : State) (id n : Nat) : (setCounter s id n).calRuns = s.calRuns := rfl
@[simp] theorem setCounter_tunes (s : State) (id n : Nat) : (setCounter s id n).tunes = s.tunes := rfl
@[simp] theorem setCounter_calTail (s : State) (id n : Nat) : (setCounter s id n).calTail = s.calTail := rfl
@[simp] theorem setCounter_rx (s : State) (id n : Nat) : (setCounter s id n).rx = s.rx := rfl
@[simp] theorem setCounter_mac (s : State) (id n : Nat) : (setCounter s id n).mac = s.mac := rfl
@[simp] theorem setCounter_injections (s : State) (id n : Nat) : (setCounter s id n).injections = s.injections := rfl
@[simp] theorem setCounter_shape (s : State) (id n : Nat) : (setCounter s id n).shape = s.shape := rfl
@[simp] theorem setCounter_fwds (s : State) (id n : Nat) : (setCounter s id n).fwds = s.fwds := rfl
@[simp] theorem setCounter_anvil (s : State) (id n : Nat) : (setCounter s id n).anvil = s.anvil := rfl
@[simp] theorem setCounter_tb (s : State) (id n : Nat) : (setCounter s id n).tb = s.tb := rfl
@[simp] theorem setCounter_teus (s : State) (id n : Nat) : (setCounter s id n).teus = s.teus := rfl
@[simp] theorem setCounter_timers (s : State) (id n : Nat) : (setCounter s id n).timers = s.timers := rfl
@[simp] theorem setCounter_ptp (s : State) (id n : Nat) : (setCounter s id n).ptp = s.ptp := rfl
@[simp] theorem setCounter_flashA (s : State) (id n : Nat) : (setCounter s id n).flashA = s.flashA := rfl
@[simp] theorem setCounter_flashB (s : State) (id n : Nat) : (setCounter s id n).flashB = s.flashB := rfl
@[simp] theorem setCounter_update (s : State) (id n : Nat) : (setCounter s id n).update = s.update := rfl
@[simp] theorem setCounter_bb (s : State) (id n : Nat) : (setCounter s id n).bb = s.bb := rfl
@[simp] theorem setCounter_pair (s : State) (id n : Nat) : (setCounter s id n).pair = s.pair := rfl
@[simp] theorem setCounter_pairRole (s : State) (id n : Nat) : (setCounter s id n).pairRole = s.pairRole := rfl
@[simp] theorem setCounter_pending (s : State) (id n : Nat) : (setCounter s id n).pending = s.pending := rfl

/-! ### setCtx: a host context is stored -/

@[simp] theorem setCtx_now (s : State) (hc : Hc) (c : Ctx) : (setCtx s hc c).now = s.now := rfl
@[simp] theorem setCtx_freeCtr (s : State) (hc : Hc) (c : Ctx) : (setCtx s hc c).freeCtr = s.freeCtr := rfl
@[simp] theorem setCtx_out (s : State) (hc : Hc) (c : Ctx) : (setCtx s hc c).out = s.out := rfl
@[simp] theorem setCtx_start (s : State) (hc : Hc) (c : Ctx) : (setCtx s hc c).start = s.start := rfl
@[simp] theorem setCtx_clk (s : State) (hc : Hc) (c : Ctx) : (setCtx s hc c).clk = s.clk := rfl
@[simp] theorem setCtx_pps (s : State) (hc : Hc) (c : Ctx) : (setCtx s hc c).pps = s.pps := rfl
@[simp] theorem setCtx_wd (s : State) (hc : Hc) (c : Ctx) : (setCtx s hc c).wd = s.wd := rfl
@[simp] theorem setCtx_tap (s : State) (hc : Hc) (c : Ctx) : (setCtx s hc c).tap = s.tap := rfl
@[simp] theorem setCtx_temp (s : State) (hc : Hc) (c : Ctx) : (setCtx s hc c).temp = s.temp := rfl
@[simp] theorem setCtx_pins (s : State) (hc : Hc) (c : Ctx) : (setCtx s hc c).pins = s.pins := rfl
@[simp] theorem setCtx_otp (s : State) (hc : Hc) (c : Ctx) : (setCtx s hc c).otp = s.otp := rfl
@[simp] theorem setCtx_repairs (s : State) (hc : Hc) (c : Ctx) : (setCtx s hc c).repairs = s.repairs := rfl
@[simp] theorem setCtx_mem (s : State) (hc : Hc) (c : Ctx) : (setCtx s hc c).mem = s.mem := rfl
@[simp] theorem setCtx_engRegs (s : State) (hc : Hc) (c : Ctx) : (setCtx s hc c).engRegs = s.engRegs := rfl
@[simp] theorem setCtx_halted (s : State) (hc : Hc) (c : Ctx) : (setCtx s hc c).halted = s.halted := rfl
@[simp] theorem setCtx_engEpoch (s : State) (hc : Hc) (c : Ctx) : (setCtx s hc c).engEpoch = s.engEpoch := rfl
@[simp] theorem setCtx_engines (s : State) (hc : Hc) (c : Ctx) : (setCtx s hc c).engines = s.engines := rfl
@[simp] theorem setCtx_ctxs (s : State) (hc : Hc) (c : Ctx) : (setCtx s hc c).ctxs = tblPut s.ctxs hc.val c := rfl
@[simp] theorem setCtx_jobId (s : State) (hc : Hc) (c : Ctx) : (setCtx s hc c).jobId = s.jobId := rfl
@[simp] theorem setCtx_owners (s : State) (hc : Hc) (c : Ctx) : (setCtx s hc c).owners = s.owners := rfl
@[simp] theorem setCtx_locks (s : State) (hc : Hc) (c : Ctx) : (setCtx s hc c).locks = s.locks := rfl
@[simp] theorem setCtx_routes (s : State) (hc : Hc) (c : Ctx) : (setCtx s hc c).routes = s.routes := rfl
@[simp] theorem setCtx_pinRoutes (s : State) (hc : Hc) (c : Ctx) : (setCtx s hc c).pinRoutes = s.pinRoutes := rfl
@[simp] theorem setCtx_latches (s : State) (hc : Hc) (c : Ctx) : (setCtx s hc c).latches = s.latches := rfl
@[simp] theorem setCtx_evOut (s : State) (hc : Hc) (c : Ctx) : (setCtx s hc c).evOut = s.evOut := rfl
@[simp] theorem setCtx_params (s : State) (hc : Hc) (c : Ctx) : (setCtx s hc c).params = s.params := rfl
@[simp] theorem setCtx_inForce (s : State) (hc : Hc) (c : Ctx) : (setCtx s hc c).inForce = s.inForce := rfl
@[simp] theorem setCtx_storedAt (s : State) (hc : Hc) (c : Ctx) : (setCtx s hc c).storedAt = s.storedAt := rfl
@[simp] theorem setCtx_counters (s : State) (hc : Hc) (c : Ctx) : (setCtx s hc c).counters = s.counters := rfl
@[simp] theorem setCtx_scrub (s : State) (hc : Hc) (c : Ctx) : (setCtx s hc c).scrub = s.scrub := rfl
@[simp] theorem setCtx_errLog (s : State) (hc : Hc) (c : Ctx) : (setCtx s hc c).errLog = s.errLog := rfl
@[simp] theorem setCtx_fifos (s : State) (hc : Hc) (c : Ctx) : (setCtx s hc c).fifos = s.fifos := rfl
@[simp] theorem setCtx_arbs (s : State) (hc : Hc) (c : Ctx) : (setCtx s hc c).arbs = s.arbs := rfl
@[simp] theorem setCtx_chains (s : State) (hc : Hc) (c : Ctx) : (setCtx s hc c).chains = s.chains := rfl
@[simp] theorem setCtx_quench (s : State) (hc : Hc) (c : Ctx) : (setCtx s hc c).quench = s.quench := rfl
@[simp] theorem setCtx_image (s : State) (hc : Hc) (c : Ctx) : (setCtx s hc c).image = s.image := rfl
@[simp] theorem setCtx_calRuns (s : State) (hc : Hc) (c : Ctx) : (setCtx s hc c).calRuns = s.calRuns := rfl
@[simp] theorem setCtx_tunes (s : State) (hc : Hc) (c : Ctx) : (setCtx s hc c).tunes = s.tunes := rfl
@[simp] theorem setCtx_calTail (s : State) (hc : Hc) (c : Ctx) : (setCtx s hc c).calTail = s.calTail := rfl
@[simp] theorem setCtx_rx (s : State) (hc : Hc) (c : Ctx) : (setCtx s hc c).rx = s.rx := rfl
@[simp] theorem setCtx_mac (s : State) (hc : Hc) (c : Ctx) : (setCtx s hc c).mac = s.mac := rfl
@[simp] theorem setCtx_injections (s : State) (hc : Hc) (c : Ctx) : (setCtx s hc c).injections = s.injections := rfl
@[simp] theorem setCtx_shape (s : State) (hc : Hc) (c : Ctx) : (setCtx s hc c).shape = s.shape := rfl
@[simp] theorem setCtx_fwds (s : State) (hc : Hc) (c : Ctx) : (setCtx s hc c).fwds = s.fwds := rfl
@[simp] theorem setCtx_anvil (s : State) (hc : Hc) (c : Ctx) : (setCtx s hc c).anvil = s.anvil := rfl
@[simp] theorem setCtx_tb (s : State) (hc : Hc) (c : Ctx) : (setCtx s hc c).tb = s.tb := rfl
@[simp] theorem setCtx_teus (s : State) (hc : Hc) (c : Ctx) : (setCtx s hc c).teus = s.teus := rfl
@[simp] theorem setCtx_timers (s : State) (hc : Hc) (c : Ctx) : (setCtx s hc c).timers = s.timers := rfl
@[simp] theorem setCtx_ptp (s : State) (hc : Hc) (c : Ctx) : (setCtx s hc c).ptp = s.ptp := rfl
@[simp] theorem setCtx_flashA (s : State) (hc : Hc) (c : Ctx) : (setCtx s hc c).flashA = s.flashA := rfl
@[simp] theorem setCtx_flashB (s : State) (hc : Hc) (c : Ctx) : (setCtx s hc c).flashB = s.flashB := rfl
@[simp] theorem setCtx_update (s : State) (hc : Hc) (c : Ctx) : (setCtx s hc c).update = s.update := rfl
@[simp] theorem setCtx_bb (s : State) (hc : Hc) (c : Ctx) : (setCtx s hc c).bb = s.bb := rfl
@[simp] theorem setCtx_pair (s : State) (hc : Hc) (c : Ctx) : (setCtx s hc c).pair = s.pair := rfl
@[simp] theorem setCtx_pairRole (s : State) (hc : Hc) (c : Ctx) : (setCtx s hc c).pairRole = s.pairRole := rfl
@[simp] theorem setCtx_pending (s : State) (hc : Hc) (c : Ctx) : (setCtx s hc c).pending = s.pending := rfl

/-! ### poisonWord: a word is poisoned -/

@[simp] theorem poisonWord_now (s : State) (a : Nat) : (poisonWord s a).now = s.now := rfl
@[simp] theorem poisonWord_freeCtr (s : State) (a : Nat) : (poisonWord s a).freeCtr = s.freeCtr := rfl
@[simp] theorem poisonWord_out (s : State) (a : Nat) : (poisonWord s a).out = s.out := rfl
@[simp] theorem poisonWord_start (s : State) (a : Nat) : (poisonWord s a).start = s.start := rfl
@[simp] theorem poisonWord_clk (s : State) (a : Nat) : (poisonWord s a).clk = s.clk := rfl
@[simp] theorem poisonWord_pps (s : State) (a : Nat) : (poisonWord s a).pps = s.pps := rfl
@[simp] theorem poisonWord_wd (s : State) (a : Nat) : (poisonWord s a).wd = s.wd := rfl
@[simp] theorem poisonWord_tap (s : State) (a : Nat) : (poisonWord s a).tap = s.tap := rfl
@[simp] theorem poisonWord_temp (s : State) (a : Nat) : (poisonWord s a).temp = s.temp := rfl
@[simp] theorem poisonWord_pins (s : State) (a : Nat) : (poisonWord s a).pins = s.pins := rfl
@[simp] theorem poisonWord_otp (s : State) (a : Nat) : (poisonWord s a).otp = s.otp := rfl
@[simp] theorem poisonWord_repairs (s : State) (a : Nat) : (poisonWord s a).repairs = s.repairs := rfl
@[simp] theorem poisonWord_mem (s : State) (a : Nat) : (poisonWord s a).mem = memPut s.mem a (physPoison (physData (memRaw s.mem a))) := rfl
@[simp] theorem poisonWord_engRegs (s : State) (a : Nat) : (poisonWord s a).engRegs = s.engRegs := rfl
@[simp] theorem poisonWord_halted (s : State) (a : Nat) : (poisonWord s a).halted = s.halted := rfl
@[simp] theorem poisonWord_engEpoch (s : State) (a : Nat) : (poisonWord s a).engEpoch = s.engEpoch := rfl
@[simp] theorem poisonWord_engines (s : State) (a : Nat) : (poisonWord s a).engines = s.engines := rfl
@[simp] theorem poisonWord_ctxs (s : State) (a : Nat) : (poisonWord s a).ctxs = s.ctxs := rfl
@[simp] theorem poisonWord_jobId (s : State) (a : Nat) : (poisonWord s a).jobId = s.jobId := rfl
@[simp] theorem poisonWord_owners (s : State) (a : Nat) : (poisonWord s a).owners = s.owners := rfl
@[simp] theorem poisonWord_locks (s : State) (a : Nat) : (poisonWord s a).locks = s.locks := rfl
@[simp] theorem poisonWord_routes (s : State) (a : Nat) : (poisonWord s a).routes = s.routes := rfl
@[simp] theorem poisonWord_pinRoutes (s : State) (a : Nat) : (poisonWord s a).pinRoutes = s.pinRoutes := rfl
@[simp] theorem poisonWord_latches (s : State) (a : Nat) : (poisonWord s a).latches = s.latches := rfl
@[simp] theorem poisonWord_evOut (s : State) (a : Nat) : (poisonWord s a).evOut = s.evOut := rfl
@[simp] theorem poisonWord_params (s : State) (a : Nat) : (poisonWord s a).params = s.params := rfl
@[simp] theorem poisonWord_inForce (s : State) (a : Nat) : (poisonWord s a).inForce = s.inForce := rfl
@[simp] theorem poisonWord_storedAt (s : State) (a : Nat) : (poisonWord s a).storedAt = s.storedAt := rfl
@[simp] theorem poisonWord_counters (s : State) (a : Nat) : (poisonWord s a).counters = s.counters := rfl
@[simp] theorem poisonWord_scrub (s : State) (a : Nat) : (poisonWord s a).scrub = s.scrub := rfl
@[simp] theorem poisonWord_errLog (s : State) (a : Nat) : (poisonWord s a).errLog = s.errLog := rfl
@[simp] theorem poisonWord_fifos (s : State) (a : Nat) : (poisonWord s a).fifos = s.fifos := rfl
@[simp] theorem poisonWord_arbs (s : State) (a : Nat) : (poisonWord s a).arbs = s.arbs := rfl
@[simp] theorem poisonWord_chains (s : State) (a : Nat) : (poisonWord s a).chains = s.chains := rfl
@[simp] theorem poisonWord_quench (s : State) (a : Nat) : (poisonWord s a).quench = s.quench := rfl
@[simp] theorem poisonWord_image (s : State) (a : Nat) : (poisonWord s a).image = s.image := rfl
@[simp] theorem poisonWord_calRuns (s : State) (a : Nat) : (poisonWord s a).calRuns = s.calRuns := rfl
@[simp] theorem poisonWord_tunes (s : State) (a : Nat) : (poisonWord s a).tunes = s.tunes := rfl
@[simp] theorem poisonWord_calTail (s : State) (a : Nat) : (poisonWord s a).calTail = s.calTail := rfl
@[simp] theorem poisonWord_rx (s : State) (a : Nat) : (poisonWord s a).rx = s.rx := rfl
@[simp] theorem poisonWord_mac (s : State) (a : Nat) : (poisonWord s a).mac = s.mac := rfl
@[simp] theorem poisonWord_injections (s : State) (a : Nat) : (poisonWord s a).injections = s.injections := rfl
@[simp] theorem poisonWord_shape (s : State) (a : Nat) : (poisonWord s a).shape = s.shape := rfl
@[simp] theorem poisonWord_fwds (s : State) (a : Nat) : (poisonWord s a).fwds = s.fwds := rfl
@[simp] theorem poisonWord_anvil (s : State) (a : Nat) : (poisonWord s a).anvil = s.anvil := rfl
@[simp] theorem poisonWord_tb (s : State) (a : Nat) : (poisonWord s a).tb = s.tb := rfl
@[simp] theorem poisonWord_teus (s : State) (a : Nat) : (poisonWord s a).teus = s.teus := rfl
@[simp] theorem poisonWord_timers (s : State) (a : Nat) : (poisonWord s a).timers = s.timers := rfl
@[simp] theorem poisonWord_ptp (s : State) (a : Nat) : (poisonWord s a).ptp = s.ptp := rfl
@[simp] theorem poisonWord_flashA (s : State) (a : Nat) : (poisonWord s a).flashA = s.flashA := rfl
@[simp] theorem poisonWord_flashB (s : State) (a : Nat) : (poisonWord s a).flashB = s.flashB := rfl
@[simp] theorem poisonWord_update (s : State) (a : Nat) : (poisonWord s a).update = s.update := rfl
@[simp] theorem poisonWord_bb (s : State) (a : Nat) : (poisonWord s a).bb = s.bb := rfl
@[simp] theorem poisonWord_pair (s : State) (a : Nat) : (poisonWord s a).pair = s.pair := rfl
@[simp] theorem poisonWord_pairRole (s : State) (a : Nat) : (poisonWord s a).pairRole = s.pairRole := rfl
@[simp] theorem poisonWord_pending (s : State) (a : Nat) : (poisonWord s a).pending = s.pending := rfl

/-! ### noteDirty: a stored value waits for the settings -/

@[simp] theorem noteDirty_now (s : State) : (noteDirty s).now = s.now := rfl
@[simp] theorem noteDirty_freeCtr (s : State) : (noteDirty s).freeCtr = s.freeCtr := rfl
@[simp] theorem noteDirty_out (s : State) : (noteDirty s).out = s.out := rfl
@[simp] theorem noteDirty_start (s : State) : (noteDirty s).start = s.start := rfl
@[simp] theorem noteDirty_clk (s : State) : (noteDirty s).clk = s.clk := rfl
@[simp] theorem noteDirty_pps (s : State) : (noteDirty s).pps = s.pps := rfl
@[simp] theorem noteDirty_wd (s : State) : (noteDirty s).wd = s.wd := rfl
@[simp] theorem noteDirty_tap (s : State) : (noteDirty s).tap = s.tap := rfl
@[simp] theorem noteDirty_temp (s : State) : (noteDirty s).temp = s.temp := rfl
@[simp] theorem noteDirty_pins (s : State) : (noteDirty s).pins = s.pins := rfl
@[simp] theorem noteDirty_otp (s : State) : (noteDirty s).otp = s.otp := rfl
@[simp] theorem noteDirty_repairs (s : State) : (noteDirty s).repairs = s.repairs := rfl
@[simp] theorem noteDirty_mem (s : State) : (noteDirty s).mem = s.mem := rfl
@[simp] theorem noteDirty_engRegs (s : State) : (noteDirty s).engRegs = s.engRegs := rfl
@[simp] theorem noteDirty_halted (s : State) : (noteDirty s).halted = s.halted := rfl
@[simp] theorem noteDirty_engEpoch (s : State) : (noteDirty s).engEpoch = s.engEpoch := rfl
@[simp] theorem noteDirty_engines (s : State) : (noteDirty s).engines = s.engines := rfl
@[simp] theorem noteDirty_ctxs (s : State) : (noteDirty s).ctxs = s.ctxs := rfl
@[simp] theorem noteDirty_jobId (s : State) : (noteDirty s).jobId = s.jobId := rfl
@[simp] theorem noteDirty_owners (s : State) : (noteDirty s).owners = s.owners := rfl
@[simp] theorem noteDirty_locks (s : State) : (noteDirty s).locks = s.locks := rfl
@[simp] theorem noteDirty_routes (s : State) : (noteDirty s).routes = s.routes := rfl
@[simp] theorem noteDirty_pinRoutes (s : State) : (noteDirty s).pinRoutes = s.pinRoutes := rfl
@[simp] theorem noteDirty_latches (s : State) : (noteDirty s).latches = s.latches := rfl
@[simp] theorem noteDirty_evOut (s : State) : (noteDirty s).evOut = s.evOut := rfl
@[simp] theorem noteDirty_params (s : State) : (noteDirty s).params = s.params := rfl
@[simp] theorem noteDirty_inForce (s : State) : (noteDirty s).inForce = s.inForce := rfl
@[simp] theorem noteDirty_storedAt (s : State) : (noteDirty s).storedAt = s.storedAt := rfl
@[simp] theorem noteDirty_counters (s : State) : (noteDirty s).counters = s.counters := rfl
@[simp] theorem noteDirty_scrub (s : State) : (noteDirty s).scrub = s.scrub := rfl
@[simp] theorem noteDirty_errLog (s : State) : (noteDirty s).errLog = s.errLog := rfl
@[simp] theorem noteDirty_fifos (s : State) : (noteDirty s).fifos = s.fifos := rfl
@[simp] theorem noteDirty_arbs (s : State) : (noteDirty s).arbs = s.arbs := rfl
@[simp] theorem noteDirty_chains (s : State) : (noteDirty s).chains = s.chains := rfl
@[simp] theorem noteDirty_quench (s : State) : (noteDirty s).quench = s.quench := rfl
@[simp] theorem noteDirty_image (s : State) : (noteDirty s).image = s.image := rfl
@[simp] theorem noteDirty_calRuns (s : State) : (noteDirty s).calRuns = s.calRuns := rfl
@[simp] theorem noteDirty_tunes (s : State) : (noteDirty s).tunes = s.tunes := rfl
@[simp] theorem noteDirty_calTail (s : State) : (noteDirty s).calTail = s.calTail := rfl
@[simp] theorem noteDirty_rx (s : State) : (noteDirty s).rx = s.rx := rfl
@[simp] theorem noteDirty_mac (s : State) : (noteDirty s).mac = s.mac := rfl
@[simp] theorem noteDirty_injections (s : State) : (noteDirty s).injections = s.injections := rfl
@[simp] theorem noteDirty_shape (s : State) : (noteDirty s).shape = s.shape := rfl
@[simp] theorem noteDirty_fwds (s : State) : (noteDirty s).fwds = s.fwds := rfl
@[simp] theorem noteDirty_anvil (s : State) : (noteDirty s).anvil = s.anvil := rfl
@[simp] theorem noteDirty_tb (s : State) : (noteDirty s).tb = s.tb := rfl
@[simp] theorem noteDirty_teus (s : State) : (noteDirty s).teus = s.teus := rfl
@[simp] theorem noteDirty_timers (s : State) : (noteDirty s).timers = s.timers := rfl
@[simp] theorem noteDirty_ptp (s : State) : (noteDirty s).ptp = s.ptp := rfl
@[simp] theorem noteDirty_flashA (s : State) : (noteDirty s).flashA = s.flashA := rfl
@[simp] theorem noteDirty_flashB (s : State) : (noteDirty s).flashB = s.flashB := rfl
@[simp] theorem noteDirty_bb (s : State) : (noteDirty s).bb = s.bb := rfl
@[simp] theorem noteDirty_pair (s : State) : (noteDirty s).pair = s.pair := rfl
@[simp] theorem noteDirty_pairRole (s : State) : (noteDirty s).pairRole = s.pairRole := rfl
@[simp] theorem noteDirty_pending (s : State) : (noteDirty s).pending = s.pending := rfl

/-- The value of the timebase after `dt` TIME cycles (R487). -/
@[simp] theorem advance_tb_value (s : State) (dt : Nat) :
    (advance dt s).tb.value = s.tb.value + BitVec.ofInt 120 (dt * increment s.tb.rate) := rfl

end Sys2Proof.Machine
end

