-- ==== Sys2Proof/Laws/Tables.lean ====
section
/-!
SUPPORT. The laws of sparse tables: what a read finds after a write or a removal, and that keys stay strictly rising.
-/

namespace Sys2Proof.Machine

/-- Reading the key just written gives the value written. -/
@[simp] theorem tblGet_tblPut_self {α : Type} (m : SMap α) (a : Nat) (x : α) : tblGet (tblPut m a x) a = some x := by
  induction m with
  | nil => simp [tblPut, tblGet]
  | cons e m ih =>
    obtain ⟨k, v⟩ := e
    simp only [tblPut]
    split
    · simp [tblGet]
    · split
      · simp [tblGet]
      · have h : ¬ k = a := fun h => by omega
        simp [tblGet, h, ih]

/-- A write leaves every other key as it was. -/
theorem tblGet_tblPut_other {α : Type} (m : SMap α) (a b : Nat) (x : α) (h : b ≠ a) :
    tblGet (tblPut m a x) b = tblGet m b := by
  induction m with
  | nil => simp [tblPut, tblGet, Ne.symm h]
  | cons e m ih =>
    obtain ⟨k, v⟩ := e
    simp only [tblPut]
    split
    · simp [tblGet, Ne.symm h]
    · split
      · rename_i e
        subst e
        simp [tblGet, Ne.symm h]
      · simp [tblGet, ih]

/-- A removal leaves every other key as it was. -/
theorem tblGet_tblErase_other {α : Type} (m : SMap α) (a b : Nat) (h : b ≠ a) :
    tblGet (tblErase m a) b = tblGet m b := by
  induction m with
  | nil => rfl
  | cons e m ih =>
    obtain ⟨k, v⟩ := e
    simp only [tblErase]
    split
    · rename_i e
      subst e
      simp [tblGet, Ne.symm h]
    · simp [tblGet, ih]

/-- A key below the bound of a rising table is not listed. -/
theorem tblGet_below {α : Type} (m : SMap α) (lo a : Nat) (hm : keysRise lo m = true) (h : a < lo) : tblGet m a = none := by
  induction m generalizing lo with
  | nil => rfl
  | cons e m ih =>
    obtain ⟨k, v⟩ := e
    simp only [keysRise, Bool.and_eq_true, decide_eq_true_eq] at hm
    have hk : ¬ k = a := by omega
    simpa [tblGet, hk] using ih (k + 1) hm.2 (by omega)

/-- A removal from a rising table leaves the key unlisted. -/
theorem tblGet_tblErase_self {α : Type} (m : SMap α) (lo a : Nat) (hm : keysRise lo m = true) :
    tblGet (tblErase m a) a = none := by
  induction m generalizing lo with
  | nil => rfl
  | cons e m ih =>
    obtain ⟨k, v⟩ := e
    simp only [keysRise, Bool.and_eq_true, decide_eq_true_eq] at hm
    simp only [tblErase]
    split
    · rename_i e
      exact tblGet_below m (k + 1) a hm.2 (by omega)
    · rename_i e
      simpa [tblGet, e] using ih (k + 1) hm.2

/-- A lower bound may be lowered. -/
theorem keysRise_mono {α : Type} (m : SMap α) (lo lo' : Nat) (h : lo' ≤ lo) (hm : keysRise lo m = true) :
    keysRise lo' m = true := by
  cases m with
  | nil => rfl
  | cons e m =>
    obtain ⟨k, v⟩ := e
    simp only [keysRise, Bool.and_eq_true, decide_eq_true_eq] at hm ⊢
    exact ⟨by omega, hm.2⟩

/-- A write keeps the keys rising. -/
theorem keysRise_tblPut {α : Type} (m : SMap α) (lo a : Nat) (x : α) (h : lo ≤ a) (hm : keysRise lo m = true) :
    keysRise lo (tblPut m a x) = true := by
  induction m generalizing lo with
  | nil => simp [tblPut, keysRise, h]
  | cons e m ih =>
    obtain ⟨k, v⟩ := e
    simp only [keysRise, Bool.and_eq_true, decide_eq_true_eq] at hm
    simp only [tblPut]
    split
    · simp only [keysRise, Bool.and_eq_true, decide_eq_true_eq]
      exact ⟨h, by omega, hm.2⟩
    · split
      · rename_i e
        subst e
        simp only [keysRise, Bool.and_eq_true, decide_eq_true_eq]
        exact ⟨h, hm.2⟩
      · simp only [keysRise, Bool.and_eq_true, decide_eq_true_eq]
        exact ⟨hm.1, ih (k + 1) (by omega) hm.2⟩

/-- A removal keeps the keys rising. -/
theorem keysRise_tblErase {α : Type} (m : SMap α) (lo a : Nat) (hm : keysRise lo m = true) :
    keysRise lo (tblErase m a) = true := by
  induction m generalizing lo with
  | nil => rfl
  | cons e m ih =>
    obtain ⟨k, v⟩ := e
    simp only [keysRise, Bool.and_eq_true, decide_eq_true_eq] at hm
    simp only [tblErase]
    split
    · exact keysRise_mono m (k + 1) lo (by omega) hm.2
    · simp only [keysRise, Bool.and_eq_true, decide_eq_true_eq]
      exact ⟨hm.1, ih (k + 1) hm.2⟩

/-- A selection of entries keeps the keys rising. -/
theorem keysRise_filter {α : Type} (p : Nat × α → Bool) (m : SMap α) (lo : Nat) (hm : keysRise lo m = true) :
    keysRise lo (m.filter p) = true := by
  induction m generalizing lo with
  | nil => rfl
  | cons e m ih =>
    obtain ⟨k, v⟩ := e
    simp only [keysRise, Bool.and_eq_true, decide_eq_true_eq] at hm
    simp only [List.filter_cons]
    split
    · simp only [keysRise, Bool.and_eq_true, decide_eq_true_eq]
      exact ⟨hm.1, ih (k + 1) hm.2⟩
    · exact keysRise_mono _ (k + 1) lo (by omega) (ih (k + 1) hm.2)

/-- The entry at the key just written, with a default. -/
@[simp] theorem tblAt_tblPut_self {α : Type} (m : SMap α) (a : Nat) (x d : α) : tblAt (tblPut m a x) a d = x := by
  simp [tblAt]

/-- Another key's entry after a write, with a default. -/
theorem tblAt_tblPut_other {α : Type} (m : SMap α) (a b : Nat) (x d : α) (h : b ≠ a) :
    tblAt (tblPut m a x) b d = tblAt m b d := by
  simp [tblAt, tblGet_tblPut_other m a b x h]

/-- A context reads back as stored. -/
@[simp] theorem ctx_setCtx_self (s : State) (hc : Hc) (c : Ctx) : ctx (setCtx s hc c) hc = c := by
  simp [ctx, setCtx]

/-- Storing one context leaves the others. -/
theorem ctx_setCtx_other (s : State) (hc k : Hc) (c : Ctx) (h : k ≠ hc) : ctx (setCtx s hc c) k = ctx s k := by
  have h' : k.val ≠ hc.val := fun e => h (Fin.ext e)
  simp [ctx, setCtx, tblAt_tblPut_other _ _ _ _ _ h']

/-- What a counter holds after an addition to it (R195). -/
@[simp] theorem counter_bumpBy_self (s : State) (id n : Nat) :
    counter (bumpBy s id n) id = min (2 ^ 64 - 1) (counter s id + n) := by
  simp [counter, bumpBy]

/-- An addition to one counter leaves the others. -/
theorem counter_bumpBy_other (s : State) (id k n : Nat) (h : k ≠ id) : counter (bumpBy s id n) k = counter s k := by
  simp [counter, bumpBy, tblAt_tblPut_other _ _ _ _ _ h]

/-- A table made of a list of keys holds each of them. -/
theorem tblGet_map {α : Type} (v : α) (l : List Nat) (k : Nat) (h : k ∈ l) : tblGet (l.map (fun i => (i, v))) k = some v := by
  induction l with
  | nil => cases h
  | cons a l ih =>
    by_cases e : a = k <;> simp_all [tblGet]
    exact ih (h.resolve_left (Ne.symm e))

end Sys2Proof.Machine
end

