-- ==== Sys2Proof/Laws/Memory.lean ====
section
/-!
SUPPORT. The laws of memory: every operation keeps its canonical form, a word written reads back, and no other word
changes.
-/

namespace Sys2Proof.Machine

theorem all_tblPut (m : SMap PhysWord) (a : Nat) (w : PhysWord) (hw : w ≠ 0)
    (hm : m.all (fun e => e.2 != 0) = true) :
    (tblPut m a w).all (fun e => e.2 != 0) = true := by
  have hw' : (w != 0) = true := by simpa using hw
  induction m with
  | nil => simp only [tblPut, List.all_cons, List.all_nil, hw', Bool.and_true]
  | cons e m ih =>
    obtain ⟨k, v⟩ := e
    simp only [List.all_cons, Bool.and_eq_true] at hm
    simp only [tblPut]
    split
    · simp only [List.all_cons, hw', hm.1, hm.2, Bool.and_true]
    · split
      · simp only [List.all_cons, hw', hm.2, Bool.and_true]
      · simp only [List.all_cons, Bool.and_eq_true]
        exact ⟨hm.1, ih hm.2⟩

theorem all_tblErase (m : SMap PhysWord) (a : Nat) (hm : m.all (fun e => e.2 != 0) = true) :
    (tblErase m a).all (fun e => e.2 != 0) = true := by
  induction m with
  | nil => rfl
  | cons e m ih =>
    obtain ⟨k, v⟩ := e
    simp only [List.all_cons, Bool.and_eq_true] at hm
    simp only [tblErase]
    split
    · exact hm.2
    · simp only [List.all_cons, Bool.and_eq_true]
      exact ⟨hm.1, ih hm.2⟩

/-- A store keeps the canonical form. -/
theorem memPut_wf (m : SMap PhysWord) (a : Nat) (w : PhysWord) (hm : Memory.wf m = true) : Memory.wf (memPut m a w) = true := by
  simp only [Memory.wf, Bool.and_eq_true] at hm ⊢
  unfold memPut
  split
  · exact ⟨keysRise_tblErase m 0 a hm.1, all_tblErase m a hm.2⟩
  · rename_i h
    exact ⟨keysRise_tblPut m 0 a w (by omega) hm.1, all_tblPut m a w h hm.2⟩

/-- A selection of the listed words keeps the canonical form. -/
theorem filter_wf (p : Nat × PhysWord → Bool) (m : SMap PhysWord) (hm : Memory.wf m = true) : Memory.wf (m.filter p) = true := by
  simp only [Memory.wf, Bool.and_eq_true] at hm ⊢
  refine ⟨keysRise_filter p m 0 hm.1, ?_⟩
  rw [List.all_eq_true] at hm ⊢
  exact fun e he => hm.2 e (List.mem_filter.mp he).1

/-- The memory after reset is in canonical form. -/
theorem reset_mem_wf : Memory.wf State.reset.mem = true := rfl

/-- A word stored reads back. -/
theorem memRaw_memPut_self (m : SMap PhysWord) (a : Nat) (w : PhysWord) (hm : Memory.wf m = true) :
    memRaw (memPut m a w) a = w := by
  simp only [Memory.wf, Bool.and_eq_true] at hm
  unfold memPut
  split
  · rename_i h
    simp [memRaw, tblAt, tblGet_tblErase_self m 0 a hm.1, h]
  · simp [memRaw]

/-- A store changes no other word. -/
theorem memRaw_memPut_other (m : SMap PhysWord) (a b : Nat) (w : PhysWord) (h : b ≠ a) :
    memRaw (memPut m a w) b = memRaw m b := by
  unfold memPut
  split
  · simp [memRaw, tblAt, tblGet_tblErase_other m a b h]
  · simp [memRaw, tblAt, tblGet_tblPut_other m a b w h]

/-! ### Written and poisoned words (R163, R166, R169) -/

theorem physData_make (v : BitVec 1) (c : BitVec 8) (d : Word) : physData (v ++ c ++ d : BitVec 81) = d := by
  apply BitVec.eq_of_getLsbD_eq
  intro i hi
  simp only [physData, BitVec.getLsbD_setWidth, BitVec.getLsbD_append]
  simp [hi]

theorem physCheck_make (v : BitVec 1) (c : BitVec 8) (d : Word) : physCheck (v ++ c ++ d : BitVec 81) = c := by
  apply BitVec.eq_of_getLsbD_eq
  intro i hi
  simp only [physCheck, BitVec.getLsbD_setWidth, BitVec.getLsbD_ushiftRight, BitVec.getLsbD_append]
  have h1 : ¬ 72 + i < 72 := by omega
  have h2 : 72 + i - 72 = i := by omega
  simp [h2, hi]

theorem physValid_make (c : BitVec 8) (d : Word) : physValid (1#1 ++ c ++ d : BitVec 81) = true := by
  simp only [physValid, BitVec.getLsbD_append]
  simp

/-- A written word holds its valid bit: it is never all zeros. -/
theorem physOf_ne_zero (d : Word) : physOf d ≠ 0 := by
  intro h
  have hv : physValid (physOf d) = true := physValid_make _ _
  rw [h] at hv
  exact absurd hv (by decide)

/-- A written word is valid, with a syndrome of zero. -/
theorem syndrome_physOf (d : Word) : syndrome (physOf d) = 0 := by
  simp [syndrome, physOf, physCheck_make, physData_make]

/-- A word written decodes clean (R164, R166). -/
@[simp] theorem decodePhys_physOf (d : Word) : decodePhys (physOf d) = .clean d := by
  have h1 : physValid (physOf d) = true := physValid_make _ _
  have h2 : physData (physOf d) = d := physData_make _ _ _
  simp [decodePhys, h1, h2, syndrome_physOf]

/-- A word under the poison signature decodes poisoned, whatever its data (R168, R169). -/
@[simp] theorem decodePhys_physPoison (d : Word) : decodePhys (physPoison d) = .poisoned := by
  have h1 : physValid (physPoison d) = true := physValid_make _ _
  have h2 : syndrome (physPoison d) = 0xFF := by
    simp only [syndrome, physPoison, physCheck_make, physData_make]
    rw [BitVec.xor_comm (eccCheck d), BitVec.xor_assoc, BitVec.xor_self, BitVec.xor_zero]
  have h3 : oneBit 255#8 = false := by decide
  simp [decodePhys, h1, h2, h3]

/-! ### The named operations -/

/-- Two updates of the memory alone are one. -/
theorem mem_only_trans {s t u : State} (h1 : t = { s with mem := t.mem }) (h2 : u = { t with mem := u.mem }) :
    u = { s with mem := u.mem } :=
  h2.trans (by rw [h1])


/-- A word write keeps the canonical form. -/
theorem writeWord_wf (s : State) (a : Nat) (d : Word) (h : Memory.wf s.mem = true) :
    Memory.wf (writeWord s a d).mem = true := by
  unfold writeWord
  split
  · exact h
  · simp only [Memory.wf, Bool.and_eq_true] at h ⊢
    exact ⟨keysRise_tblPut _ 0 _ _ (by omega) h.1, all_tblPut _ _ _ (physOf_ne_zero d) h.2⟩

/-- A word write changes nothing but the memory. -/
theorem writeWord_eq (s : State) (a : Nat) (d : Word) : writeWord s a d = { s with mem := (writeWord s a d).mem } := by
  unfold writeWord
  split <;> rfl

/-- A word write changes no other word. -/
theorem memRaw_writeWord_other (s : State) (a b : Nat) (d : Word) (h : b ≠ a) :
    memRaw (writeWord s a d).mem b = memRaw s.mem b := by
  unfold writeWord
  split
  · rfl
  · simp [memRaw, tblAt, tblGet_tblPut_other _ a b _ h]

/-- A word written outside the reserved addresses is stored with its check bits. -/
theorem memRaw_writeWord_self (s : State) (a : Nat) (d : Word) (hr : regionOf a ≠ .reserved) :
    memRaw (writeWord s a d).mem a = physOf d := by
  unfold writeWord
  split
  · rename_i e
    exact absurd e hr
  · simp [memRaw]

/-- A word written reads back as its data. -/
theorem peek_writeWord_self (s : State) (a : Nat) (d : Word) (hr : regionOf a ≠ .reserved) :
    peek (writeWord s a d) a = d := by
  simp [peek, memRaw_writeWord_self s a d hr]

/-- A reserved address ignores a write (R20). -/
theorem writeWord_reserved (s : State) (a : Nat) (d : Word) (hr : regionOf a = .reserved) : writeWord s a d = s := by
  simp [writeWord, hr]

/-- Writing words keeps the canonical form. -/
theorem writeWords_wf (ds : List Word) (s : State) (a : Nat) (h : Memory.wf s.mem = true) :
    Memory.wf (writeWords s a ds).mem = true := by
  induction ds generalizing s a with
  | nil => exact h
  | cons d ds ih => exact ih _ _ (writeWord_wf s a d h)

/-- Writing words changes nothing but the memory. -/
theorem writeWords_eq (ds : List Word) (s : State) (a : Nat) : writeWords s a ds = { s with mem := (writeWords s a ds).mem } := by
  induction ds generalizing s a with
  | nil => rfl
  | cons d ds ih => exact mem_only_trans (writeWord_eq s a d) (ih (writeWord s a d) (a + 1))

/-- Writing words from an address leaves every word outside them. -/
theorem memRaw_writeWords_other (ds : List Word) (s : State) (a b : Nat) (h : b < a ∨ a + ds.length ≤ b) :
    memRaw (writeWords s a ds).mem b = memRaw s.mem b := by
  induction ds generalizing s a with
  | nil => rfl
  | cons d ds ih =>
    simp only [List.length_cons] at h
    rw [writeWords, ih _ _ (by omega), memRaw_writeWord_other s a b d (by omega)]

/-- Writing into a ring keeps the canonical form. -/
theorem ringWrite_wf (base size : Nat) (ws : List Word) (s : State) (i : Nat) (h : Memory.wf s.mem = true) :
    Memory.wf (ringWrite base size s i ws).mem = true := by
  induction ws generalizing s i with
  | nil => exact h
  | cons w ws ih => exact ih _ _ (writeWord_wf s _ w h)

/-- Writing into a ring changes nothing but the memory. -/
theorem ringWrite_eq (base size : Nat) (ws : List Word) (s : State) (i : Nat) :
    ringWrite base size s i ws = { s with mem := (ringWrite base size s i ws).mem } := by
  induction ws generalizing s i with
  | nil => rfl
  | cons w ws ih => exact mem_only_trans (writeWord_eq s (base + i % size) w) (ih (writeWord s (base + i % size) w) (i + 1))

/-- Writing into a ring leaves every word outside it. -/
theorem memRaw_ringWrite_other (base size : Nat) (ws : List Word) (s : State) (i b : Nat) (hs : 0 < size)
    (h : b < base ∨ base + size ≤ b) : memRaw (ringWrite base size s i ws).mem b = memRaw s.mem b := by
  induction ws generalizing s i with
  | nil => rfl
  | cons w ws ih =>
    have := Nat.mod_lt i hs
    rw [ringWrite, ih, memRaw_writeWord_other s _ b w (by omega)]

/-- Poisoning a word keeps the canonical form. -/
theorem poisonWord_wf (s : State) (a : Nat) (h : Memory.wf s.mem = true) : Memory.wf (poisonWord s a).mem = true :=
  memPut_wf _ _ _ h

/-- A poisoned word reads as poisoned. -/
theorem decodePhys_poisonWord (s : State) (a : Nat) (h : Memory.wf s.mem = true) :
    decodePhys (memRaw (poisonWord s a).mem a) = .poisoned := by
  simp [memRaw_memPut_self _ _ _ h]

/-- Poisoning a word changes no other word. -/
theorem memRaw_poisonWord_other (s : State) (a b : Nat) (h : b ≠ a) : memRaw (poisonWord s a).mem b = memRaw s.mem b :=
  memRaw_memPut_other _ _ _ _ h

end Sys2Proof.Machine
end

