-- ==== Sys2Proof/Laws/Events.lean ====
section
/-!
SUPPORT. What raising an event, logging an error, a consumer's read and a completion can do: each operation's whole
effect, said once, with what it leaves of every other field.
-/

namespace Sys2Proof.Machine

/-! ### Raising events (R153 to R158) -/

theorem raiseRoute_eq (src : Nat) (w2 w3 : Word) (s : State) (hc : Hc) :
    ∃ e r l, raiseRoute src w2 w3 s hc = { s with evOut := e, routes := r, latches := l } := by
  unfold raiseRoute
  dsimp only
  split
  · exact ⟨_, _, _, rfl⟩
  · split
    · exact ⟨_, _, _, rfl⟩
    · split <;> exact ⟨_, _, _, rfl⟩

theorem raisePin_eq (src : Nat) (s : State) (pin : Fin 4) :
    ∃ e r l, raisePin src s pin = { s with evOut := e, routes := r, latches := l } := by
  unfold raisePin
  dsimp only
  split <;> exact ⟨_, _, _, rfl⟩

theorem foldRoutes_eq (src : Nat) (w2 w3 : Word) (hs : List Hc) (s : State) :
    ∃ e r l, hs.foldl (raiseRoute src w2 w3) s = { s with evOut := e, routes := r, latches := l } := by
  induction hs generalizing s with
  | nil => exact ⟨_, _, _, rfl⟩
  | cons hc hs ih =>
    obtain ⟨_, _, _, h1⟩ := raiseRoute_eq src w2 w3 s hc
    obtain ⟨e, r, l, h2⟩ := ih (raiseRoute src w2 w3 s hc)
    exact ⟨e, r, l, h2.trans (by rw [h1])⟩

theorem foldPins_eq (src : Nat) (ps : List (Fin 4)) (s : State) :
    ∃ e r l, ps.foldl (raisePin src) s = { s with evOut := e, routes := r, latches := l } := by
  induction ps generalizing s with
  | nil => exact ⟨_, _, _, rfl⟩
  | cons p ps ih =>
    obtain ⟨_, _, _, h1⟩ := raisePin_eq src s p
    obtain ⟨e, r, l, h2⟩ := ih (raisePin src s p)
    exact ⟨e, r, l, h2.trans (by rw [h1])⟩

/-- Raising an event touches the events on their way, the routes' windows and the pins' latches, and nothing else. -/
theorem raiseEv_eq (s : State) (src : Nat) (w2 w3 : Word) :
    ∃ e r l, raiseEv s src w2 w3 = { s with evOut := e, routes := r, latches := l } := by
  obtain ⟨_, _, _, h1⟩ := foldRoutes_eq src w2 w3 allHc s
  obtain ⟨e, r, l, h2⟩ := foldPins_eq src [0, 1, 2, 3] (allHc.foldl (raiseRoute src w2 w3) s)
  exact ⟨e, r, l, h2.trans (by rw [h1])⟩

/-- An event written to chosen contexts touches the same three fields. -/
theorem raiseTo_eq (s : State) (hcs : List Hc) (src : Nat) (w2 w3 : Word) :
    ∃ e r l, raiseTo s hcs src w2 w3 = { s with evOut := e, routes := r, latches := l } := by
  unfold raiseTo
  dsimp only
  obtain ⟨_, _, _, h⟩ := foldPins_eq src [0, 1, 2, 3] _
  rw [h]
  exact ⟨_, _, _, rfl⟩

/-- A signalled vector leaves the device and changes nothing else. -/
theorem signal_eq (s : State) (hc : Hc) (v : Nat) : ∃ o, signal s hc v = { s with out := o } := by
  unfold signal
  split
  · split <;> exact ⟨_, rfl⟩
  · exact ⟨_, rfl⟩

/-- Logging an error touches the log, and raises at most the event of a lost entry (R177). -/
theorem logError_eq (s : State) (addr kind consumer : Nat) (syn : BitVec 8) (bank : Nat) :
    ∃ g e r l, logError s addr kind consumer syn bank = { s with errLog := g, evOut := e, routes := r, latches := l } := by
  unfold logError
  split
  · exact ⟨_, _, _, _, rfl⟩
  · dsimp only
    split
    · obtain ⟨_, _, _, h⟩ := raiseEv_eq _ _ _ _
      rw [h]
      exact ⟨_, _, _, _, rfl⟩
    · exact ⟨_, _, _, _, rfl⟩

/-- Meeting a poisoned word counts and raises, and changes nothing else (R171). -/
theorem meetPoison_eq (s : State) (a code : Nat) (extra : Word) :
    ∃ c e r l, meetPoison s a code extra = { s with counters := c, evOut := e, routes := r, latches := l } := by
  obtain ⟨_, _, _, h⟩ := raiseEv_eq (bump s (0x140 + code)) 33 (at' 0 (a % 2 ^ 23) ||| at' 24 code ||| extra) 0
  exact ⟨_, _, _, _, h⟩

/-! ### Consumer reads (R166 to R171) -/

theorem logError_read {s u : State}
    (h : ∃ m c g e r l, u = { s with mem := m, counters := c, errLog := g, evOut := e, routes := r, latches := l })
    (addr kind consumer : Nat) (syn : BitVec 8) (bank : Nat) : ∃ m c g e r l, logError u addr kind consumer syn bank =
      { s with mem := m, counters := c, errLog := g, evOut := e, routes := r, latches := l } := by
  obtain ⟨_, _, _, _, _, _, rfl⟩ := h
  obtain ⟨_, _, _, _, h⟩ := logError_eq _ addr kind consumer syn bank
  rw [h]
  exact ⟨_, _, _, _, _, _, rfl⟩

theorem meetPoison_read {s u : State}
    (h : ∃ m c g e r l, u = { s with mem := m, counters := c, errLog := g, evOut := e, routes := r, latches := l })
    (a code : Nat) (extra : Word) : ∃ m c g e r l, meetPoison u a code extra =
      { s with mem := m, counters := c, errLog := g, evOut := e, routes := r, latches := l } := by
  obtain ⟨_, _, _, _, _, _, rfl⟩ := h
  obtain ⟨_, _, _, _, h⟩ := meetPoison_eq _ a code extra
  rw [h]
  exact ⟨_, _, _, _, _, _, rfl⟩

/-- A consumer's read touches the memory (a word it poisons), counters, the log and events, and nothing else. -/
theorem readWordX_eq (s : State) (a code : Nat) (extra : Word) :
    ∃ m c g e r l, (readWordX s a code extra).1 =
      { s with mem := m, counters := c, errLog := g, evOut := e, routes := r, latches := l } := by
  have h0 : ∃ m c g e r l, s = { s with mem := m, counters := c, errLog := g, evOut := e, routes := r, latches := l } :=
    ⟨_, _, _, _, _, _, rfl⟩
  have h1 : ∃ m c g e r l, bump (poisonWord s a) 0x108 =
      { s with mem := m, counters := c, errLog := g, evOut := e, routes := r, latches := l } := ⟨_, _, _, _, _, _, rfl⟩
  have h2 : ∀ x, ∃ m c g e r l, bump s (ceCounter x) =
      { s with mem := m, counters := c, errLog := g, evOut := e, routes := r, latches := l } :=
    fun _ => ⟨_, _, _, _, _, _, rfl⟩
  unfold readWordX
  split
  · exact h0
  · split
    · exact h0
    · exact h0
    · exact h2 _
    · dsimp only
      exact logError_read (meetPoison_read h0 a code extra) _ _ _ _ _
    · split
      · dsimp only
        exact meetPoison_read h0 a code extra
      · dsimp only
        exact logError_read (meetPoison_read h1 a code extra) _ _ _ _ _

/-- A consumer's read of a word, likewise. -/
theorem readWord_eq (s : State) (a code : Nat) :
    ∃ m c g e r l, (readWord s a code).1 =
      { s with mem := m, counters := c, errLog := g, evOut := e, routes := r, latches := l } :=
  readWordX_eq s a code 0

theorem logError_mem' (s : State) (addr kind consumer : Nat) (syn : BitVec 8) (bank : Nat) :
    (logError s addr kind consumer syn bank).mem = s.mem := by
  obtain ⟨_, _, _, _, h⟩ := logError_eq s addr kind consumer syn bank
  rw [h]

theorem meetPoison_mem (s : State) (a code : Nat) (extra : Word) : (meetPoison s a code extra).mem = s.mem := by
  obtain ⟨_, _, _, _, h⟩ := meetPoison_eq s a code extra
  rw [h]

/-- A consumer's read keeps the memory's canonical form. -/
theorem readWordX_wf (s : State) (a code : Nat) (extra : Word) (h : Memory.wf s.mem = true) :
    Memory.wf (readWordX s a code extra).1.mem = true := by
  unfold readWordX
  split
  · exact h
  · split
    · exact h
    · exact h
    · exact h
    · simpa only [logError_mem', meetPoison_mem] using h
    · split
      · simpa only [meetPoison_mem] using h
      · dsimp only
        rw [logError_mem', meetPoison_mem]
        exact poisonWord_wf s a h

/-- A read of a word that is clean changes nothing and delivers its data. -/
theorem readWordX_clean (s : State) (a code : Nat) (extra d : Word) (hr : regionOf a ≠ .reserved)
    (h : decodePhys (memRaw s.mem a) = .clean d) : readWordX s a code extra = (s, some d) := by
  unfold readWordX
  split
  · rename_i e
    exact absurd e hr
  · rw [h]

/-- A read of a word that holds nothing changes nothing and delivers zero. -/
theorem readWordX_invalid (s : State) (a code : Nat) (extra : Word) (h : decodePhys (memRaw s.mem a) = .invalid) :
    readWordX s a code extra = (s, some 0) := by
  unfold readWordX
  split
  · rfl
  · rw [h]

/-- A word written is what the next consumer reads. -/
theorem readWord_writeWord (s : State) (a code : Nat) (d : Word) (hr : regionOf a ≠ .reserved) :
    readWord (writeWord s a d) a code = (writeWord s a d, some d) :=
  readWordX_clean _ _ _ _ _ hr (by simp [memRaw_writeWord_self s a d hr])

/-- A read of words keeps the memory's canonical form. -/
theorem readWords_wf (code n a : Nat) (s : State) (h : Memory.wf s.mem = true) :
    Memory.wf (readWords code n a s).1.mem = true := by
  induction n generalizing a s with
  | zero => exact h
  | succ n ih =>
    have h1 : Memory.wf (readWord s a code).1.mem = true := readWordX_wf s a code 0 h
    unfold readWords
    split
    · rename_i e
      rwa [e] at h1
    · rename_i e
      rw [e] at h1
      have h2 := ih (a + 1) _ h1
      split <;> rename_i e2 <;> rwa [e2] at h2

/-! ### Completions (R117, R135, R136) -/

/-- Signalling a completion touches the context and what leaves the device. -/
theorem signalDone_eq (s : State) (hc : Hc) (notify : Bool) : ∃ c o, signalDone s hc notify = { s with ctxs := c, out := o } := by
  unfold signalDone
  dsimp only
  split
  · obtain ⟨_, h⟩ := signal_eq (setCtx s hc { ctx s hc with vec0 := false, coalesce := none }) hc 0
    exact ⟨_, _, h⟩
  · split
    · split
      · obtain ⟨_, h⟩ := signal_eq (setCtx s hc { ctx s hc with vec0 := false }) hc 0
        exact ⟨_, _, h⟩
      · exact ⟨_, _, rfl⟩
    · exact ⟨_, _, rfl⟩

/-- A completion touches memory, the context and what leaves the device, and nothing else. -/
theorem complete_eq (s : State) (hc : Hc) (op : BitVec 12) (tag : BitVec 16) (notify : Bool) (st : Status)
    (ws : List Word) (restart air : Bool) :
    ∃ m c o, complete s hc op tag notify st ws restart air = { s with mem := m, ctxs := c, out := o } := by
  unfold complete
  dsimp only
  obtain ⟨_, _, h⟩ := signalDone_eq _ hc notify
  rw [h, ringWrite_eq]
  exact ⟨_, _, _, rfl⟩

/-! ### The journal and the result store (R99, R136) -/

theorem freeSlot_lt (c : Ctx) : freeSlot c < 256 := by
  unfold freeSlot
  cases h : (List.range 256).find? (fun k => !(c.journal.any (fun r => r.slot == k))) with
  | none => simp
  | some k => simpa using List.mem_of_find?_eq_some h

theorem freeSpace_lt (c : Ctx) (n : Nat) (k : Nat) (h : k ∈ freeSpace c n) : k < 1024 :=
  List.mem_range.mp (List.mem_filter.mp (List.mem_of_mem_take h)).1

/-- A fold of word writes touches the memory alone. -/
theorem foldWrite_eq {α : Type} (f : State → α → State) (hf : ∀ s x, f s x = { s with mem := (f s x).mem }) (xs : List α)
    (s : State) : xs.foldl f s = { s with mem := (xs.foldl f s).mem } := by
  induction xs generalizing s with
  | nil => rfl
  | cons x xs ih => exact mem_only_trans (hf s x) (ih (f s x))

theorem putRecord_eq (s : State) (hc : Hc) (slot : Nat) (tag : BitVec 16) (op : BitVec 12) (room st : Nat) (space : List Nat) :
    putRecord s hc slot tag op room st space = { s with mem := (putRecord s hc slot tag op room st space).mem } :=
  writeWord_eq _ _ _

theorem putResult_eq (s : State) (hc : Hc) (space : List Nat) (ws : List Word) :
    putResult s hc space ws = { s with mem := (putResult s hc space ws).mem } :=
  foldWrite_eq _ (fun s e => writeWord_eq s (resultBase hc + e.1 % 1024) e.2) _ _

theorem putRecord_wf (s : State) (hc : Hc) (slot : Nat) (tag : BitVec 16) (op : BitVec 12) (room st : Nat) (space : List Nat)
    (h : Memory.wf s.mem = true) : Memory.wf (putRecord s hc slot tag op room st space).mem = true := writeWord_wf _ _ _ h

theorem foldPut_wf (hc : Hc) (es : List (Nat × Word)) (s : State) (h : Memory.wf s.mem = true) :
    Memory.wf (es.foldl (fun s e => writeWord s (resultBase hc + e.1 % 1024) e.2) s).mem = true := by
  induction es generalizing s with
  | nil => exact h
  | cons e es ih => exact ih _ (writeWord_wf _ _ _ h)

theorem putResult_wf (s : State) (hc : Hc) (space : List Nat) (ws : List Word) (h : Memory.wf s.mem = true) :
    Memory.wf (putResult s hc space ws).mem = true := foldPut_wf hc _ s h

/-- Writing a record's word leaves every word outside the context's journal. -/
theorem memRaw_putRecord_other (s : State) (hc : Hc) (slot : Nat) (tag : BitVec 16) (op : BitVec 12) (room st : Nat)
    (space : List Nat) (b : Nat) (hb : b < journalBase hc ∨ journalBase hc + 256 ≤ b) :
    memRaw (putRecord s hc slot tag op room st space).mem b = memRaw s.mem b :=
  memRaw_writeWord_other _ _ _ _ (by omega)

theorem foldPut_other (hc : Hc) (es : List (Nat × Word)) (s : State) (b : Nat)
    (hb : b < resultBase hc ∨ resultBase hc + 1024 ≤ b) :
    memRaw (es.foldl (fun s e => writeWord s (resultBase hc + e.1 % 1024) e.2) s).mem b = memRaw s.mem b := by
  induction es generalizing s with
  | nil => rfl
  | cons e es ih =>
    rw [List.foldl_cons, ih, memRaw_writeWord_other _ _ _ _ (by omega)]

/-- Writing completion words leaves every word outside the context's result store. -/
theorem memRaw_putResult_other (s : State) (hc : Hc) (space : List Nat) (ws : List Word) (b : Nat)
    (hb : b < resultBase hc ∨ resultBase hc + 1024 ≤ b) :
    memRaw (putResult s hc space ws).mem b = memRaw s.mem b :=
  foldPut_other hc _ s b hb

/-- The record of a command that completes as it executes touches the memory alone. -/
theorem passRecord_eq (s : State) (hc : Hc) (op : Nat) (h : Word) (st : Status) (ws : List Word) :
    passRecord s hc op h st ws = { s with mem := (passRecord s hc op h st ws).mem } := by
  unfold passRecord
  dsimp only
  exact mem_only_trans (putResult_eq _ _ _ _) (putRecord_eq _ _ _ _ _ _ _ _)

/-- Consuming a packet touches the context's consumer index and the memory (R136). -/
theorem consume_eq (s : State) (hc : Hc) (h : Word) : ∃ m c, consume s hc h = { s with mem := m, ctxs := c } := by
  unfold consume
  dsimp only
  rw [putRecord_eq]
  exact ⟨_, _, rfl⟩

/-- The completion of a consumed packet touches memory, the context and what leaves the device. -/
theorem completeAs_eq (s : State) (hc : Hc) (op : Nat) (h : Word) (st : Status) (ws : List Word) :
    ∃ m c o, completeAs s hc op h st ws = { s with mem := m, ctxs := c, out := o } := by
  unfold completeAs
  obtain ⟨_, _, _, h1⟩ := complete_eq (passRecord s hc op h st ws) hc (BitVec.ofNat 12 op) (BitVec.ofNat 16 (fld h 27 12))
    (h.getLsbD 40) st ws false false
  rw [h1, passRecord_eq]
  exact ⟨_, _, _, rfl⟩

theorem signalDone_mem (s : State) (hc : Hc) (notify : Bool) : (signalDone s hc notify).mem = s.mem := by
  obtain ⟨_, _, h⟩ := signalDone_eq s hc notify
  rw [h]

/-- A completion keeps the memory's canonical form. -/
theorem completeAs_wf (s : State) (hc : Hc) (op : Nat) (h : Word) (st : Status) (ws : List Word)
    (hm : Memory.wf s.mem = true) : Memory.wf (completeAs s hc op h st ws).mem = true := by
  unfold completeAs complete
  dsimp only
  rw [signalDone_mem]
  exact ringWrite_wf _ _ _ _ _ (putRecord_wf _ _ _ _ _ _ _ _ (putResult_wf _ _ _ _ hm))

/-- A completion leaves every word outside its context's CQ, journal and result store. -/
theorem memRaw_completeAs_other (s : State) (hc : Hc) (op : Nat) (h : Word) (st : Status) (ws : List Word) (b : Nat)
    (hb : b < ringBase hc + 0x400 ∨ ringBase hc + 0x800 ≤ b) (hj : b < journalBase hc ∨ journalBase hc + 256 ≤ b)
    (hr : b < resultBase hc ∨ resultBase hc + 1024 ≤ b) :
    memRaw (completeAs s hc op h st ws).mem b = memRaw s.mem b := by
  unfold completeAs complete
  dsimp only
  rw [signalDone_mem]
  refine (memRaw_ringWrite_other _ _ _ _ _ _ (by omega) (by omega)).trans ?_
  unfold passRecord
  dsimp only
  rw [memRaw_putRecord_other _ _ _ _ _ _ _ _ _ hj,
    memRaw_putResult_other _ _ _ _ _ hr]

/-! ### The fields that these operations leave -/

@[simp] theorem raiseEv_now (s : State) (src : Nat) (w2 w3 : Word) :
    (raiseEv s src w2 w3).now = s.now := by
  obtain ⟨_, _, _, h⟩ := raiseEv_eq s src w2 w3
  rw [h]
@[simp] theorem raiseEv_freeCtr (s : State) (src : Nat) (w2 w3 : Word) :
    (raiseEv s src w2 w3).freeCtr = s.freeCtr := by
  obtain ⟨_, _, _, h⟩ := raiseEv_eq s src w2 w3
  rw [h]
@[simp] theorem raiseEv_out (s : State) (src : Nat) (w2 w3 : Word) :
    (raiseEv s src w2 w3).out = s.out := by
  obtain ⟨_, _, _, h⟩ := raiseEv_eq s src w2 w3
  rw [h]
@[simp] theorem raiseEv_start (s : State) (src : Nat) (w2 w3 : Word) :
    (raiseEv s src w2 w3).start = s.start := by
  obtain ⟨_, _, _, h⟩ := raiseEv_eq s src w2 w3
  rw [h]
@[simp] theorem raiseEv_clk (s : State) (src : Nat) (w2 w3 : Word) :
    (raiseEv s src w2 w3).clk = s.clk := by
  obtain ⟨_, _, _, h⟩ := raiseEv_eq s src w2 w3
  rw [h]
@[simp] theorem raiseEv_pps (s : State) (src : Nat) (w2 w3 : Word) :
    (raiseEv s src w2 w3).pps = s.pps := by
  obtain ⟨_, _, _, h⟩ := raiseEv_eq s src w2 w3
  rw [h]
@[simp] theorem raiseEv_wd (s : State) (src : Nat) (w2 w3 : Word) :
    (raiseEv s src w2 w3).wd = s.wd := by
  obtain ⟨_, _, _, h⟩ := raiseEv_eq s src w2 w3
  rw [h]
@[simp] theorem raiseEv_tap (s : State) (src : Nat) (w2 w3 : Word) :
    (raiseEv s src w2 w3).tap = s.tap := by
  obtain ⟨_, _, _, h⟩ := raiseEv_eq s src w2 w3
  rw [h]
@[simp] theorem raiseEv_temp (s : State) (src : Nat) (w2 w3 : Word) :
    (raiseEv s src w2 w3).temp = s.temp := by
  obtain ⟨_, _, _, h⟩ := raiseEv_eq s src w2 w3
  rw [h]
@[simp] theorem raiseEv_pins (s : State) (src : Nat) (w2 w3 : Word) :
    (raiseEv s src w2 w3).pins = s.pins := by
  obtain ⟨_, _, _, h⟩ := raiseEv_eq s src w2 w3
  rw [h]
@[simp] theorem raiseEv_otp (s : State) (src : Nat) (w2 w3 : Word) :
    (raiseEv s src w2 w3).otp = s.otp := by
  obtain ⟨_, _, _, h⟩ := raiseEv_eq s src w2 w3
  rw [h]
@[simp] theorem raiseEv_repairs (s : State) (src : Nat) (w2 w3 : Word) :
    (raiseEv s src w2 w3).repairs = s.repairs := by
  obtain ⟨_, _, _, h⟩ := raiseEv_eq s src w2 w3
  rw [h]
@[simp] theorem raiseEv_mem (s : State) (src : Nat) (w2 w3 : Word) :
    (raiseEv s src w2 w3).mem = s.mem := by
  obtain ⟨_, _, _, h⟩ := raiseEv_eq s src w2 w3
  rw [h]
@[simp] theorem raiseEv_engRegs (s : State) (src : Nat) (w2 w3 : Word) :
    (raiseEv s src w2 w3).engRegs = s.engRegs := by
  obtain ⟨_, _, _, h⟩ := raiseEv_eq s src w2 w3
  rw [h]
@[simp] theorem raiseEv_halted (s : State) (src : Nat) (w2 w3 : Word) :
    (raiseEv s src w2 w3).halted = s.halted := by
  obtain ⟨_, _, _, h⟩ := raiseEv_eq s src w2 w3
  rw [h]
@[simp] theorem raiseEv_engEpoch (s : State) (src : Nat) (w2 w3 : Word) :
    (raiseEv s src w2 w3).engEpoch = s.engEpoch := by
  obtain ⟨_, _, _, h⟩ := raiseEv_eq s src w2 w3
  rw [h]
@[simp] theorem raiseEv_engines (s : State) (src : Nat) (w2 w3 : Word) :
    (raiseEv s src w2 w3).engines = s.engines := by
  obtain ⟨_, _, _, h⟩ := raiseEv_eq s src w2 w3
  rw [h]
@[simp] theorem raiseEv_ctxs (s : State) (src : Nat) (w2 w3 : Word) :
    (raiseEv s src w2 w3).ctxs = s.ctxs := by
  obtain ⟨_, _, _, h⟩ := raiseEv_eq s src w2 w3
  rw [h]
@[simp] theorem raiseEv_jobId (s : State) (src : Nat) (w2 w3 : Word) :
    (raiseEv s src w2 w3).jobId = s.jobId := by
  obtain ⟨_, _, _, h⟩ := raiseEv_eq s src w2 w3
  rw [h]
@[simp] theorem raiseEv_owners (s : State) (src : Nat) (w2 w3 : Word) :
    (raiseEv s src w2 w3).owners = s.owners := by
  obtain ⟨_, _, _, h⟩ := raiseEv_eq s src w2 w3
  rw [h]
@[simp] theorem raiseEv_locks (s : State) (src : Nat) (w2 w3 : Word) :
    (raiseEv s src w2 w3).locks = s.locks := by
  obtain ⟨_, _, _, h⟩ := raiseEv_eq s src w2 w3
  rw [h]
@[simp] theorem raiseEv_pinRoutes (s : State) (src : Nat) (w2 w3 : Word) :
    (raiseEv s src w2 w3).pinRoutes = s.pinRoutes := by
  obtain ⟨_, _, _, h⟩ := raiseEv_eq s src w2 w3
  rw [h]
@[simp] theorem raiseEv_params (s : State) (src : Nat) (w2 w3 : Word) :
    (raiseEv s src w2 w3).params = s.params := by
  obtain ⟨_, _, _, h⟩ := raiseEv_eq s src w2 w3
  rw [h]
@[simp] theorem raiseEv_inForce (s : State) (src : Nat) (w2 w3 : Word) :
    (raiseEv s src w2 w3).inForce = s.inForce := by
  obtain ⟨_, _, _, h⟩ := raiseEv_eq s src w2 w3
  rw [h]
@[simp] theorem raiseEv_storedAt (s : State) (src : Nat) (w2 w3 : Word) :
    (raiseEv s src w2 w3).storedAt = s.storedAt := by
  obtain ⟨_, _, _, h⟩ := raiseEv_eq s src w2 w3
  rw [h]
@[simp] theorem raiseEv_counters (s : State) (src : Nat) (w2 w3 : Word) :
    (raiseEv s src w2 w3).counters = s.counters := by
  obtain ⟨_, _, _, h⟩ := raiseEv_eq s src w2 w3
  rw [h]
@[simp] theorem raiseEv_scrub (s : State) (src : Nat) (w2 w3 : Word) :
    (raiseEv s src w2 w3).scrub = s.scrub := by
  obtain ⟨_, _, _, h⟩ := raiseEv_eq s src w2 w3
  rw [h]
@[simp] theorem raiseEv_errLog (s : State) (src : Nat) (w2 w3 : Word) :
    (raiseEv s src w2 w3).errLog = s.errLog := by
  obtain ⟨_, _, _, h⟩ := raiseEv_eq s src w2 w3
  rw [h]
@[simp] theorem raiseEv_fifos (s : State) (src : Nat) (w2 w3 : Word) :
    (raiseEv s src w2 w3).fifos = s.fifos := by
  obtain ⟨_, _, _, h⟩ := raiseEv_eq s src w2 w3
  rw [h]
@[simp] theorem raiseEv_arbs (s : State) (src : Nat) (w2 w3 : Word) :
    (raiseEv s src w2 w3).arbs = s.arbs := by
  obtain ⟨_, _, _, h⟩ := raiseEv_eq s src w2 w3
  rw [h]
@[simp] theorem raiseEv_chains (s : State) (src : Nat) (w2 w3 : Word) :
    (raiseEv s src w2 w3).chains = s.chains := by
  obtain ⟨_, _, _, h⟩ := raiseEv_eq s src w2 w3
  rw [h]
@[simp] theorem raiseEv_quench (s : State) (src : Nat) (w2 w3 : Word) :
    (raiseEv s src w2 w3).quench = s.quench := by
  obtain ⟨_, _, _, h⟩ := raiseEv_eq s src w2 w3
  rw [h]
@[simp] theorem raiseEv_image (s : State) (src : Nat) (w2 w3 : Word) :
    (raiseEv s src w2 w3).image = s.image := by
  obtain ⟨_, _, _, h⟩ := raiseEv_eq s src w2 w3
  rw [h]
@[simp] theorem raiseEv_calRuns (s : State) (src : Nat) (w2 w3 : Word) :
    (raiseEv s src w2 w3).calRuns = s.calRuns := by
  obtain ⟨_, _, _, h⟩ := raiseEv_eq s src w2 w3
  rw [h]
@[simp] theorem raiseEv_tunes (s : State) (src : Nat) (w2 w3 : Word) :
    (raiseEv s src w2 w3).tunes = s.tunes := by
  obtain ⟨_, _, _, h⟩ := raiseEv_eq s src w2 w3
  rw [h]
@[simp] theorem raiseEv_calTail (s : State) (src : Nat) (w2 w3 : Word) :
    (raiseEv s src w2 w3).calTail = s.calTail := by
  obtain ⟨_, _, _, h⟩ := raiseEv_eq s src w2 w3
  rw [h]
@[simp] theorem raiseEv_rx (s : State) (src : Nat) (w2 w3 : Word) :
    (raiseEv s src w2 w3).rx = s.rx := by
  obtain ⟨_, _, _, h⟩ := raiseEv_eq s src w2 w3
  rw [h]
@[simp] theorem raiseEv_mac (s : State) (src : Nat) (w2 w3 : Word) :
    (raiseEv s src w2 w3).mac = s.mac := by
  obtain ⟨_, _, _, h⟩ := raiseEv_eq s src w2 w3
  rw [h]
@[simp] theorem raiseEv_injections (s : State) (src : Nat) (w2 w3 : Word) :
    (raiseEv s src w2 w3).injections = s.injections := by
  obtain ⟨_, _, _, h⟩ := raiseEv_eq s src w2 w3
  rw [h]
@[simp] theorem raiseEv_shape (s : State) (src : Nat) (w2 w3 : Word) :
    (raiseEv s src w2 w3).shape = s.shape := by
  obtain ⟨_, _, _, h⟩ := raiseEv_eq s src w2 w3
  rw [h]
@[simp] theorem raiseEv_fwds (s : State) (src : Nat) (w2 w3 : Word) :
    (raiseEv s src w2 w3).fwds = s.fwds := by
  obtain ⟨_, _, _, h⟩ := raiseEv_eq s src w2 w3
  rw [h]
@[simp] theorem raiseEv_anvil (s : State) (src : Nat) (w2 w3 : Word) :
    (raiseEv s src w2 w3).anvil = s.anvil := by
  obtain ⟨_, _, _, h⟩ := raiseEv_eq s src w2 w3
  rw [h]
@[simp] theorem raiseEv_tb (s : State) (src : Nat) (w2 w3 : Word) :
    (raiseEv s src w2 w3).tb = s.tb := by
  obtain ⟨_, _, _, h⟩ := raiseEv_eq s src w2 w3
  rw [h]
@[simp] theorem raiseEv_teus (s : State) (src : Nat) (w2 w3 : Word) :
    (raiseEv s src w2 w3).teus = s.teus := by
  obtain ⟨_, _, _, h⟩ := raiseEv_eq s src w2 w3
  rw [h]
@[simp] theorem raiseEv_timers (s : State) (src : Nat) (w2 w3 : Word) :
    (raiseEv s src w2 w3).timers = s.timers := by
  obtain ⟨_, _, _, h⟩ := raiseEv_eq s src w2 w3
  rw [h]
@[simp] theorem raiseEv_ptp (s : State) (src : Nat) (w2 w3 : Word) :
    (raiseEv s src w2 w3).ptp = s.ptp := by
  obtain ⟨_, _, _, h⟩ := raiseEv_eq s src w2 w3
  rw [h]
@[simp] theorem raiseEv_flashA (s : State) (src : Nat) (w2 w3 : Word) :
    (raiseEv s src w2 w3).flashA = s.flashA := by
  obtain ⟨_, _, _, h⟩ := raiseEv_eq s src w2 w3
  rw [h]
@[simp] theorem raiseEv_flashB (s : State) (src : Nat) (w2 w3 : Word) :
    (raiseEv s src w2 w3).flashB = s.flashB := by
  obtain ⟨_, _, _, h⟩ := raiseEv_eq s src w2 w3
  rw [h]
@[simp] theorem raiseEv_update (s : State) (src : Nat) (w2 w3 : Word) :
    (raiseEv s src w2 w3).update = s.update := by
  obtain ⟨_, _, _, h⟩ := raiseEv_eq s src w2 w3
  rw [h]
@[simp] theorem raiseEv_bb (s : State) (src : Nat) (w2 w3 : Word) :
    (raiseEv s src w2 w3).bb = s.bb := by
  obtain ⟨_, _, _, h⟩ := raiseEv_eq s src w2 w3
  rw [h]
@[simp] theorem raiseEv_pair (s : State) (src : Nat) (w2 w3 : Word) :
    (raiseEv s src w2 w3).pair = s.pair := by
  obtain ⟨_, _, _, h⟩ := raiseEv_eq s src w2 w3
  rw [h]
@[simp] theorem raiseEv_pairRole (s : State) (src : Nat) (w2 w3 : Word) :
    (raiseEv s src w2 w3).pairRole = s.pairRole := by
  obtain ⟨_, _, _, h⟩ := raiseEv_eq s src w2 w3
  rw [h]
@[simp] theorem raiseEv_pending (s : State) (src : Nat) (w2 w3 : Word) :
    (raiseEv s src w2 w3).pending = s.pending := by
  obtain ⟨_, _, _, h⟩ := raiseEv_eq s src w2 w3
  rw [h]

@[simp] theorem raiseTo_now (s : State) (hcs : List Hc) (src : Nat) (w2 w3 : Word) :
    (raiseTo s hcs src w2 w3).now = s.now := by
  obtain ⟨_, _, _, h⟩ := raiseTo_eq s hcs src w2 w3
  rw [h]
@[simp] theorem raiseTo_freeCtr (s : State) (hcs : List Hc) (src : Nat) (w2 w3 : Word) :
    (raiseTo s hcs src w2 w3).freeCtr = s.freeCtr := by
  obtain ⟨_, _, _, h⟩ := raiseTo_eq s hcs src w2 w3
  rw [h]
@[simp] theorem raiseTo_out (s : State) (hcs : List Hc) (src : Nat) (w2 w3 : Word) :
    (raiseTo s hcs src w2 w3).out = s.out := by
  obtain ⟨_, _, _, h⟩ := raiseTo_eq s hcs src w2 w3
  rw [h]
@[simp] theorem raiseTo_start (s : State) (hcs : List Hc) (src : Nat) (w2 w3 : Word) :
    (raiseTo s hcs src w2 w3).start = s.start := by
  obtain ⟨_, _, _, h⟩ := raiseTo_eq s hcs src w2 w3
  rw [h]
@[simp] theorem raiseTo_clk (s : State) (hcs : List Hc) (src : Nat) (w2 w3 : Word) :
    (raiseTo s hcs src w2 w3).clk = s.clk := by
  obtain ⟨_, _, _, h⟩ := raiseTo_eq s hcs src w2 w3
  rw [h]
@[simp] theorem raiseTo_pps (s : State) (hcs : List Hc) (src : Nat) (w2 w3 : Word) :
    (raiseTo s hcs src w2 w3).pps = s.pps := by
  obtain ⟨_, _, _, h⟩ := raiseTo_eq s hcs src w2 w3
  rw [h]
@[simp] theorem raiseTo_wd (s : State) (hcs : List Hc) (src : Nat) (w2 w3 : Word) :
    (raiseTo s hcs src w2 w3).wd = s.wd := by
  obtain ⟨_, _, _, h⟩ := raiseTo_eq s hcs src w2 w3
  rw [h]
@[simp] theorem raiseTo_tap (s : State) (hcs : List Hc) (src : Nat) (w2 w3 : Word) :
    (raiseTo s hcs src w2 w3).tap = s.tap := by
  obtain ⟨_, _, _, h⟩ := raiseTo_eq s hcs src w2 w3
  rw [h]
@[simp] theorem raiseTo_temp (s : State) (hcs : List Hc) (src : Nat) (w2 w3 : Word) :
    (raiseTo s hcs src w2 w3).temp = s.temp := by
  obtain ⟨_, _, _, h⟩ := raiseTo_eq s hcs src w2 w3
  rw [h]
@[simp] theorem raiseTo_pins (s : State) (hcs : List Hc) (src : Nat) (w2 w3 : Word) :
    (raiseTo s hcs src w2 w3).pins = s.pins := by
  obtain ⟨_, _, _, h⟩ := raiseTo_eq s hcs src w2 w3
  rw [h]
@[simp] theorem raiseTo_otp (s : State) (hcs : List Hc) (src : Nat) (w2 w3 : Word) :
    (raiseTo s hcs src w2 w3).otp = s.otp := by
  obtain ⟨_, _, _, h⟩ := raiseTo_eq s hcs src w2 w3
  rw [h]
@[simp] theorem raiseTo_repairs (s : State) (hcs : List Hc) (src : Nat) (w2 w3 : Word) :
    (raiseTo s hcs src w2 w3).repairs = s.repairs := by
  obtain ⟨_, _, _, h⟩ := raiseTo_eq s hcs src w2 w3
  rw [h]
@[simp] theorem raiseTo_mem (s : State) (hcs : List Hc) (src : Nat) (w2 w3 : Word) :
    (raiseTo s hcs src w2 w3).mem = s.mem := by
  obtain ⟨_, _, _, h⟩ := raiseTo_eq s hcs src w2 w3
  rw [h]
@[simp] theorem raiseTo_engRegs (s : State) (hcs : List Hc) (src : Nat) (w2 w3 : Word) :
    (raiseTo s hcs src w2 w3).engRegs = s.engRegs := by
  obtain ⟨_, _, _, h⟩ := raiseTo_eq s hcs src w2 w3
  rw [h]
@[simp] theorem raiseTo_halted (s : State) (hcs : List Hc) (src : Nat) (w2 w3 : Word) :
    (raiseTo s hcs src w2 w3).halted = s.halted := by
  obtain ⟨_, _, _, h⟩ := raiseTo_eq s hcs src w2 w3
  rw [h]
@[simp] theorem raiseTo_engEpoch (s : State) (hcs : List Hc) (src : Nat) (w2 w3 : Word) :
    (raiseTo s hcs src w2 w3).engEpoch = s.engEpoch := by
  obtain ⟨_, _, _, h⟩ := raiseTo_eq s hcs src w2 w3
  rw [h]
@[simp] theorem raiseTo_engines (s : State) (hcs : List Hc) (src : Nat) (w2 w3 : Word) :
    (raiseTo s hcs src w2 w3).engines = s.engines := by
  obtain ⟨_, _, _, h⟩ := raiseTo_eq s hcs src w2 w3
  rw [h]
@[simp] theorem raiseTo_ctxs (s : State) (hcs : List Hc) (src : Nat) (w2 w3 : Word) :
    (raiseTo s hcs src w2 w3).ctxs = s.ctxs := by
  obtain ⟨_, _, _, h⟩ := raiseTo_eq s hcs src w2 w3
  rw [h]
@[simp] theorem raiseTo_jobId (s : State) (hcs : List Hc) (src : Nat) (w2 w3 : Word) :
    (raiseTo s hcs src w2 w3).jobId = s.jobId := by
  obtain ⟨_, _, _, h⟩ := raiseTo_eq s hcs src w2 w3
  rw [h]
@[simp] theorem raiseTo_owners (s : State) (hcs : List Hc) (src : Nat) (w2 w3 : Word) :
    (raiseTo s hcs src w2 w3).owners = s.owners := by
  obtain ⟨_, _, _, h⟩ := raiseTo_eq s hcs src w2 w3
  rw [h]
@[simp] theorem raiseTo_locks (s : State) (hcs : List Hc) (src : Nat) (w2 w3 : Word) :
    (raiseTo s hcs src w2 w3).locks = s.locks := by
  obtain ⟨_, _, _, h⟩ := raiseTo_eq s hcs src w2 w3
  rw [h]
@[simp] theorem raiseTo_pinRoutes (s : State) (hcs : List Hc) (src : Nat) (w2 w3 : Word) :
    (raiseTo s hcs src w2 w3).pinRoutes = s.pinRoutes := by
  obtain ⟨_, _, _, h⟩ := raiseTo_eq s hcs src w2 w3
  rw [h]
@[simp] theorem raiseTo_params (s : State) (hcs : List Hc) (src : Nat) (w2 w3 : Word) :
    (raiseTo s hcs src w2 w3).params = s.params := by
  obtain ⟨_, _, _, h⟩ := raiseTo_eq s hcs src w2 w3
  rw [h]
@[simp] theorem raiseTo_inForce (s : State) (hcs : List Hc) (src : Nat) (w2 w3 : Word) :
    (raiseTo s hcs src w2 w3).inForce = s.inForce := by
  obtain ⟨_, _, _, h⟩ := raiseTo_eq s hcs src w2 w3
  rw [h]
@[simp] theorem raiseTo_storedAt (s : State) (hcs : List Hc) (src : Nat) (w2 w3 : Word) :
    (raiseTo s hcs src w2 w3).storedAt = s.storedAt := by
  obtain ⟨_, _, _, h⟩ := raiseTo_eq s hcs src w2 w3
  rw [h]
@[simp] theorem raiseTo_counters (s : State) (hcs : List Hc) (src : Nat) (w2 w3 : Word) :
    (raiseTo s hcs src w2 w3).counters = s.counters := by
  obtain ⟨_, _, _, h⟩ := raiseTo_eq s hcs src w2 w3
  rw [h]
@[simp] theorem raiseTo_scrub (s : State) (hcs : List Hc) (src : Nat) (w2 w3 : Word) :
    (raiseTo s hcs src w2 w3).scrub = s.scrub := by
  obtain ⟨_, _, _, h⟩ := raiseTo_eq s hcs src w2 w3
  rw [h]
@[simp] theorem raiseTo_errLog (s : State) (hcs : List Hc) (src : Nat) (w2 w3 : Word) :
    (raiseTo s hcs src w2 w3).errLog = s.errLog := by
  obtain ⟨_, _, _, h⟩ := raiseTo_eq s hcs src w2 w3
  rw [h]
@[simp] theorem raiseTo_fifos (s : State) (hcs : List Hc) (src : Nat) (w2 w3 : Word) :
    (raiseTo s hcs src w2 w3).fifos = s.fifos := by
  obtain ⟨_, _, _, h⟩ := raiseTo_eq s hcs src w2 w3
  rw [h]
@[simp] theorem raiseTo_arbs (s : State) (hcs : List Hc) (src : Nat) (w2 w3 : Word) :
    (raiseTo s hcs src w2 w3).arbs = s.arbs := by
  obtain ⟨_, _, _, h⟩ := raiseTo_eq s hcs src w2 w3
  rw [h]
@[simp] theorem raiseTo_chains (s : State) (hcs : List Hc) (src : Nat) (w2 w3 : Word) :
    (raiseTo s hcs src w2 w3).chains = s.chains := by
  obtain ⟨_, _, _, h⟩ := raiseTo_eq s hcs src w2 w3
  rw [h]
@[simp] theorem raiseTo_quench (s : State) (hcs : List Hc) (src : Nat) (w2 w3 : Word) :
    (raiseTo s hcs src w2 w3).quench = s.quench := by
  obtain ⟨_, _, _, h⟩ := raiseTo_eq s hcs src w2 w3
  rw [h]
@[simp] theorem raiseTo_image (s : State) (hcs : List Hc) (src : Nat) (w2 w3 : Word) :
    (raiseTo s hcs src w2 w3).image = s.image := by
  obtain ⟨_, _, _, h⟩ := raiseTo_eq s hcs src w2 w3
  rw [h]
@[simp] theorem raiseTo_calRuns (s : State) (hcs : List Hc) (src : Nat) (w2 w3 : Word) :
    (raiseTo s hcs src w2 w3).calRuns = s.calRuns := by
  obtain ⟨_, _, _, h⟩ := raiseTo_eq s hcs src w2 w3
  rw [h]
@[simp] theorem raiseTo_tunes (s : State) (hcs : List Hc) (src : Nat) (w2 w3 : Word) :
    (raiseTo s hcs src w2 w3).tunes = s.tunes := by
  obtain ⟨_, _, _, h⟩ := raiseTo_eq s hcs src w2 w3
  rw [h]
@[simp] theorem raiseTo_calTail (s : State) (hcs : List Hc) (src : Nat) (w2 w3 : Word) :
    (raiseTo s hcs src w2 w3).calTail = s.calTail := by
  obtain ⟨_, _, _, h⟩ := raiseTo_eq s hcs src w2 w3
  rw [h]
@[simp] theorem raiseTo_rx (s : State) (hcs : List Hc) (src : Nat) (w2 w3 : Word) :
    (raiseTo s hcs src w2 w3).rx = s.rx := by
  obtain ⟨_, _, _, h⟩ := raiseTo_eq s hcs src w2 w3
  rw [h]
@[simp] theorem raiseTo_mac (s : State) (hcs : List Hc) (src : Nat) (w2 w3 : Word) :
    (raiseTo s hcs src w2 w3).mac = s.mac := by
  obtain ⟨_, _, _, h⟩ := raiseTo_eq s hcs src w2 w3
  rw [h]
@[simp] theorem raiseTo_injections (s : State) (hcs : List Hc) (src : Nat) (w2 w3 : Word) :
    (raiseTo s hcs src w2 w3).injections = s.injections := by
  obtain ⟨_, _, _, h⟩ := raiseTo_eq s hcs src w2 w3
  rw [h]
@[simp] theorem raiseTo_shape (s : State) (hcs : List Hc) (src : Nat) (w2 w3 : Word) :
    (raiseTo s hcs src w2 w3).shape = s.shape := by
  obtain ⟨_, _, _, h⟩ := raiseTo_eq s hcs src w2 w3
  rw [h]
@[simp] theorem raiseTo_fwds (s : State) (hcs : List Hc) (src : Nat) (w2 w3 : Word) :
    (raiseTo s hcs src w2 w3).fwds = s.fwds := by
  obtain ⟨_, _, _, h⟩ := raiseTo_eq s hcs src w2 w3
  rw [h]
@[simp] theorem raiseTo_anvil (s : State) (hcs : List Hc) (src : Nat) (w2 w3 : Word) :
    (raiseTo s hcs src w2 w3).anvil = s.anvil := by
  obtain ⟨_, _, _, h⟩ := raiseTo_eq s hcs src w2 w3
  rw [h]
@[simp] theorem raiseTo_tb (s : State) (hcs : List Hc) (src : Nat) (w2 w3 : Word) :
    (raiseTo s hcs src w2 w3).tb = s.tb := by
  obtain ⟨_, _, _, h⟩ := raiseTo_eq s hcs src w2 w3
  rw [h]
@[simp] theorem raiseTo_teus (s : State) (hcs : List Hc) (src : Nat) (w2 w3 : Word) :
    (raiseTo s hcs src w2 w3).teus = s.teus := by
  obtain ⟨_, _, _, h⟩ := raiseTo_eq s hcs src w2 w3
  rw [h]
@[simp] theorem raiseTo_timers (s : State) (hcs : List Hc) (src : Nat) (w2 w3 : Word) :
    (raiseTo s hcs src w2 w3).timers = s.timers := by
  obtain ⟨_, _, _, h⟩ := raiseTo_eq s hcs src w2 w3
  rw [h]
@[simp] theorem raiseTo_ptp (s : State) (hcs : List Hc) (src : Nat) (w2 w3 : Word) :
    (raiseTo s hcs src w2 w3).ptp = s.ptp := by
  obtain ⟨_, _, _, h⟩ := raiseTo_eq s hcs src w2 w3
  rw [h]
@[simp] theorem raiseTo_flashA (s : State) (hcs : List Hc) (src : Nat) (w2 w3 : Word) :
    (raiseTo s hcs src w2 w3).flashA = s.flashA := by
  obtain ⟨_, _, _, h⟩ := raiseTo_eq s hcs src w2 w3
  rw [h]
@[simp] theorem raiseTo_flashB (s : State) (hcs : List Hc) (src : Nat) (w2 w3 : Word) :
    (raiseTo s hcs src w2 w3).flashB = s.flashB := by
  obtain ⟨_, _, _, h⟩ := raiseTo_eq s hcs src w2 w3
  rw [h]
@[simp] theorem raiseTo_update (s : State) (hcs : List Hc) (src : Nat) (w2 w3 : Word) :
    (raiseTo s hcs src w2 w3).update = s.update := by
  obtain ⟨_, _, _, h⟩ := raiseTo_eq s hcs src w2 w3
  rw [h]
@[simp] theorem raiseTo_bb (s : State) (hcs : List Hc) (src : Nat) (w2 w3 : Word) :
    (raiseTo s hcs src w2 w3).bb = s.bb := by
  obtain ⟨_, _, _, h⟩ := raiseTo_eq s hcs src w2 w3
  rw [h]
@[simp] theorem raiseTo_pair (s : State) (hcs : List Hc) (src : Nat) (w2 w3 : Word) :
    (raiseTo s hcs src w2 w3).pair = s.pair := by
  obtain ⟨_, _, _, h⟩ := raiseTo_eq s hcs src w2 w3
  rw [h]
@[simp] theorem raiseTo_pairRole (s : State) (hcs : List Hc) (src : Nat) (w2 w3 : Word) :
    (raiseTo s hcs src w2 w3).pairRole = s.pairRole := by
  obtain ⟨_, _, _, h⟩ := raiseTo_eq s hcs src w2 w3
  rw [h]
@[simp] theorem raiseTo_pending (s : State) (hcs : List Hc) (src : Nat) (w2 w3 : Word) :
    (raiseTo s hcs src w2 w3).pending = s.pending := by
  obtain ⟨_, _, _, h⟩ := raiseTo_eq s hcs src w2 w3
  rw [h]

@[simp] theorem logError_now (s : State) (addr kind consumer : Nat) (syn : BitVec 8) (bank : Nat) :
    (logError s addr kind consumer syn bank).now = s.now := by
  obtain ⟨_, _, _, _, h⟩ := logError_eq s addr kind consumer syn bank
  rw [h]
@[simp] theorem logError_freeCtr (s : State) (addr kind consumer : Nat) (syn : BitVec 8) (bank : Nat) :
    (logError s addr kind consumer syn bank).freeCtr = s.freeCtr := by
  obtain ⟨_, _, _, _, h⟩ := logError_eq s addr kind consumer syn bank
  rw [h]
@[simp] theorem logError_out (s : State) (addr kind consumer : Nat) (syn : BitVec 8) (bank : Nat) :
    (logError s addr kind consumer syn bank).out = s.out := by
  obtain ⟨_, _, _, _, h⟩ := logError_eq s addr kind consumer syn bank
  rw [h]
@[simp] theorem logError_start (s : State) (addr kind consumer : Nat) (syn : BitVec 8) (bank : Nat) :
    (logError s addr kind consumer syn bank).start = s.start := by
  obtain ⟨_, _, _, _, h⟩ := logError_eq s addr kind consumer syn bank
  rw [h]
@[simp] theorem logError_clk (s : State) (addr kind consumer : Nat) (syn : BitVec 8) (bank : Nat) :
    (logError s addr kind consumer syn bank).clk = s.clk := by
  obtain ⟨_, _, _, _, h⟩ := logError_eq s addr kind consumer syn bank
  rw [h]
@[simp] theorem logError_pps (s : State) (addr kind consumer : Nat) (syn : BitVec 8) (bank : Nat) :
    (logError s addr kind consumer syn bank).pps = s.pps := by
  obtain ⟨_, _, _, _, h⟩ := logError_eq s addr kind consumer syn bank
  rw [h]
@[simp] theorem logError_wd (s : State) (addr kind consumer : Nat) (syn : BitVec 8) (bank : Nat) :
    (logError s addr kind consumer syn bank).wd = s.wd := by
  obtain ⟨_, _, _, _, h⟩ := logError_eq s addr kind consumer syn bank
  rw [h]
@[simp] theorem logError_tap (s : State) (addr kind consumer : Nat) (syn : BitVec 8) (bank : Nat) :
    (logError s addr kind consumer syn bank).tap = s.tap := by
  obtain ⟨_, _, _, _, h⟩ := logError_eq s addr kind consumer syn bank
  rw [h]
@[simp] theorem logError_temp (s : State) (addr kind consumer : Nat) (syn : BitVec 8) (bank : Nat) :
    (logError s addr kind consumer syn bank).temp = s.temp := by
  obtain ⟨_, _, _, _, h⟩ := logError_eq s addr kind consumer syn bank
  rw [h]
@[simp] theorem logError_pins (s : State) (addr kind consumer : Nat) (syn : BitVec 8) (bank : Nat) :
    (logError s addr kind consumer syn bank).pins = s.pins := by
  obtain ⟨_, _, _, _, h⟩ := logError_eq s addr kind consumer syn bank
  rw [h]
@[simp] theorem logError_otp (s : State) (addr kind consumer : Nat) (syn : BitVec 8) (bank : Nat) :
    (logError s addr kind consumer syn bank).otp = s.otp := by
  obtain ⟨_, _, _, _, h⟩ := logError_eq s addr kind consumer syn bank
  rw [h]
@[simp] theorem logError_repairs (s : State) (addr kind consumer : Nat) (syn : BitVec 8) (bank : Nat) :
    (logError s addr kind consumer syn bank).repairs = s.repairs := by
  obtain ⟨_, _, _, _, h⟩ := logError_eq s addr kind consumer syn bank
  rw [h]
@[simp] theorem logError_mem (s : State) (addr kind consumer : Nat) (syn : BitVec 8) (bank : Nat) :
    (logError s addr kind consumer syn bank).mem = s.mem := by
  obtain ⟨_, _, _, _, h⟩ := logError_eq s addr kind consumer syn bank
  rw [h]
@[simp] theorem logError_engRegs (s : State) (addr kind consumer : Nat) (syn : BitVec 8) (bank : Nat) :
    (logError s addr kind consumer syn bank).engRegs = s.engRegs := by
  obtain ⟨_, _, _, _, h⟩ := logError_eq s addr kind consumer syn bank
  rw [h]
@[simp] theorem logError_halted (s : State) (addr kind consumer : Nat) (syn : BitVec 8) (bank : Nat) :
    (logError s addr kind consumer syn bank).halted = s.halted := by
  obtain ⟨_, _, _, _, h⟩ := logError_eq s addr kind consumer syn bank
  rw [h]
@[simp] theorem logError_engEpoch (s : State) (addr kind consumer : Nat) (syn : BitVec 8) (bank : Nat) :
    (logError s addr kind consumer syn bank).engEpoch = s.engEpoch := by
  obtain ⟨_, _, _, _, h⟩ := logError_eq s addr kind consumer syn bank
  rw [h]
@[simp] theorem logError_engines (s : State) (addr kind consumer : Nat) (syn : BitVec 8) (bank : Nat) :
    (logError s addr kind consumer syn bank).engines = s.engines := by
  obtain ⟨_, _, _, _, h⟩ := logError_eq s addr kind consumer syn bank
  rw [h]
@[simp] theorem logError_ctxs (s : State) (addr kind consumer : Nat) (syn : BitVec 8) (bank : Nat) :
    (logError s addr kind consumer syn bank).ctxs = s.ctxs := by
  obtain ⟨_, _, _, _, h⟩ := logError_eq s addr kind consumer syn bank
  rw [h]
@[simp] theorem logError_jobId (s : State) (addr kind consumer : Nat) (syn : BitVec 8) (bank : Nat) :
    (logError s addr kind consumer syn bank).jobId = s.jobId := by
  obtain ⟨_, _, _, _, h⟩ := logError_eq s addr kind consumer syn bank
  rw [h]
@[simp] theorem logError_owners (s : State) (addr kind consumer : Nat) (syn : BitVec 8) (bank : Nat) :
    (logError s addr kind consumer syn bank).owners = s.owners := by
  obtain ⟨_, _, _, _, h⟩ := logError_eq s addr kind consumer syn bank
  rw [h]
@[simp] theorem logError_locks (s : State) (addr kind consumer : Nat) (syn : BitVec 8) (bank : Nat) :
    (logError s addr kind consumer syn bank).locks = s.locks := by
  obtain ⟨_, _, _, _, h⟩ := logError_eq s addr kind consumer syn bank
  rw [h]
@[simp] theorem logError_pinRoutes (s : State) (addr kind consumer : Nat) (syn : BitVec 8) (bank : Nat) :
    (logError s addr kind consumer syn bank).pinRoutes = s.pinRoutes := by
  obtain ⟨_, _, _, _, h⟩ := logError_eq s addr kind consumer syn bank
  rw [h]
@[simp] theorem logError_params (s : State) (addr kind consumer : Nat) (syn : BitVec 8) (bank : Nat) :
    (logError s addr kind consumer syn bank).params = s.params := by
  obtain ⟨_, _, _, _, h⟩ := logError_eq s addr kind consumer syn bank
  rw [h]
@[simp] theorem logError_inForce (s : State) (addr kind consumer : Nat) (syn : BitVec 8) (bank : Nat) :
    (logError s addr kind consumer syn bank).inForce = s.inForce := by
  obtain ⟨_, _, _, _, h⟩ := logError_eq s addr kind consumer syn bank
  rw [h]
@[simp] theorem logError_storedAt (s : State) (addr kind consumer : Nat) (syn : BitVec 8) (bank : Nat) :
    (logError s addr kind consumer syn bank).storedAt = s.storedAt := by
  obtain ⟨_, _, _, _, h⟩ := logError_eq s addr kind consumer syn bank
  rw [h]
@[simp] theorem logError_counters (s : State) (addr kind consumer : Nat) (syn : BitVec 8) (bank : Nat) :
    (logError s addr kind consumer syn bank).counters = s.counters := by
  obtain ⟨_, _, _, _, h⟩ := logError_eq s addr kind consumer syn bank
  rw [h]
@[simp] theorem logError_scrub (s : State) (addr kind consumer : Nat) (syn : BitVec 8) (bank : Nat) :
    (logError s addr kind consumer syn bank).scrub = s.scrub := by
  obtain ⟨_, _, _, _, h⟩ := logError_eq s addr kind consumer syn bank
  rw [h]
@[simp] theorem logError_fifos (s : State) (addr kind consumer : Nat) (syn : BitVec 8) (bank : Nat) :
    (logError s addr kind consumer syn bank).fifos = s.fifos := by
  obtain ⟨_, _, _, _, h⟩ := logError_eq s addr kind consumer syn bank
  rw [h]
@[simp] theorem logError_arbs (s : State) (addr kind consumer : Nat) (syn : BitVec 8) (bank : Nat) :
    (logError s addr kind consumer syn bank).arbs = s.arbs := by
  obtain ⟨_, _, _, _, h⟩ := logError_eq s addr kind consumer syn bank
  rw [h]
@[simp] theorem logError_chains (s : State) (addr kind consumer : Nat) (syn : BitVec 8) (bank : Nat) :
    (logError s addr kind consumer syn bank).chains = s.chains := by
  obtain ⟨_, _, _, _, h⟩ := logError_eq s addr kind consumer syn bank
  rw [h]
@[simp] theorem logError_quench (s : State) (addr kind consumer : Nat) (syn : BitVec 8) (bank : Nat) :
    (logError s addr kind consumer syn bank).quench = s.quench := by
  obtain ⟨_, _, _, _, h⟩ := logError_eq s addr kind consumer syn bank
  rw [h]
@[simp] theorem logError_image (s : State) (addr kind consumer : Nat) (syn : BitVec 8) (bank : Nat) :
    (logError s addr kind consumer syn bank).image = s.image := by
  obtain ⟨_, _, _, _, h⟩ := logError_eq s addr kind consumer syn bank
  rw [h]
@[simp] theorem logError_calRuns (s : State) (addr kind consumer : Nat) (syn : BitVec 8) (bank : Nat) :
    (logError s addr kind consumer syn bank).calRuns = s.calRuns := by
  obtain ⟨_, _, _, _, h⟩ := logError_eq s addr kind consumer syn bank
  rw [h]
@[simp] theorem logError_tunes (s : State) (addr kind consumer : Nat) (syn : BitVec 8) (bank : Nat) :
    (logError s addr kind consumer syn bank).tunes = s.tunes := by
  obtain ⟨_, _, _, _, h⟩ := logError_eq s addr kind consumer syn bank
  rw [h]
@[simp] theorem logError_calTail (s : State) (addr kind consumer : Nat) (syn : BitVec 8) (bank : Nat) :
    (logError s addr kind consumer syn bank).calTail = s.calTail := by
  obtain ⟨_, _, _, _, h⟩ := logError_eq s addr kind consumer syn bank
  rw [h]
@[simp] theorem logError_rx (s : State) (addr kind consumer : Nat) (syn : BitVec 8) (bank : Nat) :
    (logError s addr kind consumer syn bank).rx = s.rx := by
  obtain ⟨_, _, _, _, h⟩ := logError_eq s addr kind consumer syn bank
  rw [h]
@[simp] theorem logError_mac (s : State) (addr kind consumer : Nat) (syn : BitVec 8) (bank : Nat) :
    (logError s addr kind consumer syn bank).mac = s.mac := by
  obtain ⟨_, _, _, _, h⟩ := logError_eq s addr kind consumer syn bank
  rw [h]
@[simp] theorem logError_injections (s : State) (addr kind consumer : Nat) (syn : BitVec 8) (bank : Nat) :
    (logError s addr kind consumer syn bank).injections = s.injections := by
  obtain ⟨_, _, _, _, h⟩ := logError_eq s addr kind consumer syn bank
  rw [h]
@[simp] theorem logError_shape (s : State) (addr kind consumer : Nat) (syn : BitVec 8) (bank : Nat) :
    (logError s addr kind consumer syn bank).shape = s.shape := by
  obtain ⟨_, _, _, _, h⟩ := logError_eq s addr kind consumer syn bank
  rw [h]
@[simp] theorem logError_fwds (s : State) (addr kind consumer : Nat) (syn : BitVec 8) (bank : Nat) :
    (logError s addr kind consumer syn bank).fwds = s.fwds := by
  obtain ⟨_, _, _, _, h⟩ := logError_eq s addr kind consumer syn bank
  rw [h]
@[simp] theorem logError_anvil (s : State) (addr kind consumer : Nat) (syn : BitVec 8) (bank : Nat) :
    (logError s addr kind consumer syn bank).anvil = s.anvil := by
  obtain ⟨_, _, _, _, h⟩ := logError_eq s addr kind consumer syn bank
  rw [h]
@[simp] theorem logError_tb (s : State) (addr kind consumer : Nat) (syn : BitVec 8) (bank : Nat) :
    (logError s addr kind consumer syn bank).tb = s.tb := by
  obtain ⟨_, _, _, _, h⟩ := logError_eq s addr kind consumer syn bank
  rw [h]
@[simp] theorem logError_teus (s : State) (addr kind consumer : Nat) (syn : BitVec 8) (bank : Nat) :
    (logError s addr kind consumer syn bank).teus = s.teus := by
  obtain ⟨_, _, _, _, h⟩ := logError_eq s addr kind consumer syn bank
  rw [h]
@[simp] theorem logError_timers (s : State) (addr kind consumer : Nat) (syn : BitVec 8) (bank : Nat) :
    (logError s addr kind consumer syn bank).timers = s.timers := by
  obtain ⟨_, _, _, _, h⟩ := logError_eq s addr kind consumer syn bank
  rw [h]
@[simp] theorem logError_ptp (s : State) (addr kind consumer : Nat) (syn : BitVec 8) (bank : Nat) :
    (logError s addr kind consumer syn bank).ptp = s.ptp := by
  obtain ⟨_, _, _, _, h⟩ := logError_eq s addr kind consumer syn bank
  rw [h]
@[simp] theorem logError_flashA (s : State) (addr kind consumer : Nat) (syn : BitVec 8) (bank : Nat) :
    (logError s addr kind consumer syn bank).flashA = s.flashA := by
  obtain ⟨_, _, _, _, h⟩ := logError_eq s addr kind consumer syn bank
  rw [h]
@[simp] theorem logError_flashB (s : State) (addr kind consumer : Nat) (syn : BitVec 8) (bank : Nat) :
    (logError s addr kind consumer syn bank).flashB = s.flashB := by
  obtain ⟨_, _, _, _, h⟩ := logError_eq s addr kind consumer syn bank
  rw [h]
@[simp] theorem logError_update (s : State) (addr kind consumer : Nat) (syn : BitVec 8) (bank : Nat) :
    (logError s addr kind consumer syn bank).update = s.update := by
  obtain ⟨_, _, _, _, h⟩ := logError_eq s addr kind consumer syn bank
  rw [h]
@[simp] theorem logError_bb (s : State) (addr kind consumer : Nat) (syn : BitVec 8) (bank : Nat) :
    (logError s addr kind consumer syn bank).bb = s.bb := by
  obtain ⟨_, _, _, _, h⟩ := logError_eq s addr kind consumer syn bank
  rw [h]
@[simp] theorem logError_pair (s : State) (addr kind consumer : Nat) (syn : BitVec 8) (bank : Nat) :
    (logError s addr kind consumer syn bank).pair = s.pair := by
  obtain ⟨_, _, _, _, h⟩ := logError_eq s addr kind consumer syn bank
  rw [h]
@[simp] theorem logError_pairRole (s : State) (addr kind consumer : Nat) (syn : BitVec 8) (bank : Nat) :
    (logError s addr kind consumer syn bank).pairRole = s.pairRole := by
  obtain ⟨_, _, _, _, h⟩ := logError_eq s addr kind consumer syn bank
  rw [h]
@[simp] theorem logError_pending (s : State) (addr kind consumer : Nat) (syn : BitVec 8) (bank : Nat) :
    (logError s addr kind consumer syn bank).pending = s.pending := by
  obtain ⟨_, _, _, _, h⟩ := logError_eq s addr kind consumer syn bank
  rw [h]

@[simp] theorem readWord_now (s : State) (a code : Nat) :
    ((readWord s a code).1).now = s.now := by
  obtain ⟨_, _, _, _, _, _, h⟩ := readWord_eq s a code
  rw [h]
@[simp] theorem readWord_freeCtr (s : State) (a code : Nat) :
    ((readWord s a code).1).freeCtr = s.freeCtr := by
  obtain ⟨_, _, _, _, _, _, h⟩ := readWord_eq s a code
  rw [h]
@[simp] theorem readWord_out (s : State) (a code : Nat) :
    ((readWord s a code).1).out = s.out := by
  obtain ⟨_, _, _, _, _, _, h⟩ := readWord_eq s a code
  rw [h]
@[simp] theorem readWord_start (s : State) (a code : Nat) :
    ((readWord s a code).1).start = s.start := by
  obtain ⟨_, _, _, _, _, _, h⟩ := readWord_eq s a code
  rw [h]
@[simp] theorem readWord_clk (s : State) (a code : Nat) :
    ((readWord s a code).1).clk = s.clk := by
  obtain ⟨_, _, _, _, _, _, h⟩ := readWord_eq s a code
  rw [h]
@[simp] theorem readWord_pps (s : State) (a code : Nat) :
    ((readWord s a code).1).pps = s.pps := by
  obtain ⟨_, _, _, _, _, _, h⟩ := readWord_eq s a code
  rw [h]
@[simp] theorem readWord_wd (s : State) (a code : Nat) :
    ((readWord s a code).1).wd = s.wd := by
  obtain ⟨_, _, _, _, _, _, h⟩ := readWord_eq s a code
  rw [h]
@[simp] theorem readWord_tap (s : State) (a code : Nat) :
    ((readWord s a code).1).tap = s.tap := by
  obtain ⟨_, _, _, _, _, _, h⟩ := readWord_eq s a code
  rw [h]
@[simp] theorem readWord_temp (s : State) (a code : Nat) :
    ((readWord s a code).1).temp = s.temp := by
  obtain ⟨_, _, _, _, _, _, h⟩ := readWord_eq s a code
  rw [h]
@[simp] theorem readWord_pins (s : State) (a code : Nat) :
    ((readWord s a code).1).pins = s.pins := by
  obtain ⟨_, _, _, _, _, _, h⟩ := readWord_eq s a code
  rw [h]
@[simp] theorem readWord_otp (s : State) (a code : Nat) :
    ((readWord s a code).1).otp = s.otp := by
  obtain ⟨_, _, _, _, _, _, h⟩ := readWord_eq s a code
  rw [h]
@[simp] theorem readWord_repairs (s : State) (a code : Nat) :
    ((readWord s a code).1).repairs = s.repairs := by
  obtain ⟨_, _, _, _, _, _, h⟩ := readWord_eq s a code
  rw [h]
@[simp] theorem readWord_engRegs (s : State) (a code : Nat) :
    ((readWord s a code).1).engRegs = s.engRegs := by
  obtain ⟨_, _, _, _, _, _, h⟩ := readWord_eq s a code
  rw [h]
@[simp] theorem readWord_halted (s : State) (a code : Nat) :
    ((readWord s a code).1).halted = s.halted := by
  obtain ⟨_, _, _, _, _, _, h⟩ := readWord_eq s a code
  rw [h]
@[simp] theorem readWord_engEpoch (s : State) (a code : Nat) :
    ((readWord s a code).1).engEpoch = s.engEpoch := by
  obtain ⟨_, _, _, _, _, _, h⟩ := readWord_eq s a code
  rw [h]
@[simp] theorem readWord_engines (s : State) (a code : Nat) :
    ((readWord s a code).1).engines = s.engines := by
  obtain ⟨_, _, _, _, _, _, h⟩ := readWord_eq s a code
  rw [h]
@[simp] theorem readWord_ctxs (s : State) (a code : Nat) :
    ((readWord s a code).1).ctxs = s.ctxs := by
  obtain ⟨_, _, _, _, _, _, h⟩ := readWord_eq s a code
  rw [h]
@[simp] theorem readWord_jobId (s : State) (a code : Nat) :
    ((readWord s a code).1).jobId = s.jobId := by
  obtain ⟨_, _, _, _, _, _, h⟩ := readWord_eq s a code
  rw [h]
@[simp] theorem readWord_owners (s : State) (a code : Nat) :
    ((readWord s a code).1).owners = s.owners := by
  obtain ⟨_, _, _, _, _, _, h⟩ := readWord_eq s a code
  rw [h]
@[simp] theorem readWord_locks (s : State) (a code : Nat) :
    ((readWord s a code).1).locks = s.locks := by
  obtain ⟨_, _, _, _, _, _, h⟩ := readWord_eq s a code
  rw [h]
@[simp] theorem readWord_pinRoutes (s : State) (a code : Nat) :
    ((readWord s a code).1).pinRoutes = s.pinRoutes := by
  obtain ⟨_, _, _, _, _, _, h⟩ := readWord_eq s a code
  rw [h]
@[simp] theorem readWord_params (s : State) (a code : Nat) :
    ((readWord s a code).1).params = s.params := by
  obtain ⟨_, _, _, _, _, _, h⟩ := readWord_eq s a code
  rw [h]
@[simp] theorem readWord_inForce (s : State) (a code : Nat) :
    ((readWord s a code).1).inForce = s.inForce := by
  obtain ⟨_, _, _, _, _, _, h⟩ := readWord_eq s a code
  rw [h]
@[simp] theorem readWord_storedAt (s : State) (a code : Nat) :
    ((readWord s a code).1).storedAt = s.storedAt := by
  obtain ⟨_, _, _, _, _, _, h⟩ := readWord_eq s a code
  rw [h]
@[simp] theorem readWord_scrub (s : State) (a code : Nat) :
    ((readWord s a code).1).scrub = s.scrub := by
  obtain ⟨_, _, _, _, _, _, h⟩ := readWord_eq s a code
  rw [h]
@[simp] theorem readWord_fifos (s : State) (a code : Nat) :
    ((readWord s a code).1).fifos = s.fifos := by
  obtain ⟨_, _, _, _, _, _, h⟩ := readWord_eq s a code
  rw [h]
@[simp] theorem readWord_arbs (s : State) (a code : Nat) :
    ((readWord s a code).1).arbs = s.arbs := by
  obtain ⟨_, _, _, _, _, _, h⟩ := readWord_eq s a code
  rw [h]
@[simp] theorem readWord_chains (s : State) (a code : Nat) :
    ((readWord s a code).1).chains = s.chains := by
  obtain ⟨_, _, _, _, _, _, h⟩ := readWord_eq s a code
  rw [h]
@[simp] theorem readWord_quench (s : State) (a code : Nat) :
    ((readWord s a code).1).quench = s.quench := by
  obtain ⟨_, _, _, _, _, _, h⟩ := readWord_eq s a code
  rw [h]
@[simp] theorem readWord_image (s : State) (a code : Nat) :
    ((readWord s a code).1).image = s.image := by
  obtain ⟨_, _, _, _, _, _, h⟩ := readWord_eq s a code
  rw [h]
@[simp] theorem readWord_calRuns (s : State) (a code : Nat) :
    ((readWord s a code).1).calRuns = s.calRuns := by
  obtain ⟨_, _, _, _, _, _, h⟩ := readWord_eq s a code
  rw [h]
@[simp] theorem readWord_tunes (s : State) (a code : Nat) :
    ((readWord s a code).1).tunes = s.tunes := by
  obtain ⟨_, _, _, _, _, _, h⟩ := readWord_eq s a code
  rw [h]
@[simp] theorem readWord_calTail (s : State) (a code : Nat) :
    ((readWord s a code).1).calTail = s.calTail := by
  obtain ⟨_, _, _, _, _, _, h⟩ := readWord_eq s a code
  rw [h]
@[simp] theorem readWord_rx (s : State) (a code : Nat) :
    ((readWord s a code).1).rx = s.rx := by
  obtain ⟨_, _, _, _, _, _, h⟩ := readWord_eq s a code
  rw [h]
@[simp] theorem readWord_mac (s : State) (a code : Nat) :
    ((readWord s a code).1).mac = s.mac := by
  obtain ⟨_, _, _, _, _, _, h⟩ := readWord_eq s a code
  rw [h]
@[simp] theorem readWord_injections (s : State) (a code : Nat) :
    ((readWord s a code).1).injections = s.injections := by
  obtain ⟨_, _, _, _, _, _, h⟩ := readWord_eq s a code
  rw [h]
@[simp] theorem readWord_shape (s : State) (a code : Nat) :
    ((readWord s a code).1).shape = s.shape := by
  obtain ⟨_, _, _, _, _, _, h⟩ := readWord_eq s a code
  rw [h]
@[simp] theorem readWord_fwds (s : State) (a code : Nat) :
    ((readWord s a code).1).fwds = s.fwds := by
  obtain ⟨_, _, _, _, _, _, h⟩ := readWord_eq s a code
  rw [h]
@[simp] theorem readWord_anvil (s : State) (a code : Nat) :
    ((readWord s a code).1).anvil = s.anvil := by
  obtain ⟨_, _, _, _, _, _, h⟩ := readWord_eq s a code
  rw [h]
@[simp] theorem readWord_tb (s : State) (a code : Nat) :
    ((readWord s a code).1).tb = s.tb := by
  obtain ⟨_, _, _, _, _, _, h⟩ := readWord_eq s a code
  rw [h]
@[simp] theorem readWord_teus (s : State) (a code : Nat) :
    ((readWord s a code).1).teus = s.teus := by
  obtain ⟨_, _, _, _, _, _, h⟩ := readWord_eq s a code
  rw [h]
@[simp] theorem readWord_timers (s : State) (a code : Nat) :
    ((readWord s a code).1).timers = s.timers := by
  obtain ⟨_, _, _, _, _, _, h⟩ := readWord_eq s a code
  rw [h]
@[simp] theorem readWord_ptp (s : State) (a code : Nat) :
    ((readWord s a code).1).ptp = s.ptp := by
  obtain ⟨_, _, _, _, _, _, h⟩ := readWord_eq s a code
  rw [h]
@[simp] theorem readWord_flashA (s : State) (a code : Nat) :
    ((readWord s a code).1).flashA = s.flashA := by
  obtain ⟨_, _, _, _, _, _, h⟩ := readWord_eq s a code
  rw [h]
@[simp] theorem readWord_flashB (s : State) (a code : Nat) :
    ((readWord s a code).1).flashB = s.flashB := by
  obtain ⟨_, _, _, _, _, _, h⟩ := readWord_eq s a code
  rw [h]
@[simp] theorem readWord_update (s : State) (a code : Nat) :
    ((readWord s a code).1).update = s.update := by
  obtain ⟨_, _, _, _, _, _, h⟩ := readWord_eq s a code
  rw [h]
@[simp] theorem readWord_bb (s : State) (a code : Nat) :
    ((readWord s a code).1).bb = s.bb := by
  obtain ⟨_, _, _, _, _, _, h⟩ := readWord_eq s a code
  rw [h]
@[simp] theorem readWord_pair (s : State) (a code : Nat) :
    ((readWord s a code).1).pair = s.pair := by
  obtain ⟨_, _, _, _, _, _, h⟩ := readWord_eq s a code
  rw [h]
@[simp] theorem readWord_pairRole (s : State) (a code : Nat) :
    ((readWord s a code).1).pairRole = s.pairRole := by
  obtain ⟨_, _, _, _, _, _, h⟩ := readWord_eq s a code
  rw [h]
@[simp] theorem readWord_pending (s : State) (a code : Nat) :
    ((readWord s a code).1).pending = s.pending := by
  obtain ⟨_, _, _, _, _, _, h⟩ := readWord_eq s a code
  rw [h]

@[simp] theorem completeAs_now (s : State) (hc : Hc) (op : Nat) (w : Word) (st : Status) (ws : List Word) :
    (completeAs s hc op w st ws).now = s.now := by
  obtain ⟨_, _, _, h⟩ := completeAs_eq s hc op w st ws
  rw [h]
@[simp] theorem completeAs_freeCtr (s : State) (hc : Hc) (op : Nat) (w : Word) (st : Status) (ws : List Word) :
    (completeAs s hc op w st ws).freeCtr = s.freeCtr := by
  obtain ⟨_, _, _, h⟩ := completeAs_eq s hc op w st ws
  rw [h]
@[simp] theorem completeAs_start (s : State) (hc : Hc) (op : Nat) (w : Word) (st : Status) (ws : List Word) :
    (completeAs s hc op w st ws).start = s.start := by
  obtain ⟨_, _, _, h⟩ := completeAs_eq s hc op w st ws
  rw [h]
@[simp] theorem completeAs_clk (s : State) (hc : Hc) (op : Nat) (w : Word) (st : Status) (ws : List Word) :
    (completeAs s hc op w st ws).clk = s.clk := by
  obtain ⟨_, _, _, h⟩ := completeAs_eq s hc op w st ws
  rw [h]
@[simp] theorem completeAs_pps (s : State) (hc : Hc) (op : Nat) (w : Word) (st : Status) (ws : List Word) :
    (completeAs s hc op w st ws).pps = s.pps := by
  obtain ⟨_, _, _, h⟩ := completeAs_eq s hc op w st ws
  rw [h]
@[simp] theorem completeAs_wd (s : State) (hc : Hc) (op : Nat) (w : Word) (st : Status) (ws : List Word) :
    (completeAs s hc op w st ws).wd = s.wd := by
  obtain ⟨_, _, _, h⟩ := completeAs_eq s hc op w st ws
  rw [h]
@[simp] theorem completeAs_tap (s : State) (hc : Hc) (op : Nat) (w : Word) (st : Status) (ws : List Word) :
    (completeAs s hc op w st ws).tap = s.tap := by
  obtain ⟨_, _, _, h⟩ := completeAs_eq s hc op w st ws
  rw [h]
@[simp] theorem completeAs_temp (s : State) (hc : Hc) (op : Nat) (w : Word) (st : Status) (ws : List Word) :
    (completeAs s hc op w st ws).temp = s.temp := by
  obtain ⟨_, _, _, h⟩ := completeAs_eq s hc op w st ws
  rw [h]
@[simp] theorem completeAs_pins (s : State) (hc : Hc) (op : Nat) (w : Word) (st : Status) (ws : List Word) :
    (completeAs s hc op w st ws).pins = s.pins := by
  obtain ⟨_, _, _, h⟩ := completeAs_eq s hc op w st ws
  rw [h]
@[simp] theorem completeAs_otp (s : State) (hc : Hc) (op : Nat) (w : Word) (st : Status) (ws : List Word) :
    (completeAs s hc op w st ws).otp = s.otp := by
  obtain ⟨_, _, _, h⟩ := completeAs_eq s hc op w st ws
  rw [h]
@[simp] theorem completeAs_repairs (s : State) (hc : Hc) (op : Nat) (w : Word) (st : Status) (ws : List Word) :
    (completeAs s hc op w st ws).repairs = s.repairs := by
  obtain ⟨_, _, _, h⟩ := completeAs_eq s hc op w st ws
  rw [h]
@[simp] theorem completeAs_engRegs (s : State) (hc : Hc) (op : Nat) (w : Word) (st : Status) (ws : List Word) :
    (completeAs s hc op w st ws).engRegs = s.engRegs := by
  obtain ⟨_, _, _, h⟩ := completeAs_eq s hc op w st ws
  rw [h]
@[simp] theorem completeAs_halted (s : State) (hc : Hc) (op : Nat) (w : Word) (st : Status) (ws : List Word) :
    (completeAs s hc op w st ws).halted = s.halted := by
  obtain ⟨_, _, _, h⟩ := completeAs_eq s hc op w st ws
  rw [h]
@[simp] theorem completeAs_engEpoch (s : State) (hc : Hc) (op : Nat) (w : Word) (st : Status) (ws : List Word) :
    (completeAs s hc op w st ws).engEpoch = s.engEpoch := by
  obtain ⟨_, _, _, h⟩ := completeAs_eq s hc op w st ws
  rw [h]
@[simp] theorem completeAs_engines (s : State) (hc : Hc) (op : Nat) (w : Word) (st : Status) (ws : List Word) :
    (completeAs s hc op w st ws).engines = s.engines := by
  obtain ⟨_, _, _, h⟩ := completeAs_eq s hc op w st ws
  rw [h]
@[simp] theorem completeAs_jobId (s : State) (hc : Hc) (op : Nat) (w : Word) (st : Status) (ws : List Word) :
    (completeAs s hc op w st ws).jobId = s.jobId := by
  obtain ⟨_, _, _, h⟩ := completeAs_eq s hc op w st ws
  rw [h]
@[simp] theorem completeAs_owners (s : State) (hc : Hc) (op : Nat) (w : Word) (st : Status) (ws : List Word) :
    (completeAs s hc op w st ws).owners = s.owners := by
  obtain ⟨_, _, _, h⟩ := completeAs_eq s hc op w st ws
  rw [h]
@[simp] theorem completeAs_locks (s : State) (hc : Hc) (op : Nat) (w : Word) (st : Status) (ws : List Word) :
    (completeAs s hc op w st ws).locks = s.locks := by
  obtain ⟨_, _, _, h⟩ := completeAs_eq s hc op w st ws
  rw [h]
@[simp] theorem completeAs_routes (s : State) (hc : Hc) (op : Nat) (w : Word) (st : Status) (ws : List Word) :
    (completeAs s hc op w st ws).routes = s.routes := by
  obtain ⟨_, _, _, h⟩ := completeAs_eq s hc op w st ws
  rw [h]
@[simp] theorem completeAs_pinRoutes (s : State) (hc : Hc) (op : Nat) (w : Word) (st : Status) (ws : List Word) :
    (completeAs s hc op w st ws).pinRoutes = s.pinRoutes := by
  obtain ⟨_, _, _, h⟩ := completeAs_eq s hc op w st ws
  rw [h]
@[simp] theorem completeAs_latches (s : State) (hc : Hc) (op : Nat) (w : Word) (st : Status) (ws : List Word) :
    (completeAs s hc op w st ws).latches = s.latches := by
  obtain ⟨_, _, _, h⟩ := completeAs_eq s hc op w st ws
  rw [h]
@[simp] theorem completeAs_evOut (s : State) (hc : Hc) (op : Nat) (w : Word) (st : Status) (ws : List Word) :
    (completeAs s hc op w st ws).evOut = s.evOut := by
  obtain ⟨_, _, _, h⟩ := completeAs_eq s hc op w st ws
  rw [h]
@[simp] theorem completeAs_params (s : State) (hc : Hc) (op : Nat) (w : Word) (st : Status) (ws : List Word) :
    (completeAs s hc op w st ws).params = s.params := by
  obtain ⟨_, _, _, h⟩ := completeAs_eq s hc op w st ws
  rw [h]
@[simp] theorem completeAs_inForce (s : State) (hc : Hc) (op : Nat) (w : Word) (st : Status) (ws : List Word) :
    (completeAs s hc op w st ws).inForce = s.inForce := by
  obtain ⟨_, _, _, h⟩ := completeAs_eq s hc op w st ws
  rw [h]
@[simp] theorem completeAs_storedAt (s : State) (hc : Hc) (op : Nat) (w : Word) (st : Status) (ws : List Word) :
    (completeAs s hc op w st ws).storedAt = s.storedAt := by
  obtain ⟨_, _, _, h⟩ := completeAs_eq s hc op w st ws
  rw [h]
@[simp] theorem completeAs_counters (s : State) (hc : Hc) (op : Nat) (w : Word) (st : Status) (ws : List Word) :
    (completeAs s hc op w st ws).counters = s.counters := by
  obtain ⟨_, _, _, h⟩ := completeAs_eq s hc op w st ws
  rw [h]
@[simp] theorem completeAs_scrub (s : State) (hc : Hc) (op : Nat) (w : Word) (st : Status) (ws : List Word) :
    (completeAs s hc op w st ws).scrub = s.scrub := by
  obtain ⟨_, _, _, h⟩ := completeAs_eq s hc op w st ws
  rw [h]
@[simp] theorem completeAs_errLog (s : State) (hc : Hc) (op : Nat) (w : Word) (st : Status) (ws : List Word) :
    (completeAs s hc op w st ws).errLog = s.errLog := by
  obtain ⟨_, _, _, h⟩ := completeAs_eq s hc op w st ws
  rw [h]
@[simp] theorem completeAs_fifos (s : State) (hc : Hc) (op : Nat) (w : Word) (st : Status) (ws : List Word) :
    (completeAs s hc op w st ws).fifos = s.fifos := by
  obtain ⟨_, _, _, h⟩ := completeAs_eq s hc op w st ws
  rw [h]
@[simp] theorem completeAs_arbs (s : State) (hc : Hc) (op : Nat) (w : Word) (st : Status) (ws : List Word) :
    (completeAs s hc op w st ws).arbs = s.arbs := by
  obtain ⟨_, _, _, h⟩ := completeAs_eq s hc op w st ws
  rw [h]
@[simp] theorem completeAs_chains (s : State) (hc : Hc) (op : Nat) (w : Word) (st : Status) (ws : List Word) :
    (completeAs s hc op w st ws).chains = s.chains := by
  obtain ⟨_, _, _, h⟩ := completeAs_eq s hc op w st ws
  rw [h]
@[simp] theorem completeAs_quench (s : State) (hc : Hc) (op : Nat) (w : Word) (st : Status) (ws : List Word) :
    (completeAs s hc op w st ws).quench = s.quench := by
  obtain ⟨_, _, _, h⟩ := completeAs_eq s hc op w st ws
  rw [h]
@[simp] theorem completeAs_image (s : State) (hc : Hc) (op : Nat) (w : Word) (st : Status) (ws : List Word) :
    (completeAs s hc op w st ws).image = s.image := by
  obtain ⟨_, _, _, h⟩ := completeAs_eq s hc op w st ws
  rw [h]
@[simp] theorem completeAs_calRuns (s : State) (hc : Hc) (op : Nat) (w : Word) (st : Status) (ws : List Word) :
    (completeAs s hc op w st ws).calRuns = s.calRuns := by
  obtain ⟨_, _, _, h⟩ := completeAs_eq s hc op w st ws
  rw [h]
@[simp] theorem completeAs_tunes (s : State) (hc : Hc) (op : Nat) (w : Word) (st : Status) (ws : List Word) :
    (completeAs s hc op w st ws).tunes = s.tunes := by
  obtain ⟨_, _, _, h⟩ := completeAs_eq s hc op w st ws
  rw [h]
@[simp] theorem completeAs_calTail (s : State) (hc : Hc) (op : Nat) (w : Word) (st : Status) (ws : List Word) :
    (completeAs s hc op w st ws).calTail = s.calTail := by
  obtain ⟨_, _, _, h⟩ := completeAs_eq s hc op w st ws
  rw [h]
@[simp] theorem completeAs_rx (s : State) (hc : Hc) (op : Nat) (w : Word) (st : Status) (ws : List Word) :
    (completeAs s hc op w st ws).rx = s.rx := by
  obtain ⟨_, _, _, h⟩ := completeAs_eq s hc op w st ws
  rw [h]
@[simp] theorem completeAs_mac (s : State) (hc : Hc) (op : Nat) (w : Word) (st : Status) (ws : List Word) :
    (completeAs s hc op w st ws).mac = s.mac := by
  obtain ⟨_, _, _, h⟩ := completeAs_eq s hc op w st ws
  rw [h]
@[simp] theorem completeAs_injections (s : State) (hc : Hc) (op : Nat) (w : Word) (st : Status) (ws : List Word) :
    (completeAs s hc op w st ws).injections = s.injections := by
  obtain ⟨_, _, _, h⟩ := completeAs_eq s hc op w st ws
  rw [h]
@[simp] theorem completeAs_shape (s : State) (hc : Hc) (op : Nat) (w : Word) (st : Status) (ws : List Word) :
    (completeAs s hc op w st ws).shape = s.shape := by
  obtain ⟨_, _, _, h⟩ := completeAs_eq s hc op w st ws
  rw [h]
@[simp] theorem completeAs_fwds (s : State) (hc : Hc) (op : Nat) (w : Word) (st : Status) (ws : List Word) :
    (completeAs s hc op w st ws).fwds = s.fwds := by
  obtain ⟨_, _, _, h⟩ := completeAs_eq s hc op w st ws
  rw [h]
@[simp] theorem completeAs_anvil (s : State) (hc : Hc) (op : Nat) (w : Word) (st : Status) (ws : List Word) :
    (completeAs s hc op w st ws).anvil = s.anvil := by
  obtain ⟨_, _, _, h⟩ := completeAs_eq s hc op w st ws
  rw [h]
@[simp] theorem completeAs_tb (s : State) (hc : Hc) (op : Nat) (w : Word) (st : Status) (ws : List Word) :
    (completeAs s hc op w st ws).tb = s.tb := by
  obtain ⟨_, _, _, h⟩ := completeAs_eq s hc op w st ws
  rw [h]
@[simp] theorem completeAs_teus (s : State) (hc : Hc) (op : Nat) (w : Word) (st : Status) (ws : List Word) :
    (completeAs s hc op w st ws).teus = s.teus := by
  obtain ⟨_, _, _, h⟩ := completeAs_eq s hc op w st ws
  rw [h]
@[simp] theorem completeAs_timers (s : State) (hc : Hc) (op : Nat) (w : Word) (st : Status) (ws : List Word) :
    (completeAs s hc op w st ws).timers = s.timers := by
  obtain ⟨_, _, _, h⟩ := completeAs_eq s hc op w st ws
  rw [h]
@[simp] theorem completeAs_ptp (s : State) (hc : Hc) (op : Nat) (w : Word) (st : Status) (ws : List Word) :
    (completeAs s hc op w st ws).ptp = s.ptp := by
  obtain ⟨_, _, _, h⟩ := completeAs_eq s hc op w st ws
  rw [h]
@[simp] theorem completeAs_flashA (s : State) (hc : Hc) (op : Nat) (w : Word) (st : Status) (ws : List Word) :
    (completeAs s hc op w st ws).flashA = s.flashA := by
  obtain ⟨_, _, _, h⟩ := completeAs_eq s hc op w st ws
  rw [h]
@[simp] theorem completeAs_flashB (s : State) (hc : Hc) (op : Nat) (w : Word) (st : Status) (ws : List Word) :
    (completeAs s hc op w st ws).flashB = s.flashB := by
  obtain ⟨_, _, _, h⟩ := completeAs_eq s hc op w st ws
  rw [h]
@[simp] theorem completeAs_update (s : State) (hc : Hc) (op : Nat) (w : Word) (st : Status) (ws : List Word) :
    (completeAs s hc op w st ws).update = s.update := by
  obtain ⟨_, _, _, h⟩ := completeAs_eq s hc op w st ws
  rw [h]
@[simp] theorem completeAs_bb (s : State) (hc : Hc) (op : Nat) (w : Word) (st : Status) (ws : List Word) :
    (completeAs s hc op w st ws).bb = s.bb := by
  obtain ⟨_, _, _, h⟩ := completeAs_eq s hc op w st ws
  rw [h]
@[simp] theorem completeAs_pair (s : State) (hc : Hc) (op : Nat) (w : Word) (st : Status) (ws : List Word) :
    (completeAs s hc op w st ws).pair = s.pair := by
  obtain ⟨_, _, _, h⟩ := completeAs_eq s hc op w st ws
  rw [h]
@[simp] theorem completeAs_pairRole (s : State) (hc : Hc) (op : Nat) (w : Word) (st : Status) (ws : List Word) :
    (completeAs s hc op w st ws).pairRole = s.pairRole := by
  obtain ⟨_, _, _, h⟩ := completeAs_eq s hc op w st ws
  rw [h]
@[simp] theorem completeAs_pending (s : State) (hc : Hc) (op : Nat) (w : Word) (st : Status) (ws : List Word) :
    (completeAs s hc op w st ws).pending = s.pending := by
  obtain ⟨_, _, _, h⟩ := completeAs_eq s hc op w st ws
  rw [h]

/-! ### Rows of the running firmware, and commands -/

/-- A row of the running firmware has its effect while firmware runs, and only lets time pass otherwise. -/
theorem live_ready (dt : Nat) (s : State) (f : State → State) (h : running s = true) : live dt s f = .next (f (advance dt s)) := by
  have h' : running (advance dt s) = true := h
  simp [live, h']

theorem live_not_ready (dt : Nat) (s : State) (f : State → State) (h : running s = false) : live dt s f = .next (advance dt s) := by
  have h' : running (advance dt s) = false := h
  simp [live, h']

/-- The effect of a command on a consumed packet is its row's body. -/
theorem command_packet (dt : Nat) (hc : Hc) (op least most : Nat) (s t : State) (p : Packet) (body : Packet → State → CmdOut)
    (h : takePacket dt hc op least most s = .packet p t) :
    command dt hc op least most s body = match body p t with
      | .done u st ws => .next (completeAs u hc op p.hdr st ws)
      | .silent u => .next u
      | .undef n => .fault (.undefinedHostAction n)
      | .work u w => .next (record u hc { id := p.id, tag := BitVec.ofNat 16 (fld p.hdr 27 12), opcode := BitVec.ofNat 12 op,
                                          room := 1 + most, notify := p.hdr.getLsbD 40, payload := p.payload, work := w }) := by
  cases hb : body p t <;> simp [command, h, hb]

/-- A packet that is not taken: the interpreter's own answer. -/
theorem command_settled (dt : Nat) (hc : Hc) (op least most : Nat) (s t : State) (body : Packet → State → CmdOut)
    (h : takePacket dt hc op least most s = .settled t) : command dt hc op least most s body = .next t := by
  unfold command
  rw [h]

/-- Time running on does not change what a parameter reads. -/
@[simp] theorem par_advance (dt : Nat) (s : State) (id : Nat) : par (advance dt s) id = par s id := rfl
@[simp] theorem running_advance (dt : Nat) (s : State) : running (advance dt s) = running s := rfl

end Sys2Proof.Machine
end

