-- ==== Sys2Proof/Laws/Commands.lean ====
section
/-!
SUPPORT. What the interpreter's shared operations can do: consuming a packet, recording and finishing a command,
locks and leases.
-/

namespace Sys2Proof.Machine

/-- Recording a command touches the context alone: its journal gains the record, its room is reserved (R114, R136). -/
theorem record_eq (s : State) (hc : Hc) (r : JRec) : ∃ c, record s hc r = { s with ctxs := c } := ⟨_, rfl⟩

/-- The record as the journal keeps it: with the word and the space it takes (R136). -/
theorem record_journal (s : State) (hc : Hc) (r : JRec) : (ctx (record s hc r) hc).journal =
    (ctx s hc).journal ++ [{ r with slot := freeSlot (ctx s hc), space := freeSpace (ctx s hc) r.room }] := by
  simp [record]

theorem record_reserved (s : State) (hc : Hc) (r : JRec) :
    (ctx (record s hc r) hc).cqReserved = (ctx s hc).cqReserved + r.room := by
  simp [record]

/-- Finishing a command touches the context's journal and the memory. -/
theorem finishJob_eq (s : State) (hc : Hc) (id : Nat) (st : Status) (ws : List Word) (air : Bool) :
    ∃ m c, finishJob s hc id st ws air = { s with mem := m, ctxs := c } := by
  unfold finishJob
  dsimp only
  split
  · rw [putRecord_eq, putResult_eq]
    exact ⟨_, _, rfl⟩
  · exact ⟨_, _, rfl⟩

/-- A finished command's record is DONE with its status, words and AIR bit (R136). -/
theorem finishJob_done (s : State) (hc : Hc) (id : Nat) (st : Status) (ws : List Word) (air : Bool) (r : JRec)
    (h : r ∈ (ctx (finishJob s hc id st ws air) hc).journal) (hid : r.id = id) :
    r.done = true ∧ r.status = st ∧ r.result = ws ∧ r.air = air := by
  simp only [finishJob, ctx_setCtx_self, List.mem_map] at h
  obtain ⟨x, _, rfl⟩ := h
  split at hid
  · rename_i e
    simp [e]
  · rename_i e
    exact absurd hid e

/-- Copying a completion touches memory, the context and what leaves the device. -/
theorem copyDone_eq (s : State) (hc : Hc) (r : JRec) (restart : Bool) :
    ∃ m c o, copyDone s hc r restart = { s with mem := m, ctxs := c, out := o } := by
  unfold copyDone
  obtain ⟨_, _, _, h⟩ := complete_eq _ hc r.opcode r.tag r.notify r.status r.result restart r.air
  dsimp only
  rw [h, putRecord_eq]
  exact ⟨_, _, _, rfl⟩

/-- Renewing a lease touches the locks alone (R128). -/
theorem renew_eq (hc : Hc) (s : State) (g : Nat) : ∃ l, renew hc s g = { s with locks := l } := by
  unfold renew
  split
  · split <;> exact ⟨_, rfl⟩
  · exact ⟨_, rfl⟩

/-- Breaking a context's locks touches the locks, the context and the events on their way (R130). -/
theorem breakLocks_eq (s : State) (hc : Hc) (cause : Nat) :
    ∃ k c e r l, breakLocks s hc cause = { s with locks := k, ctxs := c, evOut := e, routes := r, latches := l } := by
  unfold breakLocks
  dsimp only
  split
  · exact ⟨_, _, _, _, _, rfl⟩
  · obtain ⟨_, _, _, h⟩ := raiseTo_eq _ (allHc.filter (· != hc)) 1 (at' 0 hc.val ||| at' 2 cause)
      (BitVec.ofNat 72 (groupsHeld s hc))
    rw [h]
    exact ⟨_, _, _, _, _, rfl⟩

/-- Reading a packet's payload touches what consumer reads touch. -/
theorem readPayload_eq (hc : Hc) (n i : Nat) (s : State) : ∃ m c g e r l, (readPayload hc n i s).1 =
    { s with mem := m, counters := c, errLog := g, evOut := e, routes := r, latches := l } := by
  induction n generalizing i s with
  | zero => exact ⟨_, _, _, _, _, _, rfl⟩
  | succ n ih =>
    obtain ⟨_, _, _, _, _, _, h1⟩ := readWordX_eq s (ringBase hc + i % 1024) 11 (sqExtra hc (i % 1024))
    unfold readPayload
    split
    · rename_i e
      rw [e] at h1
      exact ⟨_, _, _, _, _, _, h1⟩
    · rename_i e
      rw [e] at h1
      obtain ⟨_, _, _, _, _, _, h2⟩ := ih (i + 1) _
      dsimp only at h1
      split
      · rename_i e2
        rw [e2, h1] at h2
        exact ⟨_, _, _, _, _, _, h2⟩
      · rename_i e2
        rw [e2, h1] at h2
        exact ⟨_, _, _, _, _, _, h2⟩

/-- Taking a packet touches what consumer reads touch, the context and the number of the next record. -/
theorem takePacket_eq {dt : Nat} {hc : Hc} {op least most : Nat} {s u : State} {p : Packet}
    (h : takePacket dt hc op least most s = .packet p u) : ∃ m x c g e r l j, u =
      { advance dt s with mem := m, ctxs := x, counters := c, errLog := g, evOut := e, routes := r, latches := l, jobId := j } := by
  unfold takePacket at h
  dsimp only at h
  obtain ⟨_, _, _, _, _, _, h1⟩ := readWord_eq (advance dt s)
    (ringBase hc + (ctx (advance dt s) hc).sqHead.toNat % 1024) 11
  repeat' (split at h)
  all_goals try cases h
  all_goals
    rename_i e
    have h2 := readPayload_eq hc (fld ((readWord (advance dt s) (ringBase hc + (ctx (advance dt s) hc).sqHead.toNat % 1024) 11).2.getD 0) 37 28)
      ((ctx (advance dt s) hc).sqHead.toNat + 1)
      (consume (readWord (advance dt s) (ringBase hc + (ctx (advance dt s) hc).sqHead.toNat % 1024) 11).1 hc
        ((readWord (advance dt s) (ringBase hc + (ctx (advance dt s) hc).sqHead.toNat % 1024) 11).2.getD 0))
    obtain ⟨_, _, _, _, _, _, h2⟩ := h2
    rw [e] at h2
    dsimp only at h2
    obtain ⟨_, _, h3⟩ := consume_eq (readWord (advance dt s) (ringBase hc + (ctx (advance dt s) hc).sqHead.toNat % 1024) 11).1 hc
      ((readWord (advance dt s) (ringBase hc + (ctx (advance dt s) hc).sqHead.toNat % 1024) 11).2.getD 0)
    rw [h2, h3, h1]
    exact ⟨_, _, _, _, _, _, _, _, rfl⟩

end Sys2Proof.Machine
end

