-- ==== Sys2Proof/Tests/Slice0.lean ====
section
/-!
SUPPORT. Own tests: what well-formedness refuses; worked examples of the spec; and, for every obligation, states and operands that
meet the hypotheses of each of its clauses.
-/

namespace Sys2Proof.Tests

open Sys2Proof.Machine

set_option maxRecDepth 100000
set_option linter.unusedVariables false
set_option Elab.async false

/-! ### States -/

/-- A device whose firmware runs, with context 0 attached through PCIe endpoint A. -/
def powered : State :=
  { start := { phase := .ready, straps := 0x18 }, clk := { ref := .locked, sysPll := true }, wd := { armed := true },
    ctxs := [(0, { bind := 1, st := 1 })] }

/-- The state with a packet of context 0 published at the front of its SQ. -/
def sq (op : Nat) (ws : List Word) (s : State) : State :=
  writeWords (setCtx s 0 { ctx s 0 with sqTail := BitVec.ofNat 11 (1 + ws.length) }) 0x1000
    ((at' 0 op ||| at' 12 5 ||| at' 28 ws.length) :: ws)

/-- The packet that context 0's interpreter takes from a state, and the state in which its command executes. -/
def tk (op least most : Nat) (s : State) : Packet × State :=
  match takePacket 0 0 op least most s with
  | .packet p u => (p, u)
  | .settled u => (⟨0, [], 0⟩, u)
  | .undef _ => (⟨0, [], 0⟩, s)

/-- The nine header octets of an HSPI transaction: command, address, count, HCRC (R105). -/
def hh (cmd addr count : Nat) : Octets :=
  let h := leOctets 1 cmd ++ leOctets 4 addr ++ leOctets 2 count
  h ++ beOctets 2 (crc16 h).toNat

/-- Context 0 attached through HSPI port 2. -/
def hs : State := { powered with ctxs := [(0, { bind := 5, st := 1 })] }

/-- What the radio measures at the end of a frame whose last octets are `rest`. -/
def endObs (rest : Octets) : RxObs := ⟨9, 0, rest, 4, 0, 100, 0, 0, 0, 50, 0⟩

/-- A device that transmits: context 0 has the command with record 3 in progress, and its item 7 stands on chain 0. -/
def itm : Item :=
  { id := 7, src := .host 0 3 5, band := 0, cell := .given, mode := 1, hdrLen := 3, length := 5, blocks := [0], psdu := 7,
    st := .eligible, chain := some 0, freq := 410000, tolerance := 50, retries := 1, ack := true }

def withItem (i : Item) (c : ChainSt) (s : State) : State :=
  { s with mac := { s.mac with items := [i] }, chains := [(0, c)],
           image := { s.image with txModes := [(1, at' 0 1 ||| at' 3 8)] },
           ctxs := [(0, { bind := 1, st := 1, journal := [{ id := 3, tag := 5, opcode := 0x300, room := 3, notify := false }] })] }

/-- Quench's profile with one entry of 100 permille on band L, dwell 1 s, window 1 h. -/
def lawful : Quench :=
  { valid := true, profile := [at' 0 1 ||| at' 8 1, 3600, 0, 0, at' 0 400000 ||| at' 22 420000 ||| at' 44 80 ||| at' 52 100, 10000] }

/-- A frequency plan with one point on band M. -/
def planned : State := { powered with image := { plan := [(256, 800000)] } }

/-- Base slot 1 is about to begin, and context 0's command 3 is a TUNE of chain 0. -/
def slotted : State :=
  { withItem { itm with st := .queued } {} powered with
    tb := { set := true, value := (42949673 <<< 48) - 1 }, mac := { asnSet := true, slot := some 0 }, tunes := [⟨0, 3, 0, 410000, false, 5, none⟩] }

/-- Item 7 at its commit point, its chain calibrated. -/
def ready7 : State :=
  let s := withItem { itm with instant := timeUs 290 } {} powered
  writeWord s (calAddr 0 (gridOf 0 (txLo s 0 410000 (occupied s 0 1)))) 1

/-- A PTP message of a type: flags, sequence number 7, source port identity 9, and the rest of its octets. -/
def msg (type flags : Nat) (body : Octets) : Octets :=
  [BitVec.ofNat 8 type, 2, 0, 64, 0, 0, BitVec.ofNat 8 flags, 0] ++ List.replicate 12 0 ++ beOctets 10 9 ++ beOctets 2 7 ++
    [0, 0] ++ body

/-- PTP runs on port 0, whose port data set is given, with captures waiting in the timestamp FIFO. -/
def ptpUp (x : PtpPort) : State :=
  { powered with inForce := [(0x6000, 2), (0x6400, 1), (0x6402, 1)], ptp := [(0, x)], tb := { set := true }, otp := 1#16384 <<< 64,
                 fifos := [(3, { draining := [(fifoWord 5, false), (fifoWord 0, false)] })] }

/-- Octets as payload words. -/
def words (os : Octets) : List Word := packWords 300 os

/-- An update header of 180 octets: FORMAT 1, AUTHORITY 0, PARTS 6, target 0x9740, total length 1,024. -/
def header (target : Nat) : Octets :=
  [1, 0, 6, 0] ++ beOctets 2 target ++ [1, 0, 0, 0, 0, 0, 0, 1, 0, 0] ++ beOctets 4 1024 ++ List.replicate 160 0

/-- The state of the update session and of the boot record in flash A. -/
def session (u : Update) (b : Boot) : State := { powered with update := u, flashA := { boot0 := bootOctets b }, inForce := [(0x7800, 1)] }

/-- A device whose context 0 owns domain 0 and holds the node of EUI-64 5 in the domain's table. -/
def noded (n : Node) : State :=
  putNode { powered with owners := [(resKey 1 0, .host 0)] } (.slot 0 ((emptyFor powered 0 (keyWord 0 5)).getD 0)) (some n)

/-- A key blob for domain 3. -/
def blob (gen : Nat) : Octets := [1, 2, 3, 1] ++ beOctets 4 gen ++ [0, 4, 1, 0, 0, 0, 0, 0] ++ List.replicate 40 9

/-- Domain 3, owned by context 0, takes its keys from blobs and holds the one of a generation. -/
def blobbed (gen : Nat) : State :=
  writeWords { powered with owners := [(resKey 1 3, .host 0)], inForce := [(0x5403, 1)] } (blobBase 3 0) (words (blob gen))

/-- A frame with its FCS. -/
def withFcs (g : Octets) : Octets := g ++ leOctets 4 (crc32 g).toNat

/-- An Ethernet frame for a port that carries a 40-octet IPv6 packet of an address outside the link. -/
def ipFrame : Octets :=
  withFcs (beOctets 6 (ownMac powered) ++ beOctets 6 7 ++ [0x86, 0xDD] ++ ([0x60, 0, 0, 0, 0, 0, 59, 9] ++ beOctets 16 (2 ^ 125 + 1) ++ beOctets 16 (2 ^ 125)) ++
    List.replicate 6 0)

/-- A unit of a pair in a role, with the ASN set. -/
def paired2 (role : BitVec 2) (p : Pair) : State :=
  { powered with inForce := [(0x9000, 1), (0x9001, 1), (0x1404, 1), (0x1405, 1), (0x1406, 1), (0x1407, 1), (0x2400, 0)], pairRole := role, pair := p,
                 tb := { set := true, value := BitVec.ofNat 120 (timeSec 100 * 2 ^ 48) } }

/-- The fuses of a production part but for the root key's check value: LIFECYCLE 0x0F, every group's check value, a root key of zeros. -/
def burntBase : BitVec 16384 :=
  BitVec.ofNat 16384 (27146 * 2 ^ 128 + 55522 * 2 ^ 1958 + 10252 * 2 ^ 2270 + 0x0F * 2 ^ 2323 + 61149 * 2 ^ 2331 + 60547 * 2 ^ 5419)

/-- The same with a check value in the root key's place for it. -/
def burnt (kcv : BitVec 16) : BitVec 16384 := burntBase ||| (kcv.setWidth 16384 <<< 400)

/-- A device that reads these fuses. -/
def fused (kcv : BitVec 16) : State := { powered with start := { phase := .starting, stage := .fuse }, otp := burnt kcv }

/-- A start at a stage. -/
def starting (g : Stage) (s : State) : State := { s with start := { phase := .starting, stage := g } }

/-- A device held in reset, with a command that waits. -/
def heldState : State :=
  { powered with start := { phase := .held }, pending := [.tapReset 3] }

/-- A committed key-store slot of generation 5, whose key is sealed. -/
def stored : Octets :=
  let b : Octets := [1, 1, 3, 1] ++ beOctets 4 5 ++ [0, 4, 0xDB, 0xF1] ++ List.replicate 20 0 ++
    beOctets 80 (0xCFA5433948666C660E44CEDFB7FD9208726003CA37A62A74D1A2F58E7506358EDD4AB1284D4AE17B41E85924470C36F7 * 2 ^ 256 +
      0x4741CBE181BB7F30617C1DE3AB0C3A1F5CEB0B7A2E5C71BB9B6A40303BD3D99B)
  b ++ [0xC3, 0] ++ beOctets 4 5 ++ beOctets 2 (crc16 b).toNat ++ List.replicate 8 0xFF

/-- Context 0 owns domain 3, whose record is in the key store. -/
def storing : State := { powered with owners := [(resKey 1 3, .host 0)], anvil := { store := [(2 * 1, stored), (2 * 20, stored)] } }

/-- Context 0 owns domain 3, which takes its keys from blobs; KEK 1 unwraps them. -/
def wrapping : State :=
  { powered with owners := [(resKey 1 3, .host 0)], inForce := [(0x5403, 1)],
                 anvil := { slots := [(1, { st := .loaded, usage := 4, key := List.replicate 32 7 })] } }

/-- A cold start at its choice of a set, FLASH_A good. -/
def choosing : State := { powered with start := { phase := .starting, stage := .verify, flashAOk := true } }

/-- A warm start at step 5, whose running set has empty engine parts, cached with their digest. -/
def cached : State :=
  [0, 1, 2].foldl (fun s i => writeWords s (digestBase i) (packWords 4 (digestOctets (sha256 []))))
    { powered with start := { phase := .starting, stage := .verify, warm := true }, update := { running := [0] } }

/-- A band's pool with every buffer in use. -/
def fullPool : RxPool := { used := (List.range 1024).map (fun i => (i, true)) }

/-- Band L's FIFO drains the start of a frame, and every buffer of its pool is in use. -/
def fullRx : State :=
  { powered with fifos := [(0, { draining := (fifoWord (at' 8 77 ||| at' 26 2), false) :: (fifoWord (at' 8 77 ||| at' 26 2), false) ::
      [(fifoWord 11, false), (fifoWord 12, false), (fifoWord 13, false)] })],
                 rx := { pools := [(0, fullPool)] } }

/-- The state that an outcome gives, where it is a next state. -/
def nextOf (o : Host.Outcome State Fault Refusal) : State := match o with | .next t => t | _ => {}

/-- An outcome that is a next state is the next state of its state. -/
theorem next_of {o : Host.Outcome State Fault Refusal} (h : (match o with | .next _ => true | _ => false) = true) :
    o = .next (nextOf o) := by
  cases o <;> simp_all [nextOf]

theorem some_of {α : Type} {x : Option α} (d : α) (h : x.isSome = true) : x = some (x.getD d) := by
  cases x <;> simp_all

/-- A pair is what its second part is, with its own first part. -/
theorem pair_of {α β : Type} {x : α × β} {y : β} (h : x.2 = y) : x = (x.1, y) := Prod.ext rfl h

/-- What a run of accesses gives, where it does not end at a word that cannot be accessed. -/
def okOf {ε α : Type} (x : Except ε α) (d : α) : α := match x with | .ok r => r | .error _ => d

theorem all_some {l : List (Option Word)} (h : l.all (·.isSome) = true) : ∀ o ∈ l, o.isSome = true := by simpa using h

theorem ok_of {ε α : Type} {x : Except ε α} (d : α) (h : x.toBool = true) : x = .ok (okOf x d) := by
  cases x <;> simp_all [Except.toBool, okOf]

/-- Where context 0's interpreter takes a packet, it is the one that `tk` names. -/
theorem took_of {op least most : Nat} {s : State}
    (h : (match takePacket 0 0 op least most s with | .packet .. => true | _ => false) = true) :
    Took 0 0 op least most s (tk op least most s).1 (tk op least most s).2 := by
  unfold Took tk
  cases hp : takePacket 0 0 op least most s <;> simp_all

theorem test_full_pool : freeBuffer fullPool = none := by
  unfold freeBuffer
  rw [List.find?_eq_none]
  intro k hk
  simp [tblAt, fullPool, tblGet_map true _ k hk]

/-! ### Well-formedness: for each check, a term that it passes and one that it refuses -/

theorem test_wf_hspi_header : Instr.wf (.hspiNop 0 0 (List.replicate 9 0)) = true ∧ Instr.wf (.hspiNop 0 0 (List.replicate 10 0)) = false := by
  decide +kernel

theorem test_wf_hspi_word_data : Instr.wf (.hspiWordWrite 0 0 [] (List.replicate 2304 0) 0 false) = true ∧
    Instr.wf (.hspiWordWrite 0 0 [] (List.replicate 2305 0) 0 false) = false := by decide +kernel

theorem test_wf_hspi_register_data : Instr.wf (.hspiRegWrite 0 0 [] (List.replicate 256 0) 0 false) = true ∧
    Instr.wf (.hspiRegWrite 0 0 [] (List.replicate 257 0) 0 false) = false := by decide +kernel

theorem test_wf_segment : Instr.wf (.frameSegmentWrite 0 0 0 0 64) = true ∧ Instr.wf (.frameSegmentWrite 0 0 0 0 65) = false := by decide +kernel

theorem test_wf_fifo_places : Instr.wf (.drainSegment 0 0 [(511, 1)]) = true ∧ Instr.wf (.drainSegment 0 0 [(512, 1)]) = false := by
  decide +kernel

theorem test_wf_requests : Instr.wf (.arbiterDecision 0 0 [⟨42, 16, false⟩] [42] 2) = true ∧
    Instr.wf (.arbiterDecision 0 0 [⟨43, 16, false⟩] [] 0) = false ∧ Instr.wf (.arbiterDecision 0 0 [⟨42, 0, false⟩] [] 0) = false ∧
    Instr.wf (.arbiterDecision 0 0 [⟨42, 17, false⟩] [] 0) = false ∧ Instr.wf (.arbiterDecision 0 0 [] [43] 0) = false ∧
    Instr.wf (.arbiterDecision 0 0 [] [1, 2, 3, 4, 5] 0) = false ∧ Instr.wf (.arbiterDecision 0 0 [] [] 3) = false := by decide +kernel

theorem test_wf_detection : Instr.wf (.laneDetection 0 0 0 5 5 0 0 0) = true ∧ Instr.wf (.laneDetection 0 0 0 6 5 0 0 0) = false := by decide +kernel

theorem test_wf_headers : HeaderObs.wf (.fsk true 2047 false false) = true ∧ HeaderObs.wf (.fsk true 2048 false false) = false ∧
    HeaderObs.wf (.fskModeSwitch true 8 0) = false ∧ HeaderObs.wf (.ofdm true 7 2047 false) = true ∧ HeaderObs.wf (.ofdm true 8 1 false) = false ∧
    HeaderObs.wf (.ofdm true 1 2048 false) = false ∧ HeaderObs.wf (.oqpsk true true 127) = true ∧ HeaderObs.wf (.oqpsk true true 128) = false ∧
    Instr.wf (.headerCheck 0 0 0 0 (.fsk true 2048 false false) 0 [] [] ⟨0, 0⟩) = false ∧
    Instr.wf (.headerCheck 0 0 0 0 (.fsk true 9 false false) 5 [6, 7] [] ⟨0, 0⟩) = true ∧
    Instr.wf (.headerCheck 0 0 0 0 (.fsk true 9 false false) 5 [7, 6] [] ⟨0, 0⟩) = false := by decide +kernel

theorem test_wf_iterations : Instr.wf (.codewordDecoded 0 0 0 0 true true 20 0 [] ⟨0, 0⟩) = true ∧
    Instr.wf (.codewordDecoded 0 0 0 0 true true 21 0 [] ⟨0, 0⟩) = false := by decide +kernel

theorem test_wf_frame_end : Instr.wf (.frameEnd 0 0 0 0 { endObs [] with refInstant := 9 } ⟨0, 0⟩) = true ∧
    Instr.wf (.frameEnd 0 0 0 0 { endObs [] with refInstant := 10 } ⟨0, 0⟩) = false := by decide +kernel

theorem test_wf_start : Instr.wf (.startStepEnd 0 ⟨[28], [(96, 4095)], true, true, true⟩) = true ∧
    Instr.wf (.startStepEnd 0 ⟨[29], [], true, true, true⟩) = false ∧ Instr.wf (.startStepEnd 0 ⟨[], [(60, 0)], true, true, true⟩) = false ∧
    Instr.wf (.startStepEnd 0 ⟨[], [(92, 1024)], true, true, true⟩) = false := by decide +kernel

theorem test_wf_power_on : Instr.wf (.powerOnReset 0 7) = true ∧ Instr.wf (.powerOnReset 0 8) = false := by decide +kernel

theorem test_wf_search : Instr.wf (.tuneSearchEnd 0 0 (List.replicate 89 0)) = true ∧
    Instr.wf (.tuneSearchEnd 0 0 (List.replicate 90 0)) = false := by decide +kernel

theorem test_wf_event_flips : Instr.wf (.ptpSyncRx 0 0 [1, 1]) = true ∧ Instr.wf (.ptpSyncRx 0 0 [1, 1, 1]) = false ∧
    Instr.wf (.ptpDelayReqRx 0 0 [1, 1, 1]) = false := by decide +kernel

/-! ### Worked examples of the spec -/

/-- 00_scope.md, field OFFSET of a timing word. -/
theorem test_offset_field : fld (at' 52 0x4D2 ||| at' 33 77 ||| 99) 71 52 = 1234 := by decide +kernel

/-- 01_architecture.md, the word at 0x42135. -/
theorem test_bank_of_word : bankOf 0x42135 = 19 ∧ rowOf 0x42135 = 0x210 := by decide +kernel

/-- 05_parameters_events.md, the lock group of param 0x2104. -/
theorem test_group_of_param : groupOf 0x2104 = 8 := by decide +kernel

/-- 05_parameters_events.md, HC1 routes source 128 to its EQ with vector 5 and a 1,000 µs window. -/
def routed : State :=
  match exec (.eventRoute 0 1) (writeWords { powered with ctxs := [(1, { bind := 2, st := 1, sqTail := 3 })] } (ringBase 1)
    [0x400020007020, 0xA480, 0x3E8]) with
  | .next t => t
  | _ => {}

theorem test_event_route : (tblGet routed.routes (4 * 128 + 1)).map (fun r => (r.on, r.vector, r.window)) = some (true, 5, 1000) := by
  decide +kernel

/-- 08_radio_chains.md, the allowance and a completed bin's preload of an entry of DUTY 10, WINDOW 3,600. -/
theorem test_quench_allowance : allowance { profile := [0, 3600, 0, 0, at' 52 10] } 0 = 36000000 * 4096 ∧
    binLength { profile := [0, 3600, 0, 0, at' 52 10] } = usC 56250000 := by decide +kernel

/-- 10_phy_modes_coding.md, an LRC frame at SF9, 250 kHz, rate 1/2, of 60 octets. -/
theorem test_lrc_symbols : lrcSymbols 8 9 1 60 = 156 := by decide +kernel

theorem test_lrc_airtime : airtime6 { image := { txModes := [(35, at' 2 (9 + 16 + 64) ||| at' 10 8)] } } 1 3 60 8 = 319504 * 6 := by decide +kernel

/-- 11_mac_schedule.md, the autonomous cells of node 00-1B-C5-0F-00-1B-C5-2A. -/
theorem test_autonomous_cells : autoHash powered 0x001BC50F001BC52A false = 0xDE049695 ∧ autoHash powered 0x001BC50F001BC52A true = 0x83C3EFBA ∧
    autoCell { powered with inForce := [(0x2400, 5)] } 0xDE049695 = (87, 9) ∧
    autoCell { powered with inForce := [(0x2400, 5)] } 0x83C3EFBA = (52, 14) := by decide +kernel

/-- 11_mac_schedule.md, the replay window of 30 s at a base slot of 10 ms. -/
theorem test_replay_window : replayWindow { powered with inForce := [(0xC400, 30)] } = 3000 := by decide +kernel

/-- 13_traffic_shaping.md, the costs of frames of 100 and 255 octets in SUN-FSK index 0 with a preamble of 8 octets. -/
theorem test_frame_cost : frameCost { powered with image := { txModes := [(34, 1 ||| at' 10 8)] } } 1 2 100 false = 18436 ∧
    frameCost { powered with image := { txModes := [(34, 1 ||| at' 10 8)] } } 1 2 255 false = 43236 := by decide +kernel

/-- 15_time_timers.md, a timestamp's fraction in ns. -/
theorem test_ptp_fraction : ptpNs (at' 32 1700000000 ||| 0x40000001) = 1700000000250000000 := by decide +kernel

/-- 06_memory_integrity.md, the scrubber's row of word 0x42135. -/
theorem test_row_base : rowBase 19 0x210 = 0x42130 := by decide +kernel

/-- FIPS 180-4: the digest of "abc". -/
theorem test_sha256_abc : sha256 [0x61, 0x62, 0x63] = 0xBA7816BF8F01CFEA414140DE5DAE2223B00361A396177A9CB410FF61F20015AD := by
  decide +kernel

/-- FIPS 197, appendices C.1 and C.3. -/
theorem test_aes128 : aesBlock ((List.range 16).map (BitVec.ofNat 8)) (beOctets 16 0x00112233445566778899AABBCCDDEEFF) =
    0x69C4E0D86A7B0430D8CDB78070B4C55A := by
  decide +kernel

theorem test_aes256 : aesBlock ((List.range 32).map (BitVec.ofNat 8)) (beOctets 16 0x00112233445566778899AABBCCDDEEFF) =
    0x8EA2B7CA516745BFEAFC49904B496089 := by
  decide +kernel

/-- RFC 3394, 4.1. -/
theorem test_key_unwrap : aesUnwrap ((List.range 16).map (BitVec.ofNat 8)) (beOctets 24 0x1FA68B0A8112B447AEF34BD8FB5A7B829D3E862371D2CFE5) =
    some (beOctets 16 0x00112233445566778899AABBCCDDEEFF) := by
  decide +kernel

/-- IEEE 802.15.4, annex C: the MIC of the secured beacon of the worked example. -/
theorem test_ccm_mic : ccmSeal (beOctets 16 0xC0C1C2C3C4C5C6C7C8C9CACBCCCDCECF) (beOctets 13 0xACDE4800000000010000000502)
    (beOctets 26 0x08D0842143010000000048DEAC020500000055CF000051525354) [] 2 = beOctets 8 0x223BC1EC841AB553 := by
  decide +kernel

/-! ### Fuses -/

/-- A fuse away from the root key's check value does not depend on it. -/
theorem burnt_bit (x : BitVec 16) (i : Nat) (h : i < 400 ∨ 416 ≤ i) : (burnt x).getLsbD i = burntBase.getLsbD i := by
  unfold burnt
  rw [BitVec.getLsbD_or, BitVec.getLsbD_shiftLeft, BitVec.getLsbD_setWidth]
  rcases h with h | h
  · simp [h]
  · rw [BitVec.getLsbD_of_ge x (i - 400) (by omega)]; simp

/-- Nor does a field of such fuses. -/
theorem burnt_fld (x : BitVec 16) (hi lo : Nat) (h : hi < 400 ∨ 416 ≤ lo) : fld (burnt x) hi lo = fld burntBase hi lo := by
  apply Nat.eq_of_testBit_eq
  intro i
  simp only [fld, Nat.testBit_mod_two_pow, Nat.testBit_div_two_pow, BitVec.testBit_toNat]
  by_cases e : i < hi + 1 - lo
  · rw [burnt_bit x (i + lo) (by omega)]
  · simp [e]

theorem groupBits_fused (x : BitVec 16) (lo hi : Nat) (h : hi < 400 ∨ 416 ≤ lo) : groupBits (fused x) lo hi = groupBits (fused 0) lo hi := by
  unfold groupBits
  apply List.map_congr_left
  intro i hi'
  have hl := List.mem_range.mp hi'
  show (if _ then _ else (burnt x).getLsbD (lo + i)) = (if _ then _ else (burnt 0).getLsbD (lo + i))
  rw [burnt_bit x (lo + i) (by omega), burnt_bit 0 (lo + i) (by omega)]

/-- Every group of the fuses holds, whatever the root key's check value. -/
theorem failedGroups_fused (x : BitVec 16) : failedGroups (fused x) = 0 := by
  have h0 : failedGroups (fused 0) = 0 := by decide +kernel
  rw [← h0]
  have hg : ∀ lo hi crc, (hi < 400 ∨ 416 ≤ lo) → (crc + 15 < 400 ∨ 416 ≤ crc) →
      groupFails (fused x) lo hi crc = groupFails (fused 0) lo hi crc := by
    intro lo hi crc h1 h2
    unfold groupFails
    rw [groupBits_fused x lo hi h1]
    show (fld (burnt x) _ _ != _) = (fld (burnt 0) _ _ != _)
    rw [burnt_fld x _ _ h2, burnt_fld 0 _ _ h2]
  unfold failedGroups
  rw [hg 0 127 128 (by omega) (by omega), hg 416 1957 1958 (by omega) (by omega), hg 2166 2269 2270 (by omega) (by omega),
    hg 2286 2330 2331 (by omega) (by omega), hg 2347 5418 5419 (by omega) (by omega)]

theorem lifecycle_fused (x : BitVec 16) : fld (fused x).otp 2330 2323 = 0x0F :=
  (burnt_fld x _ _ (by omega)).trans (by decide +kernel)

theorem rootKey_fused (x : BitVec 16) : rootKey (fused x) = leOctets 32 0 := by
  unfold rootKey
  rw [show fld (fused x).otp 399 144 = 0 from (burnt_fld x _ _ (by omega)).trans (by decide +kernel)]

theorem kcv_fused (x : BitVec 16) : fld (fused x).otp 415 400 = x.toNat := by
  apply Nat.eq_of_testBit_eq
  intro i
  show (fld (burnt x) _ _).testBit i = _
  simp only [fld, Nat.testBit_mod_two_pow, Nat.testBit_div_two_pow, BitVec.testBit_toNat]
  by_cases e : i < 16
  · have h0 : burntBase.getLsbD (i + 400) = false := by
      have h : ∀ j, j < 16 → burntBase.getLsbD (j + 400) = false := by decide +kernel
      exact h i e
    unfold burnt
    rw [BitVec.getLsbD_or, h0, BitVec.getLsbD_shiftLeft, BitVec.getLsbD_setWidth]
    simp [e, show i + 400 < 16384 by omega, show i < 16384 by omega]
  · rw [BitVec.getLsbD_of_ge x i (by omega)]; simp [e]

/-! ### The hypotheses of the obligations are met -/

/-- Every hypothesis of `StepTakesFrontCommand` is met. -/
theorem witness_StepTakesFrontCommand :
    (∃ (s : State) (c : Instr) (cs : List Instr), s.pending = c :: cs) ∧
    (∃ s : State, s.pending = []) :=
  ⟨⟨{ powered with pending := [.tapReset 3] }, .tapReset 3, [], by decide +kernel⟩,
   ⟨powered, by decide +kernel⟩⟩

/-- Every hypothesis of `ColdResetSources` is met. -/
theorem witness_ColdResetSources :
    (∃ (s : State), s.start.phase ≠ .tripped) ∧
    (∃ (dt : Nat) (s : State) (h : Nat), s.temp.hotFrom = some h ∧ h + msC 1 ≤ s.now + dt ∧ outOfReset s = true) ∧
    (∃ (s : State), outOfReset s = true ∧ s.clk.sysPll = true) :=
  ⟨⟨powered, by decide +kernel⟩,
   ⟨7, { powered with temp := { hotFrom := some 5 }, now := 5 + 409600 }, 5, by decide +kernel⟩,
   ⟨powered, by decide +kernel⟩⟩

/-- Every hypothesis of `ColdResetTimers` is met. -/
theorem witness_ColdResetTimers :
    (∃ (dt : Nat) (s : State), s.start.phase = .starting ∧ (s.start.since + secC (if s.start.warm then 1 else 5) ≤ s.now + dt)) ∧
    (∃ (dt : Nat) (s : State), s.start.phase = .starting ∧ s.start.warm = false ∧ s.start.stage = .refQual ∧
        s.start.since + msC 100 ≤ s.now + dt) ∧
    (∃ (dt : Nat) (s : State), s.start.phase = .starting ∧ s.start.stage = .pllLock ∧ s.start.stageAt + msC 1 ≤ s.now + dt) ∧
    (∃ (dt : Nat) (s : State) (x : Nat), s.update.restartAt = some x ∧ x ≤ s.now + dt ∧ outOfReset s = true) ∧
    (∃ (dt : Nat) (s : State) (x : Nat), s.update.expired = some x ∧ x ≤ s.now + dt ∧ outOfReset s = true) :=
  ⟨⟨0, { powered with start := { phase := .starting, since := 10 }, now := (10 + secC 5) }, by decide +kernel⟩,
   ⟨0, { powered with start := { phase := .starting, since := 10 }, now := 10 + msC 100 }, by decide +kernel⟩,
   ⟨0, { powered with start := { phase := .starting, stage := .pllLock, stageAt := 10 }, now := 10 + msC 1 }, by decide +kernel⟩,
   ⟨4, { powered with update := { restartAt := some 4 } }, 4, by decide +kernel⟩,
   ⟨4, { powered with update := { expired := some 4 } }, 4, by decide +kernel⟩⟩

/-- Every hypothesis of `ThirdWatchdogBiteIsCold` is met. -/
theorem witness_ThirdWatchdogBiteIsCold :
    ∃ (dt : Nat) (s : State), s.wd.armed = true ∧ s.wd.since + msC 250 ≤ s.now + dt ∧ s.start.phase ≠ .failure :=
  ⟨msC 250, powered, by decide +kernel⟩

/-- Every hypothesis of `ResetEndSamplesStraps` is met. -/
theorem witness_ResetEndSamplesStraps :
    (∃ (dt rails : Nat) (s : State), s.start.phase = .held ∧ msC 1 ≤ rails ∧ s.start.railsAt + rails ≤ s.now + dt) ∧
    (∃ (dt rails : Nat) (s : State), (s.start.phase ≠ .held ∨ rails < msC 1 ∨ s.now + dt < s.start.railsAt + rails)) ∧
    (∃ (ir : BitVec 5) (s : State), s.start.phase = .tapHeld ∧ tapReleases s ir = true) ∧
    (∃ (t0 t1 t2 t3 : BitVec 12) (s : State), s.start.phase = .tripped ∧ tapHolds s.tap.ir = false ∧ t0.toInt < 1600 ∧ t1.toInt < 1600 ∧
        t2.toInt < 1600 ∧ t3.toInt < 1600) :=
  ⟨⟨msC 1, msC 1, State.reset, by decide +kernel⟩,
   ⟨1, msC 1, powered, by decide +kernel⟩,
   ⟨1, { start := { phase := .tapHeld } }, by decide +kernel⟩,
   ⟨1599, 0, -5, 20, { start := { phase := .tripped } }, by decide +kernel⟩⟩

/-- Every hypothesis of `ReferenceSupervision` is met. -/
theorem witness_ReferenceSupervision :
    (∃ (s : State), refChecked s = true) ∧
    (∃ (s : State), refChecked s = true ∧ s.clk.ref = .locked) ∧
    (∃ (ppm : Int) (s : State), refChecked s = true ∧ s.clk.ref = .locked ∧ (ppm < -100 ∨ 100 < ppm)) ∧
    (∃ (ppm : Int) (s : State), refChecked s = true ∧ s.clk.ref = .holdover ∧ -100 ≤ ppm ∧ ppm ≤ 100) ∧
    (∃ (dt : Nat) (s : State), s.clk.ref = .requal ∧ s.clk.requalFrom + msC (par s 0x10) ≤ s.now + dt) ∧
    (∃ (s : State), s.clk.ref = .slew) ∧
    (∃ (dt : Nat) (s : State), (s.clk.ref = .holdover ∨ s.clk.ref = .requal) ∧ s.clk.limit = false ∧ par s 0x11 ≠ 0 ∧
        s.clk.holdoverFrom + secC (par s 0x11) ≤ s.now + dt) :=
  ⟨⟨powered, by decide +kernel⟩,
   ⟨powered, by decide +kernel⟩,
   ⟨101, powered, by decide +kernel⟩,
   ⟨100, { powered with clk := { ref := .holdover, sysPll := true } }, by decide +kernel⟩,
   ⟨msC 10000, { powered with clk := { ref := .requal, sysPll := true } }, by decide +kernel⟩,
   ⟨{ powered with clk := { ref := .slew, sysPll := true, limit := true } }, by decide +kernel⟩,
   ⟨secC 20000, { powered with clk := { ref := .holdover, sysPll := true }, inForce := [(0x11, 20000)] }, by decide +kernel⟩⟩

/-- Every hypothesis of `LossOfRefNeverUnlocksSyspll` is met. -/
theorem witness_LossOfRefNeverUnlocksSyspll :
    (∃ (s : State), outOfReset s = true ∧ s.clk.sysPll = true) ∧
    (∃ (dt : Nat) (ppm : Int) (s t : State) (c : Instr), exec c s = .next t ∧ c ∈ [Instr.refGlitch dt, .refPresenceLoss dt,
        .refRangeWindow dt ppm]) :=
  ⟨⟨powered, by decide +kernel⟩,
   ⟨1, 101, powered, _, .refGlitch 1, next_of (by decide +kernel), by decide +kernel⟩⟩

/-- Every hypothesis of `TemperatureAndEngines` is met. -/
theorem witness_TemperatureAndEngines :
    (∃ (dt : Nat) (core : Fin 2) (s : State), s.wd.armed = true ∧ engineRuns s core.val = true ∧ heartbeatsFresh (advance dt s) = true) ∧
    (∃ (e : Fin 26) (s : State), running s = true ∧ engineRuns s e.val = true) :=
  ⟨⟨1, 0, { powered with wd := { armed := true, kick0 := true } }, by decide +kernel⟩,
   ⟨0, powered, by decide +kernel⟩⟩

/-- Every hypothesis of `DebugPortReachesSites` is met. -/
theorem witness_DebugPortReachesSites :
    (∃ (n : BitVec 5) (s : State), debugOpen s = true ∧ n.toNat ≤ 28 ∧ keysRise 0 s.halted = true ∧ tblAt s.halted n.toNat false = true) ∧
    (∃ (n : BitVec 5) (s : State), debugOpen s = true ∧ n.toNat ≤ 28) ∧
    (∃ (dt : Nat) (n : BitVec 5) (a : BitVec 14) (d : Word) (s t : State) (c : Instr), exec c s = .next t ∧ c ∈ [Instr.engDebugStatus dt n,
        .engDebugHalt dt n, .engDebugResume dt n, .engDebugSingleStep dt n, .engDebugReadLocal dt n a, .engDebugWriteLocal dt n a d,
        .engDebugReadRegister dt n a, .engDebugWriteRegister dt n a d]) :=
  ⟨⟨28, { powered with halted := [(28, true)], engRegs := [(16384 * 28 + 16383, 77)] }, by decide +kernel⟩,
   ⟨28, { powered with halted := [(28, true)], engRegs := [(16384 * 28 + 16383, 77)] }, by decide +kernel⟩,
   ⟨1, 28, 16383, 99, { powered with halted := [(28, true)], engRegs := [(16384 * 28 + 16383, 77)] }, _, .engDebugStatus 1 28,
       next_of (by decide +kernel), by decide +kernel⟩⟩

/-- Every hypothesis of `DebugLockClosesPort` is met. -/
theorem witness_DebugLockClosesPort :
    ∃ (dt : Nat) (n : BitVec 5) (a : BitVec 14) (d : Word) (s : State) (c : Instr), fld s.otp 2322 2315 ≠ 0 ∧
        c ∈ [Instr.engDebugStatus dt n, .engDebugHalt dt n, .engDebugResume dt n, .engDebugSingleStep dt n, .engDebugReadLocal dt n a,
        .engDebugWriteLocal dt n a d, .engDebugReadRegister dt n a, .engDebugWriteRegister dt n a d] :=
  ⟨1, 28, 16383, 99, { powered with otp := 1#16384 <<< 2315 }, .engDebugStatus 1 28, by decide +kernel⟩

/-- Every hypothesis of `LinkLossResetsContext` is met. -/
theorem witness_LinkLossResetsContext :
    (∃ (dt : Nat) (e : Fin 2) (hc : Hc) (s : State), ∃ c, ctxOf s (.pcie e) = some hc ∧ (ctx s hc).st = 1 ∧ serving s = true ∧
        c ∈ [Instr.pciePerst dt e, .pcieLinkDown dt e]) ∧
    (∃ (dt : Nat) (e : Fin 2) (hc : Hc) (s : State), ∃ c, ctxOf s (.pcie e) = some hc ∧ (ctx s hc).st = 0 ∧ c ∈ [Instr.pciePerst dt e,
        .pcieLinkDown dt e]) ∧
    (∃ (dt : Nat) (p : Fin 4) (hc : Hc) (s : State) (x : Nat), ctxOf s (.hspi p) = some hc ∧ (ctx s hc).st = 1 ∧ serving s = true ∧
        (ctx s hc).hspiSince = some x ∧ hspiDataPort s p = false ∧ par s 0x24 ≠ 0 ∧ x + msC (par s 0x24) ≤ s.now + dt) ∧
    (∃ (dt : Nat) (hc : Hc) (s u : State) (p : Packet), Took dt hc 0x003 0 0 s p u) :=
  ⟨⟨1, 0, 0, { powered with ctxs := [(0, { bind := 1, st := 1, txn := some [] })], locks := [(3, ⟨0, 100, 200⟩), (4, ⟨1, 100, 200⟩)] },
      .pciePerst 1 0, by decide +kernel⟩,
   ⟨1, 1, 1, powered, .pciePerst 1 1, by decide +kernel⟩,
   ⟨0, 2, 0, { powered with now := 9 + msC (par powered 0x24), inForce := [(0x24, 5)], ctxs := [(0, { bind := 5, st := 1, hspiSince := some 9 })], locks := [(3, ⟨0, 100, 200⟩), (4, ⟨1, 100, 200⟩)] },
       9, by decide +kernel⟩,
   ⟨0, 0, (sq 3 [] powered), _, _, took_of (by decide +kernel)⟩⟩

/-- Every hypothesis of `RestartRequests` is met. -/
theorem witness_RestartRequests :
    (∃ (dt : Nat) (hc : Hc) (s u : State) (p : Packet), Took dt hc 0x002 1 0 s p u ∧ reservedSet (p.word 1) (bits 0 0) = false) ∧
    (∃ (dt : Nat) (hc : Hc) (s u : State) (p : Packet), Took dt hc 0x002 1 0 s p u ∧ reservedSet (p.word 1) (bits 0 0) = true) ∧
    (∃ (e : Fin 26) (a : BitVec 23) (s : State), running s = true ∧ 2 ≤ e.val ∧ engineRuns s e.val = true ∧ engineRuns s 0 = true ∧
        a.toNat < 0x200000 ∧ decodePhys (memRaw s.mem a.toNat) = .poisoned) :=
  ⟨⟨0, 0, (sq 2 [1] powered), _, _, took_of (by decide +kernel), by decide +kernel⟩,
   ⟨0, 0, (sq 2 [2] powered), _, _, took_of (by decide +kernel), by decide +kernel⟩,
   ⟨2, 9, poisonWord powered 9, by decide +kernel⟩⟩

/-- Every hypothesis of `RingIndexWrites` is met. -/
theorem witness_RingIndexWrites :
    (∃ (att : Att) (hc : Hc) (v : BitVec 32) (s : State), regsServed s = true ∧ ctxOf s att = some hc ∧ v.toNat < 2048 ∧ (ctx s hc).st = 1 ∧
        indexAhead (ctx s hc).sqHead ((ctx s hc).latched.getD (ctx s hc).sqTail) (v.setWidth 11) 1024 = true) ∧
    (∃ (att : Att) (hc : Hc) (v : BitVec 32) (s : State), regsServed s = true ∧ ctxOf s att = some hc ∧ v.toNat < 2048 ∧ (ctx s hc).st = 1 ∧
        indexAhead (ctx s hc).sqHead ((ctx s hc).latched.getD (ctx s hc).sqTail) (v.setWidth 11) 1024 = false) ∧
    (∃ (att : Att) (hc : Hc) (v : BitVec 32) (s : State), regsServed s = true ∧ ctxOf s att = some hc ∧ v.toNat < 2048 ∧
        (ctx s hc).st ≠ 1) ∧
    (∃ (att : Att) (hc : Hc) (v : BitVec 32) (s : State), regsServed s = true ∧ ctxOf s att = some hc ∧ v.toNat < 2048 ∧
        (v.setWidth 11 - (ctx s hc).cqHead).toNat ≤ ((ctx s hc).cqTail - (ctx s hc).cqHead).toNat) ∧
    (∃ (att : Att) (hc : Hc) (v : BitVec 32) (s : State), regsServed s = true ∧ ctxOf s att = some hc ∧ v.toNat < 1024 ∧
        (v.setWidth 10 - (ctx s hc).eqHead).toNat ≤ ((ctx s hc).eqTail - (ctx s hc).eqHead).toNat) ∧
    (∃ (att : Att) (hc : Hc) (v : BitVec 32) (s : State), regsServed s = true ∧ ctxOf s att = some hc ∧ v.toNat < 256 ∧ v.getLsbD 2 = true ∧
        (ctx s hc).st = 0 ∧ bound s hc = true) ∧
    (∃ (dt : Nat) (att : Att) (hc : Hc) (v : BitVec 32) (s : State), ∃ c, ctxOf s att ≠ some hc ∧ c ∈ [Instr.sqDoorbell dt att hc v,
        .cqHeadWrite dt att hc v, .eqHeadWrite dt att hc v, .hcAttach dt att hc v]) :=
  ⟨⟨(.pcie 0), 0, 1024, powered, by decide +kernel⟩,
   ⟨(.pcie 0), 0, 1025, powered, by decide +kernel⟩,
   ⟨(.pcie 0), 0, 5, { powered with ctxs := [(0, { bind := 1, st := 0 })] }, by decide +kernel⟩,
   ⟨(.pcie 0), 0, 3, { powered with ctxs := [(0, { bind := 1, st := 1, cqTail := 3, vec0 := false })] }, by decide +kernel⟩,
   ⟨(.pcie 0), 0, 4, { powered with ctxs := [(0, { bind := 1, st := 1, eqTail := 4, vec1 := false, eqFull := true })] }, by decide +kernel⟩,
   ⟨(.pcie 0), 0, 4, { powered with ctxs := [(0, { bind := 1 })] }, by decide +kernel⟩,
   ⟨1, (.pcie 1), 0, 4, powered, .sqDoorbell 1 (.pcie 1) 0 4, by decide +kernel⟩⟩

/-- Every hypothesis of `GpioWritesReachHeldPins` is met. -/
theorem witness_GpioWritesReachHeldPins :
    (∃ (att : Att) (hc : Hc) (s : State), regsServed s = true ∧ ctxOf s att = some hc) ∧
    (∃ (att : Att) (hc : Hc) (s : State), regsServed s = true ∧ ctxOf s att = some hc) ∧
    (∃ (att : Att) (s : State), ctxOf s att = none) ∧
    (∃ (n : Nat), n < 32) :=
  ⟨⟨(.pcie 0), 0, { powered with owners := [(resKey 5 3, .host 0), (resKey 5 31, .host 0)] }, by decide +kernel⟩,
   ⟨(.pcie 0), 0, { powered with owners := [(resKey 5 3, .host 0), (resKey 5 31, .host 0)] }, by decide +kernel⟩,
   ⟨(.hspi 2), { powered with owners := [(resKey 5 3, .host 0), (resKey 5 31, .host 0)] }, by decide +kernel⟩,
   ⟨31, by decide +kernel⟩⟩

/-- Every hypothesis of `TimeSnapshotIsPerContext` is met. -/
theorem witness_TimeSnapshotIsPerContext :
    ∃ (att : Att) (s : State), regsServed s = true ∧ attachmentOn s att = true :=
  ⟨(.pcie 0), { powered with tb := { value := 0x123456789ABCDEF0123456789ABCDE, set := true } }, by decide +kernel⟩

/-- Every hypothesis of `RegisterSideEffects` is met. -/
theorem witness_RegisterSideEffects :
    (∃ (att : Att) (s : State), regsServed s = true ∧ attachmentOn s att = true) ∧
    (∃ (att : Att) (pin : Fin 4) (hc : Hc) (s : State), regsServed s = true ∧ ctxOf s att = some hc ∧ owns s hc 5 (52 + pin.val) = true) ∧
    (∃ (att : Att) (pin : Fin 4) (hc : Hc) (s : State), regsServed s = true ∧ ctxOf s att = some hc ∧ owns s hc 5 (52 + pin.val) = false) ∧
    (∃ (att : Att) (o : BitVec 16) (s : State), regsServed s = true ∧ attachmentOn s att = true ∧ isRegister o.toNat = true ∧
        o.toNat < 0x60) ∧
    (∃ (att : Att) (o : BitVec 16) (s : State), regsServed s = true ∧ attachmentOn s att = true ∧ isRegister o.toNat = false) ∧
    (∃ (dt : Nat) (hc : Hc) (e : Fin 2) (x : Nat) (s : State), regsServed s = true ∧ (ctx s hc).coalesce = some x ∧ x ≤ s.now + dt ∧
        pcieOf (bindOf s hc) = some e ∧ endpointOn s e = true) ∧
    (∃ (dt : Nat) (hc : Hc) (s : State) (l : Nat × Lock), serving s = true ∧ l ∈ s.locks ∧ l.2.hc = hc ∧ l.2.till ≤ s.now + dt) :=
  ⟨⟨(.pcie 0), { powered with ctxs := [(0, { bind := 1, st := 1, dbIgnored := 3, eqLost := 4 })] }, by decide +kernel⟩,
   ⟨(.pcie 0), 1, 0, { powered with latches := [(8, 5)], owners := [(resKey 5 53, .host 0)] }, by decide +kernel⟩,
   ⟨(.pcie 0), 2, 0, { powered with latches := [(8, 5)], owners := [(resKey 5 53, .host 0)] }, by decide +kernel⟩,
   ⟨(.pcie 0), 0x50, powered, by decide +kernel⟩,
   ⟨(.pcie 0), 0x54, powered, by decide +kernel⟩,
   ⟨1, 0, 0, 9, { powered with now := 8, ctxs := [(0, { bind := 1, st := 1, vec0 := false, coalesce := some 9 })] }, by decide +kernel⟩,
   ⟨1, 0, { powered with now := 8, locks := [(3, ⟨0, 5, 9⟩)] }, (3, (⟨0, 5, 9⟩ : Lock)), by decide +kernel⟩⟩

/-- Every hypothesis of `Bar2WritesWholeWordsOrOctets` is met. -/
theorem witness_Bar2WritesWholeWordsOrOctets :
    (∃ (dt : Nat) (e : Fin 2) (a : BitVec 21) (en : BitVec 16) (d : BitVec 128) (hc : Hc) (s : State), ∃ (b : Bool) (t : State),
        ∃ (en' : BitVec 16) (d' : BitVec 128) (b : Bool), exec (.bar2Write dt e a en d b) s = .next t ∧ ctxOf s (.pcie e) = some hc ∧
        shmServed s = true ∧ en.setWidth 9 ≠ 0 ∧ shmWriteUndef s hc a.toNat (en.setWidth 9 == BitVec.allOnes 9) = none ∧
        en.setWidth 9 = BitVec.allOnes 9 ∧ en'.setWidth 9 = en.setWidth 9 ∧ d'.setWidth 72 = d.setWidth 72) ∧
    (∃ (e : Fin 2) (a : BitVec 21) (en : BitVec 16) (hc : Hc) (s : State), ∃ old, ctxOf s (.pcie e) = some hc ∧ shmServed s = true ∧
        en.setWidth 9 ≠ 0 ∧ shmWriteUndef s hc a.toNat (en.setWidth 9 == BitVec.allOnes 9) = none ∧ en.setWidth 9 ≠ BitVec.allOnes 9 ∧
        (decodePhys (memRaw s.mem a.toNat) = .clean old ∨ decodePhys (memRaw s.mem a.toNat) = .corrected old)) ∧
    (∃ (e : Fin 2) (a : BitVec 21) (en : BitVec 16) (hc : Hc) (s : State), ctxOf s (.pcie e) = some hc ∧ shmServed s = true ∧
        en.setWidth 9 ≠ 0 ∧ shmWriteUndef s hc a.toNat (en.setWidth 9 == BitVec.allOnes 9) = none ∧ en.setWidth 9 ≠ BitVec.allOnes 9 ∧
        decodePhys (memRaw s.mem a.toNat) = .invalid) ∧
    (∃ (e : Fin 2) (a : BitVec 21) (en : BitVec 16) (hc : Hc) (s : State), ctxOf s (.pcie e) = some hc ∧ shmServed s = true ∧
        en.setWidth 9 ≠ 0 ∧ shmWriteUndef s hc a.toNat (en.setWidth 9 == BitVec.allOnes 9) = none ∧ en.setWidth 9 ≠ BitVec.allOnes 9 ∧
        decodePhys (memRaw s.mem a.toNat) = .poisoned) :=
  ⟨⟨1, 0, 0x100000, 0x1FF, 0x123456789ABCDEF012, 0, powered, false, _, 0xFE00 ||| 0x1FF, 0x55000000123456789ABCDEF012, false,
      next_of (by decide +kernel), by decide +kernel⟩,
   ⟨0, 0x100000, 0x101, 0, (writeWord powered 0x100000 7), 7, by decide +kernel⟩,
   ⟨0, 0x100000, 0x101, 0, powered, by decide +kernel⟩,
   ⟨0, 0x100000, 0x101, 0, (poisonWord powered 0x100000), by decide +kernel⟩⟩

/-- Every hypothesis of `Bar2ReadsPoisonAsPoisonedTlp` is met. -/
theorem witness_Bar2ReadsPoisonAsPoisonedTlp :
    (∃ (e : Fin 2) (hc : Hc) (s : State), ctxOf s (.pcie e) = some hc ∧ serving s = true) ∧
    (∃ (e : Fin 2) (hc : Hc) (s : State), ctxOf s (.pcie e) = some hc ∧ coldStarting s = true) ∧
    (∃ (e : Fin 2) (s : State), (endpointOn s e = false ∨ ctxOf s (.pcie e) = none)) :=
  ⟨⟨0, 0, powered, by decide +kernel⟩,
   ⟨0, 0, { powered with start := { phase := .starting, straps := 0x18 } }, by decide +kernel⟩,
   ⟨1, { powered with ctxs := [(0, { bind := 1, st := 1 }), (1, {})] }, by decide +kernel⟩⟩

/-- Every hypothesis of `HspiTransactions` is met. -/
theorem witness_HspiTransactions :
    (∃ (dt : Nat) (p : Fin 4) (h : Octets) (a n : Nat) (hc : Hc) (s : State), regsServed s = true ∧ hspiHeader h = some (0x11, a, n) ∧
        ctxOf s (.hspi p) = some hc ∧ shmServed s = true ∧ 1 ≤ n ∧ n ≤ 256 ∧ a + n ≤ 2 ^ 21 ∧
        (∀ o ∈ (hostFetch 9 n a (hspiTouch (advance dt s) p)).2, o.isSome = true)) ∧
    (∃ (p : Fin 4) (h : Octets) (a n : Nat) (hc : Hc) (s : State), ∃ i, ∃ d, regsServed s = true ∧ hspiHeader h = some (0x11, a, n) ∧
        ctxOf s (.hspi p) = some hc ∧ shmServed s = true ∧ 1 ≤ n ∧ n ≤ 256 ∧ a + n ≤ 2 ^ 21 ∧ i < n ∧
        decodePhys (memRaw s.mem (a + i)) = .clean d) ∧
    (∃ (dt : Nat) (p : Fin 4) (h : Octets) (a n : Nat) (hc : Hc) (s : State), ∃ i, regsServed s = true ∧ hspiHeader h = some (0x11, a, n) ∧
        ctxOf s (.hspi p) = some hc ∧ shmServed s = true ∧ 1 ≤ n ∧ n ≤ 256 ∧ a + n ≤ 2 ^ 21 ∧ i < n ∧
        decodePhys (memRaw s.mem (a + i)) = .poisoned ∧ (hostFetch 9 n a (hspiTouch (advance dt s) p)).2.getD i (some 0) = none ∧ (∀ k < i,
        ((hostFetch 9 n a (hspiTouch (advance dt s) p)).2.getD k none).isSome = true)) ∧
    (∃ (dt : Nat) (p : Fin 4) (h d : Octets) (c : BitVec 16) (a n : Nat) (hc : Hc) (s : State), ∃ v,
        hostWriteRun hc a (packWords n d) (hspiTouch (advance dt s) p) = .ok v ∧ regsServed s = true ∧ hspiHeader h = some (0x12, a, n) ∧
        ctxOf s (.hspi p) = some hc ∧ shmServed s = true ∧ 1 ≤ n ∧ n ≤ 256 ∧ a + n ≤ 2 ^ 21 ∧ d.length = 9 * n ∧ c = crc16 d) ∧
    (∃ (p : Fin 4) (h d : Octets) (c : BitVec 16) (a n : Nat) (hc : Hc) (s : State), regsServed s = true ∧ hspiHeader h = some (0x12, a,
        n) ∧ ctxOf s (.hspi p) = some hc ∧ shmServed s = true ∧ 1 ≤ n ∧ n ≤ 256 ∧ a + n ≤ 2 ^ 21 ∧ d.length = 9 * n ∧ c ≠ crc16 d) ∧
    (∃ (dt : Nat) (p : Fin 4) (h : Octets) (a n : Nat) (s v : State) (os : Octets), readRegs n a (hspiTouch (advance dt s) p) = .ok (v,
        os) ∧ regsServed s = true ∧ hspiHeader h = some (0x21, a, n) ∧ hspiDataPort s p = false ∧ 1 ≤ n ∧ n ≤ 64) ∧
    (∃ (dt : Nat) (p : Fin 4) (h d : Octets) (a n : Nat) (s v : State), writeRegs (.hspi p) n d a (hspiTouch (advance dt s) p) = .ok v ∧
        regsServed s = true ∧ hspiHeader h = some (0x22, a, n) ∧ hspiDataPort s p = false ∧ 1 ≤ n ∧ n ≤ 64 ∧ d.length = 4 * n) ∧
    (∃ (h : Octets) (s : State), regsServed s = true ∧ hspiHeader h = some (0x30, 0, 0)) ∧
    (∃ (s : State), regsServed s = true) ∧
    (∃ (dt : Nat) (p : Fin 4) (h d : Octets) (c : BitVec 16) (b : Bool) (s : State), ∃ i, regsServed s = true ∧ h.length = 9 ∧
        hspiHeader h = none ∧ i ∈ [Instr.hspiWordRead dt p h b, .hspiWordWrite dt p h d c b, .hspiRegRead dt p h b,
        .hspiRegWrite dt p h d c b, .hspiNop dt p h]) :=
  ⟨⟨1, 2, hh 0x11 0x100000 2, 0x100000, 2, 0, hs, by decide +kernel, by decide +kernel, by decide +kernel, by decide +kernel,
      by decide +kernel, by decide +kernel, by decide +kernel, all_some (by decide +kernel)⟩,
   ⟨2, hh 0x11 0x100000 2, 0x100000, 2, 0, (writeWord hs 0x100000 7), 0, 7, by decide +kernel⟩,
   ⟨1, 2, hh 0x11 0x1001FD 3, 0x1001FD, 3, 0, (poisonWord hs 0x1001FF), 2, by decide +kernel⟩,
   ⟨1, 2, hh 0x12 0x100000 1, [1, 2, 3, 4, 5, 6, 7, 8, 9], crc16 [1, 2, 3, 4, 5, 6, 7, 8, 9], 0x100000, 1, 0, hs, _,
       ok_of powered (by decide +kernel), by decide +kernel⟩,
   ⟨2, hh 0x12 0x100000 1, [1, 2, 3, 4, 5, 6, 7, 8, 9], crc16 [1, 2, 3, 4, 5, 6, 7, 8, 9] + 1, 0x100000, 1, 0, hs, by decide +kernel⟩,
   ⟨1, 2, hh 0x21 0 2, 0, 2, hs, (okOf (readRegs 2 0 (hspiTouch (advance 1 hs) 2)) (powered, [])).1,
       (okOf (readRegs 2 0 (hspiTouch (advance 1 hs) 2)) (powered, [])).2, ok_of (powered, []) (by decide +kernel), by decide +kernel⟩,
   ⟨1, 2, hh 0x22 0x64 1, [1, 0, 0, 0], 0x64, 1, hs, _, ok_of powered (by decide +kernel), by decide +kernel⟩,
   ⟨hh 0x30 0 0, hs, by decide +kernel⟩,
   ⟨hs, by decide +kernel⟩,
   ⟨1, 2, [0, 0, 0, 0, 0, 0, 0, 0, 1], [], 0, true, hs, .hspiNop 1 2 [0, 0, 0, 0, 0, 0, 0, 0, 1], by decide +kernel⟩⟩

/-- Every hypothesis of `CompletionIsWrittenToTheRing` is met. -/
theorem witness_CompletionIsWrittenToTheRing :
    ∃ (ws : List Word), ws.length ≤ 255 :=
  ⟨[1, 2], by decide +kernel⟩

/-- Every hypothesis of `PacketChecksInOrder` is met. -/
theorem witness_PacketChecksInOrder :
    (∃ (hc : Hc) (s : State), serving s = true ∧ (ctx s hc).st = 1 ∧ (ctx s hc).stopped = false ∧ 0 < sqCount (ctx s hc) ∧
        sqHeader s hc = .poisoned) ∧
    (∃ (hc : Hc) (op most : Nat) (s : State), ∃ h, serving s = true ∧ (ctx s hc).st = 1 ∧ (ctx s hc).stopped = false ∧
        0 < sqCount (ctx s hc) ∧ sqHeader s hc = .clean h ∧ fld h 11 0 = op ∧ consumable s hc h (1 + most) = false) ∧
    (∃ (hc : Hc) (op most : Nat) (s : State), ∃ h, serving s = true ∧ (ctx s hc).st = 1 ∧ (ctx s hc).stopped = false ∧
        0 < sqCount (ctx s hc) ∧ sqHeader s hc = .clean h ∧ fld h 11 0 = op ∧ consumable s hc h (1 + most) = true ∧ fld h 45 41 = 0 ∧
        fld h 71 48 = 0 ∧ fld h 47 46 ≠ hc.val) ∧
    (∃ (hc : Hc) (op least most : Nat) (s : State), ∃ h, serving s = true ∧ (ctx s hc).st = 1 ∧ (ctx s hc).stopped = false ∧
        0 < sqCount (ctx s hc) ∧ sqHeader s hc = .clean h ∧ fld h 11 0 = op ∧ consumable s hc h (1 + most) = true ∧ fld h 45 41 = 0 ∧
        fld h 71 48 = 0 ∧ fld h 47 46 = hc.val ∧ (256 < fld h 37 28 ∨ fld h 37 28 < least)) ∧
    (∃ (dt : Nat) (hc : Hc) (op least most : Nat) (s : State), ∃ h, serving s = true ∧ (ctx s hc).st = 1 ∧ (ctx s hc).stopped = false ∧
        0 < sqCount (ctx s hc) ∧ sqHeader s hc = .clean h ∧ fld h 11 0 = op ∧ consumable s hc h (1 + most) = true ∧ fld h 45 41 = 0 ∧
        fld h 71 48 = 0 ∧ fld h 47 46 = hc.val ∧ fld h 37 28 ≤ 256 ∧ least ≤ fld h 37 28 ∧
        (readPayload hc (fld h 37 28) ((ctx s hc).sqHead.toNat + 1) (consume (advance dt s) hc h)).2 = none) ∧
    (∃ (dt : Nat) (hc : Hc) (op least most : Nat) (s : State), ∃ h, ∃ ws, serving s = true ∧ (ctx s hc).st = 1 ∧
        (ctx s hc).stopped = false ∧ 0 < sqCount (ctx s hc) ∧ sqHeader s hc = .clean h ∧ fld h 11 0 = op ∧
        consumable s hc h (1 + most) = true ∧ fld h 45 41 = 0 ∧ fld h 71 48 = 0 ∧ fld h 47 46 = hc.val ∧ fld h 37 28 ≤ 256 ∧
        least ≤ fld h 37 28 ∧ (readPayload hc (fld h 37 28) ((ctx s hc).sqHead.toNat + 1) (consume (advance dt s) hc h)).2 = some ws) :=
  ⟨⟨0, (poisonWord (setCtx (writeWords powered 0x1000 [(at' 0 0x300 ||| at' 12 5 ||| at' 28 3 ||| at' 46 0), 1, 2,
      3]) 0 { bind := 1, st := 1, sqTail := 4 }) 0x1000), by decide +kernel⟩,
   ⟨0, 0x300, 2, (setCtx (writeWords powered 0x1000 [(at' 0 0x300 ||| at' 12 5 ||| at' 28 3 ||| at' 46 0), 1, 2,
       3]) 0 { bind := 1, st := 1, sqTail := 4, cqReserved := 1022 }), (at' 0 0x300 ||| at' 12 5 ||| at' 28 3 ||| at' 46 0),
       by decide +kernel⟩,
   ⟨0, 0x300, 2, (setCtx (writeWords powered 0x1000 [(at' 0 0x300 ||| at' 12 5 ||| at' 28 3 ||| at' 46 1), 1, 2,
       3]) 0 { bind := 1, st := 1, sqTail := 4 }), (at' 0 0x300 ||| at' 12 5 ||| at' 28 3 ||| at' 46 1), by decide +kernel⟩,
   ⟨0, 0x300, 3, 2, (setCtx (writeWords powered 0x1000 [(at' 0 0x300 ||| at' 12 5 ||| at' 28 2 ||| at' 46 0), 1, 2,
       3]) 0 { bind := 1, st := 1, sqTail := 4 }), (at' 0 0x300 ||| at' 12 5 ||| at' 28 2 ||| at' 46 0), by decide +kernel⟩,
   ⟨0, 0, 0x300, 3, 2, (poisonWord (setCtx (writeWords powered 0x1000 [(at' 0 0x300 ||| at' 12 5 ||| at' 28 3 ||| at' 46 0), 1, 2,
       3]) 0 { bind := 1, st := 1, sqTail := 4 }) 0x1003), (at' 0 0x300 ||| at' 12 5 ||| at' 28 3 ||| at' 46 0), by decide +kernel⟩,
   ⟨0, 0, 0x300, 3, 2, (setCtx (writeWords powered 0x1000 [(at' 0 0x300 ||| at' 12 5 ||| at' 28 3 ||| at' 46 0), 1, 2,
       3]) 0 { bind := 1, st := 1, sqTail := 4 }), (at' 0 0x300 ||| at' 12 5 ||| at' 28 3 ||| at' 46 0), [1, 2, 3], by decide +kernel⟩⟩

/-- Every hypothesis of `OpcodeOutsideCatalogueIsRefused` is met. -/
theorem witness_OpcodeOutsideCatalogueIsRefused :
    ∃ (hc : Hc) (h : Word) (s : State), serving s = true ∧ (ctx s hc).st = 1 ∧ (ctx s hc).stopped = false ∧ 0 < sqCount (ctx s hc) ∧
        sqHeader s hc = .clean h ∧ catalogued (fld h 11 0) = none ∧ consumable s hc h 1 = true ∧ fld h 45 41 = 0 ∧ fld h 71 48 = 0 :=
  ⟨0, (at' 0 0xFFF ||| at' 12 5), (sq 0xFFF [] powered), by decide +kernel⟩

/-- Every hypothesis of `NopInfoAndMemoryCommands` is met. -/
theorem witness_NopInfoAndMemoryCommands :
    (∃ (dt : Nat) (hc : Hc) (s u : State) (p : Packet), Took dt hc 0x000 0 0 s p u) ∧
    (∃ (dt : Nat) (hc : Hc) (s u : State) (p : Packet), Took dt hc 0x001 0 16 s p u) ∧
    (∃ (dt : Nat) (hc : Hc) (s u v : State) (p : Packet), ∃ ws, Took dt hc 0x800 1 255 s p u ∧
        hostReads 13 (fld (p.word 1) 30 23) (fld (p.word 1) 22 0) u = (v, .inl ws) ∧ reservedSet (p.word 1) (bits 30 0) = false ∧
        fld (p.word 1) 30 23 ≠ 0) ∧
    (∃ (dt : Nat) (hc : Hc) (s u v : State) (p : Packet), ∃ ws, ∃ i d, Took dt hc 0x800 1 255 s p u ∧
        hostReads 13 (fld (p.word 1) 30 23) (fld (p.word 1) 22 0) u = (v, .inl ws) ∧ reservedSet (p.word 1) (bits 30 0) = false ∧
        fld (p.word 1) 30 23 ≠ 0 ∧ i < ws.length ∧ fld (p.word 1) 22 0 + i < 0x3C0000 ∧
        decodePhys (memRaw u.mem (fld (p.word 1) 22 0 + i)) = .clean d) ∧
    (∃ (dt : Nat) (hc : Hc) (s u v : State) (p : Packet), ∃ i, Took dt hc 0x800 1 255 s p u ∧
        hostReads 13 (fld (p.word 1) 30 23) (fld (p.word 1) 22 0) u = (v, .inr i) ∧ reservedSet (p.word 1) (bits 30 0) = false ∧
        fld (p.word 1) 30 23 ≠ 0) ∧
    (∃ (dt : Nat) (hc : Hc) (s u v : State) (p : Packet), Took dt hc 0x801 2 0 s p u ∧
        hostWriteRun hc (fld (p.word 1) 22 0) ((p.payload.drop 1).take (fld (p.word 1) 30 23)) u = .ok v ∧
        reservedSet (p.word 1) (bits 30 0) = false ∧ fld (p.word 1) 30 23 ≠ 0 ∧ fld (p.word 1) 30 23 + 1 ≤ p.payload.length) :=
  ⟨⟨0, 0, (sq 0 [] powered), _, _, took_of (by decide +kernel)⟩,
   ⟨0, 0, (sq 1 [] powered), _, _, took_of (by decide +kernel)⟩,
   ⟨0, 0, (sq 0x800 [at' 0 0x100000 ||| at' 23 2] powered), _, _, _, [0, 0], took_of (by decide +kernel), pair_of (by decide +kernel),
       by decide +kernel⟩,
   ⟨0, 0, (writeWord (sq 0x800 [at' 0 0x100000 ||| at' 23 2] powered) 0x100001 7), _, _, _, [0, 7], 1, 7, took_of (by decide +kernel),
       pair_of (by decide +kernel), by decide +kernel⟩,
   ⟨0, 0, (poisonWord (sq 0x800 [at' 0 0x100000 ||| at' 23 255] powered) 0x1000FE), _, _, _, 254, took_of (by decide +kernel),
       pair_of (by decide +kernel), by decide +kernel⟩,
   ⟨0, 0, (sq 0x801 [at' 0 0x100000 ||| at' 23 1, 77] powered), _, _, _, took_of (by decide +kernel), ok_of powered (by decide +kernel),
       by decide +kernel⟩⟩

/-- Every hypothesis of `OtpReadPacksFuseBits` is met. -/
theorem witness_OtpReadPacksFuseBits :
    (∃ (dt : Nat) (hc : Hc) (s u : State) (p : Packet), Took dt hc 0x004 1 32 s p u ∧ reservedSet (p.word 1) (bits 25 0) = false ∧
        ((fld (p.word 1) 25 14) = 0 ∨ 2304 < (fld (p.word 1) 25 14))) ∧
    (∃ (dt : Nat) (hc : Hc) (s u : State) (p : Packet), Took dt hc 0x004 1 32 s p u ∧ reservedSet (p.word 1) (bits 25 0) = false ∧
        1 ≤ (fld (p.word 1) 25 14) ∧ (fld (p.word 1) 25 14) ≤ 2304) :=
  ⟨⟨0, 0, (sq 4 [at' 0 0 ||| at' 14 0] { powered with otp := BitVec.ofNat 16384 (2 ^ 450 - 1) }), _, _, took_of (by decide +kernel),
      by decide +kernel⟩,
   ⟨0, 0, (sq 4 [at' 0 100 ||| at' 14 400] { powered with otp := BitVec.ofNat 16384 (2 ^ 450 - 1) }), _, _, took_of (by decide +kernel),
       by decide +kernel⟩⟩

/-- Every hypothesis of `ResourceCommands` is met. -/
theorem witness_ResourceCommands :
    (∃ (dt : Nat) (hc : Hc) (s u : State) (p : Packet), Took dt hc 0x008 1 1 s p u ∧ reservedSet (p.word 1) (bits 23 0) = false ∧
        isResource (fld (p.word 1) 7 0) (fld (p.word 1) 23 8) = true ∧
        tblGet u.owners (resKey (fld (p.word 1) 7 0) (fld (p.word 1) 23 8)) = none) ∧
    (∃ (dt : Nat) (hc : Hc) (s u : State) (p : Packet), Took dt hc 0x008 1 1 s p u ∧ reservedSet (p.word 1) (bits 23 0) = false ∧
        isResource (fld (p.word 1) 7 0) (fld (p.word 1) 23 8) = true ∧
        tblGet u.owners (resKey (fld (p.word 1) 7 0) (fld (p.word 1) 23 8)) = some (.host hc)) ∧
    (∃ (dt : Nat) (hc : Hc) (s u : State) (p : Packet), ∃ h, Took dt hc 0x008 1 1 s p u ∧ reservedSet (p.word 1) (bits 23 0) = false ∧
        isResource (fld (p.word 1) 7 0) (fld (p.word 1) 23 8) = true ∧
        tblGet u.owners (resKey (fld (p.word 1) 7 0) (fld (p.word 1) 23 8)) = some h ∧ h ≠ .host hc) ∧
    (∃ (dt : Nat) (hc : Hc) (s u : State) (p : Packet), Took dt hc 0x009 1 0 s p u ∧ reservedSet (p.word 1) (bits 23 0) = false ∧
        isResource (fld (p.word 1) 7 0) (fld (p.word 1) 23 8) = true ∧ owns u hc (fld (p.word 1) 7 0) (fld (p.word 1) 23 8) = true ∧
        keysRise 0 u.owners = true ∧ keysRise 0 u.pins.fn = true ∧ keysRise 0 u.pins.level = true) ∧
    (∃ (dt : Nat) (hc : Hc) (s u : State) (p : Packet), Took dt hc 0x009 1 0 s p u ∧ reservedSet (p.word 1) (bits 23 0) = false ∧
        isResource (fld (p.word 1) 7 0) (fld (p.word 1) 23 8) = true ∧ owns u hc (fld (p.word 1) 7 0) (fld (p.word 1) 23 8) = false) ∧
    (∃ (dt : Nat) (hc : Hc) (s u : State) (p : Packet), ∃ o : Hc, Took dt hc 0x00A 1 1 s p u ∧ reservedSet (p.word 1) (bits 23 0) = false ∧
        isResource (fld (p.word 1) 7 0) (fld (p.word 1) 23 8) = true ∧
        (tblGet u.owners (resKey (fld (p.word 1) 7 0) (fld (p.word 1) 23 8))) = some (.host o)) ∧
    (∃ (dt : Nat) (hc : Hc) (s u : State) (p : Packet), Took dt hc 0x00A 1 1 s p u ∧ reservedSet (p.word 1) (bits 23 0) = false ∧
        isResource (fld (p.word 1) 7 0) (fld (p.word 1) 23 8) = true ∧
        (tblGet u.owners (resKey (fld (p.word 1) 7 0) (fld (p.word 1) 23 8))) = none) ∧
    (∃ (dt : Nat) (hc : Hc) (s u : State) (p : Packet), ∃ code, Took dt hc 0x00A 1 1 s p u ∧ reservedSet (p.word 1) (bits 23 0) = false ∧
        isResource (fld (p.word 1) 7 0) (fld (p.word 1) 23 8) = true ∧
        (tblGet u.owners (resKey (fld (p.word 1) 7 0) (fld (p.word 1) 23 8))) = some (.feature code)) :=
  ⟨⟨0, 0, (sq 8 [at' 0 3 ||| at' 8 7] { powered with owners := [(resKey 3 5, .host 0), (resKey 3 6, .host 1), (resKey 3 8, .feature 3), (resKey 5 4, .host 0)] }),
      _, _, took_of (by decide +kernel), by decide +kernel⟩,
   ⟨0, 0, (sq 8 [at' 0 3 ||| at' 8 5] { powered with owners := [(resKey 3 5, .host 0), (resKey 3 6, .host 1), (resKey 3 8, .feature 3), (resKey 5 4, .host 0)] }),
       _, _, took_of (by decide +kernel), by decide +kernel⟩,
   ⟨0, 0, (sq 8 [at' 0 3 ||| at' 8 6] { powered with owners := [(resKey 3 5, .host 0), (resKey 3 6, .host 1), (resKey 3 8, .feature 3), (resKey 5 4, .host 0)] }),
       _, _, .host 1, took_of (by decide +kernel), by decide +kernel⟩,
   ⟨0, 0, (sq 9 [at' 0 3 ||| at' 8 5] { powered with owners := [(resKey 3 5, .host 0), (resKey 3 6, .host 1), (resKey 3 8, .feature 3), (resKey 5 4, .host 0)] }),
       _, _, took_of (by decide +kernel), by decide +kernel⟩,
   ⟨0, 0, (sq 9 [at' 0 3 ||| at' 8 6] { powered with owners := [(resKey 3 5, .host 0), (resKey 3 6, .host 1), (resKey 3 8, .feature 3), (resKey 5 4, .host 0)] }),
       _, _, took_of (by decide +kernel), by decide +kernel⟩,
   ⟨0, 0, (sq 10 [at' 0 3 ||| at' 8 6] { powered with owners := [(resKey 3 5, .host 0), (resKey 3 6, .host 1), (resKey 3 8, .feature 3), (resKey 5 4, .host 0)] }),
       _, _, 1, took_of (by decide +kernel), by decide +kernel⟩,
   ⟨0, 0, (sq 10 [at' 0 3 ||| at' 8 7] { powered with owners := [(resKey 3 5, .host 0), (resKey 3 6, .host 1), (resKey 3 8, .feature 3), (resKey 5 4, .host 0)] }),
       _, _, took_of (by decide +kernel), by decide +kernel⟩,
   ⟨0, 0, (sq 10 [at' 0 3 ||| at' 8 8] { powered with owners := [(resKey 3 5, .host 0), (resKey 3 6, .host 1), (resKey 3 8, .feature 3), (resKey 5 4, .host 0)] }),
       _, _, 3, took_of (by decide +kernel), by decide +kernel⟩⟩

/-- Every hypothesis of `LockCommands` is met. -/
theorem witness_LockCommands :
    (∃ (dt : Nat) (hc : Hc) (s u : State) (p : Packet), Took dt hc 0x010 2 1 s p u ∧ reservedSet (p.word 1) (bits 63 0) = false ∧
        reservedSet (p.word 2) (bits 15 0) = false ∧ (∀ g < 64, (fld (p.word 1) 63 0).testBit g = true → lockedBy u hc g = none)) ∧
    (∃ (dt : Nat) (hc : Hc) (s u : State) (p : Packet), ∃ (g : Nat) (o : Hc), Took dt hc 0x010 2 1 s p u ∧
        reservedSet (p.word 1) (bits 63 0) = false ∧ reservedSet (p.word 2) (bits 15 0) = false ∧ g < 64 ∧
        (fld (p.word 1) 63 0).testBit g = true ∧ lockedBy u hc g = some o ∧ (∀ k < g,
        (fld (p.word 1) 63 0).testBit k = true → lockedBy u hc k = none)) ∧
    (∃ (dt : Nat) (hc : Hc) (s u : State) (p : Packet), Took dt hc 0x011 1 0 s p u ∧ reservedSet (p.word 1) (bits 63 0) = false ∧ (∀ g < 64,
        (fld (p.word 1) 63 0).testBit g = true → (fun g => match tblGet u.locks g with | some l => l.hc == hc | none => false) g = true) ∧
        keysRise 0 u.locks = true) ∧
    (∃ (dt : Nat) (hc : Hc) (s u : State) (p : Packet), ∃ g, Took dt hc 0x011 1 0 s p u ∧ reservedSet (p.word 1) (bits 63 0) = false ∧
        g < 64 ∧ (fld (p.word 1) 63 0).testBit g = true ∧
        ((fun g => match tblGet u.locks g with | some l => l.hc == hc | none => false) g = false)) :=
  ⟨⟨0, 0, (sq 16 [at' 0 5 ||| at' 63 1, 0] { powered with locks := [(3, ⟨1, 100, 200⟩), (63, ⟨0, 100, 200⟩)] }), _, _,
      took_of (by decide +kernel), by decide +kernel⟩,
   ⟨0, 0, (sq 16 [at' 0 8, 10] { powered with locks := [(3, ⟨1, 100, 200⟩), (63, ⟨0, 100, 200⟩)] }), _, _, 3, 1,
       took_of (by decide +kernel), by decide +kernel⟩,
   ⟨0, 0, (sq 17 [at' 63 1] { powered with locks := [(3, ⟨1, 100, 200⟩), (63, ⟨0, 100, 200⟩)] }), _, _, took_of (by decide +kernel),
       by decide +kernel⟩,
   ⟨0, 0, (sq 17 [at' 3 1] { powered with locks := [(3, ⟨1, 100, 200⟩), (63, ⟨0, 100, 200⟩)] }), _, _, 3, took_of (by decide +kernel),
       by decide +kernel⟩⟩

/-- Every hypothesis of `TransactionStaging` is met. -/
theorem witness_TransactionStaging :
    (∃ (dt : Nat) (hc : Hc) (s u : State) (p : Packet), Took dt hc 0x01A 0 0 s p u) ∧
    (∃ (dt : Nat) (hc : Hc) (s u : State) (p : Packet), Took dt hc 0x019 2 1 s p u ∧ p.hdr.getLsbD 39 = true ∧
        pairsReserved p.payload = false ∧ (ctx u hc).txn = none) ∧
    (∃ (dt : Nat) (hc : Hc) (s u : State) (p : Packet), ∃ x, Took dt hc 0x019 2 1 s p u ∧ p.hdr.getLsbD 39 = true ∧
        pairsReserved p.payload = false ∧ (ctx u hc).txn = some x ∧
        (128 < (((pairsOf p.payload).filter (fun e => writable e.1)).foldl stage x).length)) ∧
    (∃ (dt : Nat) (hc : Hc) (s u : State) (p : Packet), ∃ x, Took dt hc 0x019 2 1 s p u ∧ p.hdr.getLsbD 39 = true ∧
        pairsReserved p.payload = false ∧ (ctx u hc).txn = some x ∧
        ((((pairsOf p.payload).filter (fun e => writable e.1)).foldl stage x).length ≤ 128)) ∧
    (∃ (x : List (Nat × BitVec 64)) (e : Nat × BitVec 64), ∃ id, id ≠ e.1 ∧ ((x.any (fun y => y.1 == e.1)) = true)) ∧
    (∃ (dt : Nat) (hc : Hc) (s u : State) (p : Packet), Took dt hc 0x018 1 255 s p u ∧
        ((p.payload.take 255).any (fun w => reservedSet w (bits 15 0)) = false)) ∧
    (∃ (id : Nat), (paramRow id).isSome = true) ∧
    (∃ (id : Nat), paramRow id = none) :=
  ⟨⟨0, 0, (sq 0x01A [] { powered with ctxs := [(0, { bind := 1, st := 1, txn := some [(0x10, 2000)] })] }), _, _,
      took_of (by decide +kernel)⟩,
   ⟨0, 0, (setCtx (writeWords powered 0x1000 [at' 0 0x019 ||| at' 12 5 ||| at' 28 2 ||| at' 39 1, at' 0 0x10,
       9]) 0 { ctx powered 0 with sqTail := 3 }), _, _, took_of (by decide +kernel), by decide +kernel⟩,
   ⟨0, 0, (setCtx (writeWords ({ powered with ctxs := [(0, { bind := 1, st := 1, txn := some ((List.range 128).map (fun i => (0x4000 + i, 0))) })] }) 0x1000 [at' 0 0x019 ||| at' 12 5 ||| at' 28 2 ||| at' 39 1,
       at' 0 0x10, 9]) 0 { ctx ({ powered with ctxs := [(0, { bind := 1, st := 1, txn := some ((List.range 128).map (fun i => (0x4000 + i, 0))) })] }) 0 with sqTail := 3 }),
       _, _, (List.range 128).map (fun i => (0x4000 + i, 0)), took_of (by decide +kernel), by decide +kernel⟩,
   ⟨0, 0, (setCtx (writeWords { powered with ctxs := [(0, { bind := 1, st := 1, txn := some [(0x10, 2000)] })] } 0x1000 [at' 0 0x019 ||| at' 12 5 ||| at' 28 2 ||| at' 39 1,
       at' 0 0x10, 9]) 0 { ctx ({ powered with ctxs := [(0, { bind := 1, st := 1, txn := some [(0x10, 2000)] })] }) 0 with sqTail := 3 }),
       _, _, [(0x10, 2000)], took_of (by decide +kernel), by decide +kernel⟩,
   ⟨[(0x10, 5)], (0x10, 7), 0x11, by decide +kernel⟩,
   ⟨0, 0, (sq 0x018 [0x10, 0x11] powered), _, _, took_of (by decide +kernel), by decide +kernel⟩,
   ⟨0x10, by decide +kernel⟩,
   ⟨1, by decide +kernel⟩⟩

/-- Every hypothesis of `ParameterWrites` is met. -/
theorem witness_ParameterWrites :
    (∃ (dt : Nat) (hc : Hc) (s u : State) (p : Packet), ∃ i o, Took dt hc 0x019 2 1 s p u ∧ p.hdr.getLsbD 39 = false ∧
        pairsReserved p.payload = false ∧ firstLocked u hc (pairsOf p.payload) = some (i, o)) ∧
    (∃ (dt : Nat) (hc : Hc) (s u : State) (p : Packet), ∃ i h, Took dt hc 0x019 2 1 s p u ∧ p.hdr.getLsbD 39 = false ∧
        pairsReserved p.payload = false ∧ firstLocked u hc (pairsOf p.payload) = none ∧ valuesInRange u (pairsOf p.payload) = true ∧
        firstHeld 0 (pairsOf p.payload) u = some (i, h)) ∧
    (∃ (dt : Nat) (hc : Hc) (s u : State) (p : Packet), Took dt hc 0x019 2 1 s p u ∧ p.hdr.getLsbD 39 = false ∧
        pairsReserved p.payload = false ∧ firstLocked u hc (pairsOf p.payload) = none ∧ valuesInRange u (pairsOf p.payload) = true ∧
        firstHeld 0 (pairsOf p.payload) u = none) ∧
    (∃ (dt : Nat) (hc : Hc) (s u : State) (p : Packet), Took dt hc 0x01B 0 1 s p u ∧ (ctx u hc).txn = none) ∧
    (∃ (dt : Nat) (hc : Hc) (s u : State) (p : Packet), ∃ vs, ∃ i o, Took dt hc 0x01B 0 1 s p u ∧ (ctx u hc).txn = some vs ∧
        firstLocked u hc vs = some (i, o)) ∧
    (∃ (dt : Nat) (hc : Hc) (s u : State) (p : Packet), ∃ vs, ∃ i h, Took dt hc 0x01B 0 1 s p u ∧ (ctx u hc).txn = some vs ∧
        firstLocked u hc vs = none ∧ valuesInRange u vs = true ∧ firstHeld 0 vs u = some (i, h)) ∧
    (∃ (dt : Nat) (hc : Hc) (s u : State) (p : Packet), ∃ vs, Took dt hc 0x01B 0 1 s p u ∧ (ctx u hc).txn = some vs ∧
        firstLocked u hc vs = none ∧ valuesInRange u vs = true ∧ firstHeld 0 vs u = none) ∧
    (∃ (dt : Nat) (hc : Hc) (s u : State) (p : Packet), Took dt hc 0x01C 0 0 s p u) ∧
    (∃ (id : Nat), ∃ other, writable id = true ∧ other ≠ id) ∧
    (∃ (id : Nat), writable id = false) :=
  ⟨⟨0, 0, (sq 0x019 [at' 0 0x10, 2000] { powered with locks := [(groupOf 0x10, ⟨1, 100, 200⟩)] }), _, _, 0, 1, took_of (by decide +kernel),
      by decide +kernel⟩,
   ⟨0, 0, (sq 0x019 [at' 0 0x20, 2] powered), _, _, 0, .host 1, took_of (by decide +kernel), by decide +kernel⟩,
   ⟨0, 0, (sq 0x019 [at' 0 0x10, 2000] powered), _, _, took_of (by decide +kernel), by decide +kernel⟩,
   ⟨0, 0, (sq 0x01B [] powered), _, _, took_of (by decide +kernel), by decide +kernel⟩,
   ⟨0, 0, (sq 0x01B [] { { powered with ctxs := [(0, { bind := 1, st := 1, txn := some [(0x10, 2000)] })] } with locks := [(groupOf 0x10, ⟨1, 100, 200⟩)] }),
       _, _, [(0x10, 2000)], 0, 1, took_of (by decide +kernel), by decide +kernel⟩,
   ⟨0, 0, (sq 0x01B [] ({ powered with ctxs := [(0, { bind := 1, st := 1, txn := some [(0x20, 2)] })] })), _, _, [(0x20, 2)], 0, .host 1,
       took_of (by decide +kernel), by decide +kernel⟩,
   ⟨0, 0, (sq 0x01B [] ({ powered with ctxs := [(0, { bind := 1, st := 1, txn := some [(0x10, 2000)] })] })), _, _, [(0x10, 2000)],
       took_of (by decide +kernel), by decide +kernel⟩,
   ⟨0, 0, (sq 0x01C [] ({ powered with ctxs := [(0, { bind := 1, st := 1, txn := some [(0x10, 2000)] })] })), _, _,
       took_of (by decide +kernel)⟩,
   ⟨0x10, 0x11, by decide +kernel⟩,
   ⟨0x30, by decide +kernel⟩⟩

/-- Every hypothesis of `ErrlogReadEmptiesTheLog` is met. -/
theorem witness_ErrlogReadEmptiesTheLog :
    ∃ (dt : Nat) (hc : Hc) (s u : State) (p : Packet), Took dt hc 0x803 0 32 s p u :=
  ⟨0, 0, (sq 0x803 [] { powered with errLog := { entries := [(0, ⟨0x80000001, 5⟩), (15, ⟨0x80000002, 6⟩)], next := 1, overwritten := 3 } }),
      _, _, took_of (by decide +kernel)⟩

/-- Every hypothesis of `CounterReads` is met. -/
theorem witness_CounterReads :
    (∃ (dt : Nat) (hc : Hc) (s u : State) (p : Packet), Took dt hc 0x802 1 255 s p u ∧
        ((p.payload.take 8).any (fun w => reservedSet w (bits 23 0)) = false) ∧
        ((p.payload.take 8).any (fun w => fld w 23 16 == 0) = false) ∧
        (255 < ((p.payload.take 8).flatMap (fun w => (List.range (fld w 23 16)).map (fun i => fld w 15 0 + i))).length)) ∧
    (∃ (dt : Nat) (hc : Hc) (s u : State) (p : Packet), Took dt hc 0x802 1 255 s p u ∧
        ((p.payload.take 8).any (fun w => reservedSet w (bits 23 0)) = false) ∧
        ((p.payload.take 8).any (fun w => fld w 23 16 == 0) = false) ∧
        (((p.payload.take 8).flatMap (fun w => (List.range (fld w 23 16)).map (fun i => fld w 15 0 + i))).length ≤ 255)) ∧
    (∃ (id : Nat), ∃ j, ((0x118 ≤ id ∧ id ≤ 0x11B) ∨ (0x400 ≤ id ∧ id < 0x500)) ∧ j ≠ id) ∧
    (∃ (id : Nat), 0x340 ≤ id ∧ id < 0x374) ∧
    (∃ (id : Nat), 0x1700 ≤ id ∧ id < 0x1800 ∧ id % 8 = 6) ∧
    (∃ (id : Nat), (¬ ((0x118 ≤ id ∧ id ≤ 0x11B) ∨ (0x400 ≤ id ∧ id < 0x500) ∨ (0x340 ≤ id ∧ id < 0x374) ∨ (0x1700 ≤ id ∧ id < 0x1800 ∧
        id % 8 = 6)))) :=
  ⟨⟨0, 0, (sq 0x802 [at' 0 0x100 ||| at' 16 255, at' 0 0x100 ||| at' 16 1] powered), _, _, took_of (by decide +kernel), by decide +kernel⟩,
   ⟨0, 0, (sq 0x802 [at' 0 0x100 ||| at' 16 3] { powered with counters := [(0x100, 6)] }), _, _, took_of (by decide +kernel),
       by decide +kernel⟩,
   ⟨0x118, 0, by decide +kernel⟩,
   ⟨0x340, by decide +kernel⟩,
   ⟨0x1706, by decide +kernel⟩,
   ⟨0x117, by decide +kernel⟩⟩

/-- Every hypothesis of `EventDelivery` is met. -/
theorem witness_EventDelivery :
    (∃ (dt : Nat) (hc : Hc) (s u : State) (p : Packet), Took dt hc 0x020 2 0 s p u ∧ reservedSet (p.word 1) (bits 17 0) = false ∧
        reservedSet (p.word 2) (bits 15 0) = false ∧ fld (p.word 2) 15 0 ≤ 10000 ∧ fld (p.word 1) 9 8 = 0) ∧
    (∃ (dt : Nat) (hc : Hc) (s u : State) (p : Packet), Took dt hc 0x020 2 0 s p u ∧ reservedSet (p.word 1) (bits 17 0) = false ∧
        reservedSet (p.word 2) (bits 15 0) = false ∧ fld (p.word 2) 15 0 ≤ 10000 ∧ fld (p.word 1) 9 8 = 1 ∧
        owns u hc 5 (52 + (fld (p.word 1) 12 11)) = true ∧ keysRise 0 u.pinRoutes = true) ∧
    (∃ (dt : Nat) (hc : Hc) (s u : State) (p : Packet), Took dt hc 0x020 2 0 s p u ∧ reservedSet (p.word 1) (bits 17 0) = false ∧
        reservedSet (p.word 2) (bits 15 0) = false ∧ fld (p.word 2) 15 0 ≤ 10000 ∧ fld (p.word 1) 9 8 = 1 ∧
        owns u hc 5 (52 + (fld (p.word 1) 12 11)) = false) ∧
    (∃ (hc : Hc) (s : State) (e : EvOut) (es : List EvOut), serving s = true ∧ takeEntry hc s.evOut = some (e, es)) ∧
    (∃ (dt : Nat) (hc : Hc) (src : BitVec 8) (x : Nat) (s : State), serving s = true ∧
        (tblAt s.routes (4 * src.toNat + hc.val) {}).opened = some x ∧ x ≤ s.now + dt) :=
  ⟨⟨0, 0, (sq 0x020 [at' 0 33 ||| at' 10 1 ||| at' 13 31,
      10000] { powered with owners := [(resKey 5 53, .host 0)], routes := [(4 * 33, { on := true, opened := some 5 })] }), _, _,
      took_of (by decide +kernel), by decide +kernel⟩,
   ⟨0, 0, (sq 0x020 [at' 0 33 ||| at' 8 1 ||| at' 11 1 ||| at' 10 1,
       0] { powered with owners := [(resKey 5 53, .host 0)], routes := [(4 * 33, { on := true, opened := some 5 })] }), _, _,
       took_of (by decide +kernel), by decide +kernel⟩,
   ⟨0, 0, (sq 0x020 [at' 0 33 ||| at' 8 1 ||| at' 11 2 ||| at' 10 1,
       0] { powered with owners := [(resKey 5 53, .host 0)], routes := [(4 * 33, { on := true, opened := some 5 })] }), _, _,
       took_of (by decide +kernel), by decide +kernel⟩,
   ⟨0, { powered with ctxs := [(0, { bind := 1, st := 1, eqTail := 504 })], evOut := [⟨1, 1, ⟨9, 1, 0, 0, 0⟩⟩, ⟨0, 1, ⟨8, 1, 0, 1, 2⟩⟩] },
       ⟨0, 1, ⟨8, 1, 0, 1, 2⟩⟩, [⟨1, 1, ⟨9, 1, 0, 0, 0⟩⟩], by decide +kernel⟩,
   ⟨1, 0, 33, 5, { powered with now := 4, routes := [(132, { on := true, window := 3, opened := some 5 })] }, by decide +kernel⟩⟩

/-- Every hypothesis of `HostCommandMemoryFrame` is met. -/
theorem witness_HostCommandMemoryFrame :
    ∃ (dt : Nat) (hc : Hc) (s t : State) (c : Instr), exec c s = .next t ∧ c ∈ [Instr.nop dt hc, .deviceInfo dt hc, .otpRead dt hc,
        .resourceClaim dt hc, .resourceRelease dt hc, .resourceQuery dt hc, .lockAcquire dt hc, .lockRelease dt hc, .txnBegin dt hc,
        .txnAbort dt hc, .paramGet dt hc, .eventRoute dt hc, .errlogRead dt hc, .opcodeRefused dt hc] :=
  ⟨0, 0, (sq 0 [] powered), _, .nop 0 0, next_of (by decide +kernel), by decide +kernel⟩

/-- Every hypothesis of `CheckCodeCorrectsOneDetectsTwo` is met. -/
theorem witness_CheckCodeCorrectsOneDetectsTwo :
    (∃ (j : Nat), j < 8) ∧
    (∃ (i : Nat), i < 80) ∧
    (∃ (i j : Nat), i < j ∧ j < 80) :=
  ⟨⟨7, by decide +kernel⟩,
   ⟨0, by decide +kernel⟩,
   ⟨0, 79, by decide +kernel⟩⟩

/-- Every hypothesis of `ConsumerReadDeliversCorrected` is met. -/
theorem witness_ConsumerReadDeliversCorrected :
    ∃ (s : State) (a : Nat) (d : Word), regionOf a ≠ .reserved ∧ decodePhys (memRaw s.mem a) = .corrected d ∧ (∀ k ∈ [1, 2, 3],
        logFind s.errLog a k = none) :=
  ⟨{ powered with mem := [(0x100000, physOf 7 ^^^ 4#81)] }, 0x100000, 7, by decide +kernel⟩

/-- Every hypothesis of `ScrubberSweep` is met. -/
theorem witness_ScrubberSweep :
    (∃ (dt : Nat) (s : State), running s = true ∧ s.scrub.running = true ∧ scrubRows ≤ s.scrub.nextRow ∧
        s.scrub.passStart + secC s.scrub.period ≤ s.now + dt) ∧
    (∃ (dt : Nat) (s : State), running s = true ∧ s.scrub.running = true ∧ s.scrub.nextRow < scrubRows ∧
        s.scrub.nextRow * secC s.scrub.period ≤ (s.now + dt - s.scrub.passStart) * scrubRows ∧ s.scrub.passStart ≤ s.now + dt) ∧
    (∃ (m : Move) (s : State), running s = true ∧ s.scrub.move = some m ∧ s.scrub.waiting = []) ∧
    (∃ (s : State) (a : Nat), decodePhys (memRaw s.mem a) = .poisoned) :=
  ⟨⟨0, { powered with now := secC 8, scrub := { running := true, nextRow := 223232 } }, by decide +kernel⟩,
   ⟨0, { powered with now := secC 8, scrub := { running := true, nextRow := 223231 } }, by decide +kernel⟩,
   ⟨⟨0x100005, 2⟩, { powered with scrub := { running := true, move := some ⟨0x100005, 2⟩ } }, by decide +kernel⟩,
   ⟨poisonWord powered 9, 9, by decide +kernel⟩⟩

/-- Every hypothesis of `ArbitersGrantOrPark` is met. -/
theorem witness_ArbitersGrantOrPark :
    (∃ (a : Fin 52) (q : ArbReq) (s : State), running s = true ∧ (arbRank s a.val q.code q.header).isSome = true ∧
        (tblAt s.arbs a.val {}).holders = [] ∧ (tblAt s.arbs a.val {}).parked = [] ∧ (tblAt s.arbs a.val {}).stalled = []) ∧
    (∃ (dt sub : Nat) (a : Fin 52) (q : ArbReq) (s : State), ∃ h, running s = true ∧ (arbRank s a.val q.code q.header).isSome = true ∧
        (tblAt s.arbs a.val {}).holders = [h] ∧ h.since + h.burst ≤ (arbCycles a.val (s.now + dt) + sub) ∧
        (tblAt s.arbs a.val {}).parked = [] ∧ (tblAt s.arbs a.val {}).stalled = [] ∧
        arbServers a.val ≤ (tblAt s.arbs a.val {}).holders.length ∧
        (∀ h ∈ (tblAt s.arbs a.val {}).parked ++ (tblAt s.arbs a.val {}).stalled, h.code ≠ q.code) ∧
        (a.val < 40 ∨ q.code ≠ a.val - 38 ∨ ∀ h ∈ (tblAt s.arbs a.val {}).holders, 2 ≤ h.code) ∧ queued a.val (tblAt s.arbs a.val {}) < 8) ∧
    (∃ (a : Fin 52) (q : ArbReq) (s : State), running s = true ∧ (arbRank s a.val q.code q.header).isSome = true ∧
        arbServers a.val ≤ (tblAt s.arbs a.val {}).holders.length ∧
        (∀ h ∈ (tblAt s.arbs a.val {}).parked ++ (tblAt s.arbs a.val {}).stalled, h.code ≠ q.code) ∧
        (a.val < 40 ∨ q.code ≠ a.val - 38 ∨ ∀ h ∈ (tblAt s.arbs a.val {}).holders, 2 ≤ h.code) ∧ 8 ≤ queued a.val (tblAt s.arbs a.val {}) ∧
        dedicated a.val q.code = false) ∧
    (∃ (a : Fin 52) (q : ArbReq) (s : State), running s = true ∧ (arbRank s a.val q.code q.header).isSome = true ∧ 40 ≤ a.val ∧
        q.code = a.val - 38 ∧ (∀ h ∈ (tblAt s.arbs a.val {}).holders, h.code ≤ 1) ∧ (tblAt s.arbs a.val {}).parked = [] ∧
        (tblAt s.arbs a.val {}).stalled = []) :=
  ⟨⟨0, ⟨1, 4, false⟩, powered, by decide +kernel⟩,
   ⟨3, 0, 0, ⟨1, 4, false⟩, { powered with arbs := [(0, { holders := [⟨9, 1, false, 0⟩] })] }, ⟨9, 1, false, 0⟩, by decide +kernel⟩,
   ⟨0, ⟨1, 4, false⟩, { powered with arbs := [(0, { holders := List.replicate 4 ⟨9, 1, false, 0⟩, parked := (List.range 8).map (fun i => ⟨33 + i, 1, false, 0⟩) })] },
       by decide +kernel⟩,
   ⟨40, ⟨2, 4, false⟩, powered, by decide +kernel⟩⟩

/-- Every hypothesis of `FrameFifoAndDrain` is met. -/
theorem witness_FrameFifoAndDrain :
    (∃ (dt : Nat) (b : Band) (ctx : Fin 144) (kind : Fin 4) (n k l : Nat) (x : Lane) (s : State), running s = true ∧
        (fifo (syncReads (advance dt s)) b.val).held = [] ∧
        ((syncReads (advance dt s)).rx.tails.find? (fun t => t.band == b && t.ctx == ctx.val) = none) ∧
        laneOfCtx (syncReads (advance dt s)) b.val ctx.val = some (k, l, x) ∧ x.st = .payload ∧
        segmentFits kind.val n ((x.octets.take x.length).drop x.written).length x.fseq = true) ∧
    (∃ (data : List Word), data.length ≤ 64) ∧
    (∃ (f : Fin 4) (s : State), running s = true ∧ swapDue f.val (fifo s f.val) = true) ∧
    (∃ (b : Band) (h : Word) (rest : List Word) (s : State), ∃ k, running s = true ∧ (pool s b.val).stopped = false ∧
        (fifo s b.val).partly = [] ∧ (fifo s b.val).draining.map (·.1) = fifoWord h :: fifoWord h :: rest.map fifoWord ∧ fld h 25 24 = 0 ∧
        fld h 32 26 ≤ rest.length ∧ freeBuffer (pool s b.val) = some k) ∧
    (∃ (b : Band) (h : Word) (rest : List Word) (s : State), freeBuffer (pool s b.val) = none ∧ running s = true ∧
        (pool s b.val).stopped = false ∧ (fifo s b.val).partly = [] ∧
        (fifo s b.val).draining.map (·.1) = fifoWord h :: fifoWord h :: rest.map fifoWord ∧ fld h 25 24 = 0 ∧ fld h 32 26 ≤ rest.length) ∧
    (∃ (b : Band) (s : State), running s = true ∧ (pool s b.val).stopped = true ∧ (freeBuffer (pool s b.val)).isSome = true) :=
  ⟨⟨1, 0, 5, 0, 2, 0, 0, laneOf (chanOf (syncReads (advance 1 ({ powered with rx := { chans := [(0, { status := 1, ringLen := 4096, lane0 := { st := .payload, ctx := some 5, mark := some ⟨3, 4, 5, 6, 1, 1, none, none, 0⟩, length := 40, octets := List.replicate 20 7 } })] } }))) 0) 0,
      { powered with rx := { chans := [(0, { status := 1, ringLen := 4096, lane0 := { st := .payload, ctx := some 5, mark := some ⟨3, 4, 5, 6, 1, 1, none, none, 0⟩, length := 40, octets := List.replicate 20 7 } })] } },
      by decide +kernel⟩,
   ⟨[3, 4], by decide +kernel⟩,
   ⟨0, { powered with fifos := [(0, { filling := List.replicate 512 (fifoWord 3, false), held := [(fifoWord 4, false)] })] },
       by decide +kernel⟩,
   ⟨0, at' 8 77 ||| at' 26 2, [11, 12, 13],
       { powered with fifos := [(0, { draining := [(fifoWord (at' 8 77 ||| at' 26 2), false), (fifoWord (at' 8 77 ||| at' 26 2), false), (fifoWord 11, false), (fifoWord 12, false), (fifoWord 13, false)] })] },
       0, by decide +kernel⟩,
   ⟨0, at' 8 77 ||| at' 26 2, [11, 12, 13], fullRx, test_full_pool, by decide +kernel⟩,
   ⟨0, { powered with rx := { pools := [(0, { stopped := true })] } }, by decide +kernel⟩⟩

/-- Every hypothesis of `LanesDetectAndDemodulate` is met. -/
theorem witness_LanesDetectAndDemodulate :
    (∃ (dt : Nat) (b : Band) (ch : Fin 64) (mark detect : Nat) (metric : BitVec 10) (foff : Int) (s : State), running s = true ∧
        (chanOf (syncReads (advance dt s)) (chanKey b.val ch.val)).status = 1 ∧
        present (syncReads (advance dt s)) b.val (chanOf (syncReads (advance dt s)) (chanKey b.val ch.val)) ≠ 0 ∧ mark ≤ detect ∧
        spansUnits (chanOf (syncReads (advance dt s)) (chanKey b.val ch.val)) ((rxProfile s b.val (defProfile (chanOf (syncReads (advance dt s)) (chanKey b.val ch.val)).def_)).1) mark detect = true ∧
        detect ≤ writePointer (syncReads (advance dt s)) (chanOf (syncReads (advance dt s)) (chanKey b.val ch.val)) ∧
        fld ((rxProfile s b.val (defProfile (chanOf (syncReads (advance dt s)) (chanKey b.val ch.val)).def_)).1) 32 23 < metric.toNat ∧
        foff.natAbs ≤ captureHz (fld ((rxProfile s b.val (defProfile (chanOf (syncReads (advance dt s)) (chanKey b.val ch.val)).def_)).1) 2 1) (fld ((rxProfile s b.val (defProfile (chanOf (syncReads (advance dt s)) (chanKey b.val ch.val)).def_)).1) 10 3) ∧
        (chanOf (syncReads (advance dt s)) (chanKey b.val ch.val)).lane0.st = .search) ∧
    (∃ (dt : Nat) (x k l d : Nat) (m : Mark) (s : State), running s = true ∧ l < 2 ∧
        (oldest ((lockedLanes (syncReads (advance dt s))).filter (fun e => (pickDv (syncReads (advance dt s)) (chanRate (chanOf (syncReads (advance dt s)) e.2.1))).isSome)) = some (x,
        k, l)) ∧ pickDv (syncReads (advance dt s)) (chanRate (chanOf (syncReads (advance dt s)) k)) = some d ∧
        (laneOf (chanOf (syncReads (advance dt s)) k) l).mark = some m) ∧
    (∃ (dt : Nat) (b : Band) (ch : Fin 64) (l : Fin 2) (m : Mark) (s : State), running s = true ∧
        (laneOf (chanOf (syncReads (advance dt s)) (chanKey b.val ch.val)) l.val).st = .rewind ∧
        (laneOf (chanOf (syncReads (advance dt s)) (chanKey b.val ch.val)) l.val).mark = some m ∧
        hasRead (laneOf (chanOf (syncReads (advance dt s)) (chanKey b.val ch.val)) l.val) m.detect = true) ∧
    (∃ (dt : Nat) (b : Band) (ch : Fin 64) (l : Fin 2) (obs : HeaderObs) (endAt : Nat) (s : State), ∃ n r fcs4 w, running s = true ∧
        (laneOf (chanOf (syncReads (advance dt s)) (chanKey b.val ch.val)) l.val).st = .demod ∧
        (laneOf (chanOf (syncReads (advance dt s)) (chanKey b.val ch.val)) l.val).stalled = false ∧
        hasRead (laneOf (chanOf (syncReads (advance dt s)) (chanKey b.val ch.val)) l.val) endAt = true ∧
        (judgeHeader (rxProfile s b.val (defProfile (chanOf (syncReads (advance dt s)) (chanKey b.val ch.val)).def_)).1 (laneOf (chanOf (syncReads (advance dt s)) (chanKey b.val ch.val)) l.val).switched obs) = .pass n r fcs4 w) ∧
    (∃ (dt : Nat) (b : Band) (ch : Fin 64) (l : Fin 2) (obs : HeaderObs) (endAt : Nat) (s : State), ∃ cause, running s = true ∧
        (laneOf (chanOf (syncReads (advance dt s)) (chanKey b.val ch.val)) l.val).st = .demod ∧
        (laneOf (chanOf (syncReads (advance dt s)) (chanKey b.val ch.val)) l.val).stalled = false ∧
        hasRead (laneOf (chanOf (syncReads (advance dt s)) (chanKey b.val ch.val)) l.val) endAt = true ∧
        (judgeHeader (rxProfile s b.val (defProfile (chanOf (syncReads (advance dt s)) (chanKey b.val ch.val)).def_)).1 (laneOf (chanOf (syncReads (advance dt s)) (chanKey b.val ch.val)) l.val).switched obs) = .fail cause) ∧
    (∃ (dt : Nat) (b : Band) (ch : Fin 64) (l : Fin 2) (obs : HeaderObs) (endAt : Nat) (s : State), ∃ i e, running s = true ∧
        (laneOf (chanOf (syncReads (advance dt s)) (chanKey b.val ch.val)) l.val).st = .demod ∧
        (laneOf (chanOf (syncReads (advance dt s)) (chanKey b.val ch.val)) l.val).stalled = false ∧
        hasRead (laneOf (chanOf (syncReads (advance dt s)) (chanKey b.val ch.val)) l.val) endAt = true ∧
        (judgeHeader (rxProfile s b.val (defProfile (chanOf (syncReads (advance dt s)) (chanKey b.val ch.val)).def_)).1 (laneOf (chanOf (syncReads (advance dt s)) (chanKey b.val ch.val)) l.val).switched obs) = .switch i e ∧
        parB s (0xB400 + b.val) = true ∧ i ≤ 6 ∧ leastBins 1 i ≤ defBins (chanOf (syncReads (advance dt s)) (chanKey b.val ch.val)).def_) ∧
    (∃ (dt : Nat) (b : Band) (ch : Fin 64) (l : Fin 2) (s : State), running s = true ∧
        (laneOf (chanOf (syncReads (advance dt s)) (chanKey b.val ch.val)) l.val).st = .payload ∧
        (laneOf (chanOf (syncReads (advance dt s)) (chanKey b.val ch.val)) l.val).stalled = false ∧
        firstQueued (syncReads (advance dt s)) (chanKey b.val ch.val) (laneOf (chanOf (syncReads (advance dt s)) (chanKey b.val ch.val)) l.val) = true) ∧
    (∃ (dt : Nat) (b : Band) (ch : Fin 64) (l : Fin 2) (obs : RxObs) (m : Mark) (c : Nat) (s : State), running s = true ∧
        (laneOf (chanOf (syncReads (advance dt s)) (chanKey b.val ch.val)) l.val).st = .payload ∧
        (laneOf (chanOf (syncReads (advance dt s)) (chanKey b.val ch.val)) l.val).mark = some m ∧
        (laneOf (chanOf (syncReads (advance dt s)) (chanKey b.val ch.val)) l.val).ctx = some c ∧
        { (laneOf (chanOf (syncReads (advance dt s)) (chanKey b.val ch.val)) l.val) with octets := takeOctets (fld (rxProfile s b.val (defProfile (chanOf (syncReads (advance dt s)) (chanKey b.val ch.val)).def_)).1 2 1 == 0) (laneOf (chanOf (syncReads (advance dt s)) (chanKey b.val ch.val)) l.val) obs.rest }.octets.length = wanted (fld (rxProfile s b.val (defProfile (chanOf (syncReads (advance dt s)) (chanKey b.val ch.val)).def_)).1 2 1 == 0) (laneOf (chanOf (syncReads (advance dt s)) (chanKey b.val ch.val)) l.val) ∧
        (laneOf (chanOf (syncReads (advance dt s)) (chanKey b.val ch.val)) l.val).stalled = false ∧
        hasRead (laneOf (chanOf (syncReads (advance dt s)) (chanKey b.val ch.val)) l.val) obs.endInstant = true ∧
        (laneOf (chanOf (syncReads (advance dt s)) (chanKey b.val ch.val)) l.val).ends = [] ∧
        (laneOf (chanOf (syncReads (advance dt s)) (chanKey b.val ch.val)) l.val).queued = [] ∧
        ((if (fld (rxProfile s b.val (defProfile (chanOf (syncReads (advance dt s)) (chanKey b.val ch.val)).def_)).1 2 1 == 0) then crcOk { (laneOf (chanOf (syncReads (advance dt s)) (chanKey b.val ch.val)) l.val) with octets := takeOctets (fld (rxProfile s b.val (defProfile (chanOf (syncReads (advance dt s)) (chanKey b.val ch.val)).def_)).1 2 1 == 0) (laneOf (chanOf (syncReads (advance dt s)) (chanKey b.val ch.val)) l.val) obs.rest } else fcsOk (laneOf (chanOf (syncReads (advance dt s)) (chanKey b.val ch.val)) l.val).fcs4 { (laneOf (chanOf (syncReads (advance dt s)) (chanKey b.val ch.val)) l.val) with octets := takeOctets (fld (rxProfile s b.val (defProfile (chanOf (syncReads (advance dt s)) (chanKey b.val ch.val)).def_)).1 2 1 == 0) (laneOf (chanOf (syncReads (advance dt s)) (chanKey b.val ch.val)) l.val) obs.rest }.octets) = true)) ∧
    (∃ (dt : Nat) (b : Band) (ch : Fin 64) (l : Fin 2) (obs : RxObs) (m : Mark) (c : Nat) (s : State), running s = true ∧
        (laneOf (chanOf (syncReads (advance dt s)) (chanKey b.val ch.val)) l.val).st = .payload ∧
        (laneOf (chanOf (syncReads (advance dt s)) (chanKey b.val ch.val)) l.val).mark = some m ∧
        (laneOf (chanOf (syncReads (advance dt s)) (chanKey b.val ch.val)) l.val).ctx = some c ∧
        { (laneOf (chanOf (syncReads (advance dt s)) (chanKey b.val ch.val)) l.val) with octets := takeOctets (fld (rxProfile s b.val (defProfile (chanOf (syncReads (advance dt s)) (chanKey b.val ch.val)).def_)).1 2 1 == 0) (laneOf (chanOf (syncReads (advance dt s)) (chanKey b.val ch.val)) l.val) obs.rest }.octets.length = wanted (fld (rxProfile s b.val (defProfile (chanOf (syncReads (advance dt s)) (chanKey b.val ch.val)).def_)).1 2 1 == 0) (laneOf (chanOf (syncReads (advance dt s)) (chanKey b.val ch.val)) l.val) ∧
        (laneOf (chanOf (syncReads (advance dt s)) (chanKey b.val ch.val)) l.val).stalled = false ∧
        hasRead (laneOf (chanOf (syncReads (advance dt s)) (chanKey b.val ch.val)) l.val) obs.endInstant = true ∧
        (laneOf (chanOf (syncReads (advance dt s)) (chanKey b.val ch.val)) l.val).ends = [] ∧
        (laneOf (chanOf (syncReads (advance dt s)) (chanKey b.val ch.val)) l.val).queued = [] ∧
        ((if (fld (rxProfile s b.val (defProfile (chanOf (syncReads (advance dt s)) (chanKey b.val ch.val)).def_)).1 2 1 == 0) then crcOk { (laneOf (chanOf (syncReads (advance dt s)) (chanKey b.val ch.val)) l.val) with octets := takeOctets (fld (rxProfile s b.val (defProfile (chanOf (syncReads (advance dt s)) (chanKey b.val ch.val)).def_)).1 2 1 == 0) (laneOf (chanOf (syncReads (advance dt s)) (chanKey b.val ch.val)) l.val) obs.rest } else fcsOk (laneOf (chanOf (syncReads (advance dt s)) (chanKey b.val ch.val)) l.val).fcs4 { (laneOf (chanOf (syncReads (advance dt s)) (chanKey b.val ch.val)) l.val) with octets := takeOctets (fld (rxProfile s b.val (defProfile (chanOf (syncReads (advance dt s)) (chanKey b.val ch.val)).def_)).1 2 1 == 0) (laneOf (chanOf (syncReads (advance dt s)) (chanKey b.val ch.val)) l.val) obs.rest }.octets) = false)) :=
  ⟨⟨819200, 0, 0, 3, 34, 1023, -4,
      { powered with chains := [(0, { st := .rx, freq := windowLo powered 0 })], image := { rxProfiles := [(0, (at' 17 2 ||| at' 1 1 ||| at' 23 5 ||| at' 0 1, 0))] }, rx := { chans := [(0, { status := 1, ringLen := 4096, def_ := 1, lane0 := { st := .search } })] } },
      by decide +kernel⟩,
   ⟨1, 3 * 131072, 0, 0, 0, ⟨3, 4, 5, 6, 1, 1, none, none, 0⟩,
       { powered with rx := { chans := [(0, { status := 1, ringLen := 4096, def_ := 1, lane0 := { st := .locked, mark := some ⟨3, 4, 5, 6, 1, 1, none, none, 0⟩ } })] } },
       by decide +kernel⟩,
   ⟨1, 0, 0, 0, ⟨3, 4, 5, 6, 1, 1, none, none, 0⟩,
       { powered with image := { rxProfiles := [(0, (at' 0 1 ||| at' 1 1, 0))] }, rx := { chans := [(0, { status := 1, ringLen := 4096, def_ := 14336, lane0 := { st := .rewind, mark := some ⟨3, 4, 5, 6, 1, 1, none, none, 0⟩, read := 100 * readUnit, ctx := some 5, length := 0, octets := [] } })] } },
       by decide +kernel⟩,
   ⟨1, 0, 0, 0, .fsk true 30 false false, 5,
       { powered with image := { rxProfiles := [(0, (at' 0 1 ||| at' 1 1, 0))] }, rx := { chans := [(0, { status := 1, ringLen := 4096, def_ := 14336, lane0 := { st := .demod, mark := some ⟨3, 4, 5, 6, 1, 1, none, none, 0⟩, read := 100 * readUnit, ctx := some 5, length := 0, octets := [] } })] } },
       30, 0, false, false, by decide +kernel⟩,
   ⟨1, 0, 0, 0, .fsk true 0 false false, 5,
       { powered with image := { rxProfiles := [(0, (at' 0 1 ||| at' 1 1, 0))] }, rx := { chans := [(0, { status := 1, ringLen := 4096, def_ := 14336, lane0 := { st := .demod, mark := some ⟨3, 4, 5, 6, 1, 1, none, none, 0⟩, read := 100 * readUnit, ctx := some 5, length := 0, octets := [] } })] } },
       lenOver, by decide +kernel⟩,
   ⟨1, 0, 0, 0, .fskModeSwitch true 1 60, 5,
       { powered with image := { rxProfiles := [(0, (at' 0 1 ||| at' 1 1, 0))] }, rx := { chans := [(0, { status := 1, ringLen := 4096, def_ := 14336, lane0 := { st := .demod, mark := some ⟨3, 4, 5, 6, 1, 1, none, none, 0⟩, read := 100 * readUnit, ctx := some 5, length := 0, octets := [] } })] } , inForce := [(0xB400, 1)] },
       1, 60, by decide +kernel⟩,
   ⟨1, 0, 0, 0, { powered with image := { rxProfiles := [(0, (at' 0 1 ||| at' 1 1, 0))] }, rx := { chans := [(0, { status := 1, ringLen := 4096, def_ := 14336, lane0 := { st := .payload, mark := some ⟨3, 4, 5, 6, 1, 1, none, none, 0⟩, read := 100 * readUnit, ctx := some 5, length := 2, octets := [], queued := [0], whiten := false } })] } },
       by decide +kernel⟩,
   ⟨1, 0, 0, 0, endObs (leOctets 2 (fcs16 [1]).toNat), ⟨3, 4, 5, 6, 1, 1, none, none, 0⟩, 5,
       { powered with image := { rxProfiles := [(0, (at' 0 1 ||| at' 1 1, 0))] }, rx := { chans := [(0, { status := 1, ringLen := 4096, def_ := 14336, lane0 := { st := .payload, mark := some ⟨3, 4, 5, 6, 1, 1, none, none, 0⟩, read := 100 * readUnit, ctx := some 5, length := 3, octets := [1] } })] } },
       by decide +kernel⟩,
   ⟨1, 0, 0, 0, endObs [2, 3], ⟨3, 4, 5, 6, 1, 1, none, none, 0⟩, 5,
       { powered with image := { rxProfiles := [(0, (at' 0 1 ||| at' 1 1, 0))] }, rx := { chans := [(0, { status := 1, ringLen := 4096, def_ := 14336, lane0 := { st := .payload, mark := some ⟨3, 4, 5, 6, 1, 1, none, none, 0⟩, read := 100 * readUnit, ctx := some 5, length := 3, octets := [1] } })] } },
       by decide +kernel⟩⟩

/-- Every hypothesis of `LanesLoseFrames` is met. -/
theorem witness_LanesLoseFrames :
    (∃ (dt : Nat) (b : Band) (ch : Fin 64) (l : Fin 2) (s : State), running s = true ∧
        carries (laneOf (chanOf (syncReads (advance dt s)) (chanKey b.val ch.val)) l.val) = true ∧
        (laneOf (chanOf (syncReads (advance dt s)) (chanKey b.val ch.val)) l.val).st ≠ .locked ∧
        (laneOf (chanOf (syncReads (advance dt s)) (chanKey b.val ch.val)) l.val).read / readUnit + (chanOf (syncReads (advance dt s)) (chanKey b.val ch.val)).ringLen ≤ writePointer (syncReads (advance dt s)) (chanOf (syncReads (advance dt s)) (chanKey b.val ch.val))) ∧
    (∃ (dt : Nat) (b : Band) (ch : Fin 64) (l : Fin 2) (s : State), ∃ m e, running s = true ∧
        carries (laneOf (chanOf (syncReads (advance dt s)) (chanKey b.val ch.val)) l.val) = true ∧
        (laneOf (chanOf (syncReads (advance dt s)) (chanKey b.val ch.val)) l.val).st ≠ .locked ∧
        (laneOf (chanOf (syncReads (advance dt s)) (chanKey b.val ch.val)) l.val).mark = some m ∧ m.blankAt = some e ∧
        readPast (chanOf (syncReads (advance dt s)) (chanKey b.val ch.val)) (laneOf (chanOf (syncReads (advance dt s)) (chanKey b.val ch.val)) l.val) e = true) ∧
    (∃ (dt : Nat) (b : Band) (ch : Fin 64) (s : State), running s = true ∧
        (chanOf (syncReads (advance dt s)) (chanKey b.val ch.val)).status = 1 ∧
        ((((chanOf (syncReads (advance dt s)) (chanKey b.val ch.val)).marks.filter (fun m => overtaken (syncReads (advance dt s)) (chanOf (syncReads (advance dt s)) (chanKey b.val ch.val)) m.mark (par s 0xA800))).length + ((fun (x : Lane) => x.st == .locked && (match x.mark with | some m => overtaken (syncReads (advance dt s)) (chanOf (syncReads (advance dt s)) (chanKey b.val ch.val)) m.mark m.pre | none => false)) (chanOf (syncReads (advance dt s)) (chanKey b.val ch.val)).lane0).toNat + ((fun (x : Lane) => x.st == .locked && (match x.mark with | some m => overtaken (syncReads (advance dt s)) (chanOf (syncReads (advance dt s)) (chanKey b.val ch.val)) m.mark m.pre | none => false)) (chanOf (syncReads (advance dt s)) (chanKey b.val ch.val)).lane1).toNat) ≠ 0)) ∧
    (∃ (chain : Chain) (s : State), running s = true ∧ inRx (chainSt s chain.val) = true ∧ blanked s (bandOf chain.val) = false) :=
  ⟨⟨usC 100000000, 0, 0, 0,
      { powered with image := { rxProfiles := [(0, (at' 0 1 ||| at' 1 1, 0))] }, rx := { chans := [(0, { status := 1, ringLen := 4096, def_ := 14336, lane0 := { st := .payload, mark := some ⟨3, 4, 5, 6, 1, 1, none, none, 0⟩, read := 100 * readUnit, ctx := some 5, length := 3, octets := [1], stalled := true } })] } },
      by decide +kernel⟩,
   ⟨1, 0, 0, 0, { powered with image := { rxProfiles := [(0, (at' 0 1 ||| at' 1 1, 0))] }, rx := { chans := [(0, { status := 1, ringLen := 4096, def_ := 14336, lane0 := { st := .payload, mark := some ⟨3, 4, 5, 6, 1, 1, none, some 1, 0⟩, read := 100 * readUnit, ctx := some 5, length := 3, octets := [1] } })] } },
       ⟨3, 4, 5, 6, 1, 1, none, some 1, 0⟩, 1, by decide +kernel⟩,
   ⟨msC 100, 0, 0, { powered with rx := { chans := [(0, { status := 1, ringLen := 4096, def_ := 1, marks := [⟨3, 4, 5, 6, 1, 1, none, none, 0⟩] })] } },
       by decide +kernel⟩,
   ⟨11, { powered with chains := [(11, { st := .rx, gain := 5 })] }, by decide +kernel⟩⟩

/-- Every hypothesis of `ChainStatesAndCalibration` is met. -/
theorem witness_ChainStatesAndCalibration :
    (∃ (s : State), running s = true) ∧
    (∃ (dt : Nat) (c : Chain) (e : Nat) (s : State), running s = true ∧ (chainSt s c.val).target = some (.tx, e) ∧ e ≤ s.now + dt ∧
        (chainSt s c.val).stop = none ∧ (chainSt s c.val).st ≠ .cal ∧ (chainSt s c.val).st ≠ .tx ∧
        s.now + dt < e + usC (chainSt s c.val).rampUs) ∧
    (∃ (dt : Nat) (c : Chain) (e : Nat) (s : State), ∃ id i, running s = true ∧ (chainSt s c.val).target = some (.tx, e) ∧ e ≤ s.now + dt ∧
        (chainSt s c.val).stop = none ∧ (chainSt s c.val).st = .tx ∧ (chainSt s c.val).holder = .item id ∧ findItem s id = some i) ∧
    (∃ (c : Chain) (e : Nat) (s : State), running s = true ∧ (chainSt s c.val).st ≠ .cal ∧ (chainSt s c.val).target = some (.rx, e) ∧
        (chainSt s c.val).holder = .none ∧ (chainSt s c.val).next = none ∧ (chainSt s c.val).want = none ∧
        (chainSt s c.val).blankFrom = none ∧ chainEnabled s c.val = true ∧ (s.calRuns.find? (fun r => r.chain.val == c.val) = none) ∧
        (chainSt s c.val).freq = windowLo s (bandOf c.val)) ∧
    (∃ (dt : Nat) (c : Chain) (g : Nat) (s : State), running s = true ∧ parB s 0x1801 = true ∧
        backgroundBusy (advance dt s) (bandOf c.val) = false ∧ backgroundPoint (advance dt s) (bandOf c.val) = some (c.val, g)) ∧
    (∃ (c : Chain) (s : State), running s = true ∧ (chainSt s c.val).st = .cal ∧ (chainSt s c.val).calPoint ≤ lastGrid (bandOf c.val)) ∧
    (∃ (dt : Nat) (hc : Hc) (w : Word) (s u : State) (p : Packet), Took dt hc 0x100 1 1 s p u ∧ p.payload = [w] ∧
        reservedSet w (bits 7 0) = false ∧ (fld w 3 0) < 12 ∧ fld w 7 4 = 0) ∧
    (∃ (dt : Nat) (hc : Hc) (w : Word) (s u : State) (p : Packet), Took dt hc 0x100 1 1 s p u ∧ p.payload = [w] ∧
        reservedSet w (bits 7 0) = false ∧ (fld w 3 0) < 12 ∧ groupLocked u hc 0x1400 = false ∧ fld w 7 4 = 1) ∧
    (∃ (dt : Nat) (hc : Hc) (w : Word) (s u : State) (p : Packet), Took dt hc 0x100 1 1 s p u ∧ p.payload = [w] ∧
        reservedSet w (bits 7 0) = false ∧ (fld w 3 0) < 12 ∧ groupLocked u hc 0x1400 = false ∧ fld w 7 4 = 2) ∧
    (∃ (dt : Nat) (hc : Hc) (w : Word) (s u : State) (p : Packet), Took dt hc 0x100 1 1 s p u ∧ p.payload = [w] ∧
        reservedSet w (bits 7 0) = false ∧ (fld w 3 0) < 12 ∧ fld w 7 4 = 3) ∧
    (∃ (dt : Nat) (hc : Hc) (w : Word) (s u : State) (p : Packet), ∃ o, Took dt hc 0x100 1 1 s p u ∧ p.payload = [w] ∧
        reservedSet w (bits 7 0) = false ∧ (fld w 3 0) < 12 ∧ lockedBy u hc (groupOf 0x1400) = some o ∧ (fld w 7 4 = 1 ∨ fld w 7 4 = 2)) ∧
    (∃ (dt : Nat) (hc : Hc) (s u : State) (p : Packet), Took dt hc 0x102 1 1 s p u ∧ reservedSet (p.word 1) (bits 27 0) = false ∧
        (fld (p.word 1) 3 0) < 12 ∧ fld (p.word 1) 5 4 ≠ 3 ∧
        (fld (p.word 1) 5 4 = 0 → inBand (bandOf (fld (p.word 1) 3 0)) (fld (p.word 1) 27 6) = true) ∧
        chainEnabled u (fld (p.word 1) 3 0) = true ∧ calScope u (fld (p.word 1) 3 0) (fld (p.word 1) 5 4) (fld (p.word 1) 27 6) ≠ []) :=
  ⟨⟨{ powered with inForce := [(0xD002, 1)], chains := [(0, { st := .rx, freq := 5 })] }, by decide +kernel⟩,
   ⟨1, 0, 1, (withItem { itm with st := .onAir } { st := .synthOn, rampUs := 5, target := some (.tx, 1), holder := .item 7 } powered),
       by decide +kernel⟩,
   ⟨1, 0, 1, (withItem { itm with st := .onAir } { st := .tx, rampUs := 5, target := some (.tx, 1), holder := .item 7 } powered), 7,
       { itm with st := .onAir }, by decide +kernel⟩,
   ⟨0, 1, { powered with chains := [(0, { target := some (.rx, 1), freq := windowLo powered 0 })] }, by decide +kernel⟩,
   ⟨1, 4, ((backgroundPoint (advance 1 planned) (bandOf 4)).getD (0, 0)).2, planned, by decide +kernel⟩,
   ⟨11, { powered with chains := [(11, { st := .cal, calPoint := 84, holder := .background })] }, by decide +kernel⟩,
   ⟨0, 0, at' 0 11 ||| at' 4 0, (sq 0x100 [at' 0 11 ||| at' 4 0] powered), _, _, took_of (by decide +kernel), by decide +kernel⟩,
   ⟨0, 0, at' 0 11 ||| at' 4 1, (sq 0x100 [at' 0 11 ||| at' 4 1] powered), _, _, took_of (by decide +kernel), by decide +kernel⟩,
   ⟨0, 0, at' 0 11 ||| at' 4 2, (sq 0x100 [at' 0 11 ||| at' 4 2] powered), _, _, took_of (by decide +kernel), by decide +kernel⟩,
   ⟨0, 0, at' 0 11 ||| at' 4 3, (sq 0x100 [at' 0 11 ||| at' 4 3] powered), _, _, took_of (by decide +kernel), by decide +kernel⟩,
   ⟨0, 0, at' 0 11 ||| at' 4 1, (sq 0x100 [at' 0 11 ||| at' 4 1] { powered with locks := [(groupOf 0x1400, ⟨1, 5, 900⟩)] }), _, _, 1,
       took_of (by decide +kernel), by decide +kernel⟩,
   ⟨0, 0, (sq 0x102 [at' 0 11 ||| at' 4 1] powered), _, _, took_of (by decide +kernel), by decide +kernel⟩⟩

/-- Every hypothesis of `CommitAndQuench` is met. -/
theorem witness_CommitAndQuench :
    (∃ (dt item : Nat) (i : Item) (c : Chain) (s : State), ∃ st, running s = true ∧ findItem s item = some i ∧ i.chain = some c ∧
        i.st = .eligible ∧ cyclesAt (readCal (advance dt s) c.val (gridOf (bandOf c.val) (txLo s (bandOf c.val) i.freq (occupied s (bandOf c.val) i.mode)))) i.instant - usC 300 ≤ (readCal (advance dt s) c.val (gridOf (bandOf c.val) (txLo s (bandOf c.val) i.freq (occupied s (bandOf c.val) i.mode)))).now ∧
        (i.src = .group → groupEntries (readCal (advance dt s) c.val (gridOf (bandOf c.val) (txLo s (bandOf c.val) i.freq (occupied s (bandOf c.val) i.mode)))) i ≠ []) ∧
        (commitCheck (readCal (advance dt s) c.val (gridOf (bandOf c.val) (txLo s (bandOf c.val) i.freq (occupied s (bandOf c.val) i.mode)))) c.val (airtime6 (readCal (advance dt s) c.val (gridOf (bandOf c.val) (txLo s (bandOf c.val) i.freq (occupied s (bandOf c.val) i.mode)))) (bandOf c.val) i.mode i.psdu (ramp (readCal (advance dt s) c.val (gridOf (bandOf c.val) (txLo s (bandOf c.val) i.freq (occupied s (bandOf c.val) i.mode)))) c.val)) (plan (readCal (advance dt s) c.val (gridOf (bandOf c.val) (txLo s (bandOf c.val) i.freq (occupied s (bandOf c.val) i.mode)))) c.val i).1 (cyclesAt (readCal (advance dt s) c.val (gridOf (bandOf c.val) (txLo s (bandOf c.val) i.freq (occupied s (bandOf c.val) i.mode)))) i.instant + usC i.tolerance)) = some st) ∧
    (∃ (dt item : Nat) (i : Item) (c : Chain) (s : State), ∃ frame v, running s = true ∧ findItem s item = some i ∧ i.chain = some c ∧
        i.st = .eligible ∧ cyclesAt (readCal (advance dt s) c.val (gridOf (bandOf c.val) (txLo s (bandOf c.val) i.freq (occupied s (bandOf c.val) i.mode)))) i.instant - usC 300 ≤ (readCal (advance dt s) c.val (gridOf (bandOf c.val) (txLo s (bandOf c.val) i.freq (occupied s (bandOf c.val) i.mode)))).now ∧
        (i.src = .group → groupEntries (readCal (advance dt s) c.val (gridOf (bandOf c.val) (txLo s (bandOf c.val) i.freq (occupied s (bandOf c.val) i.mode)))) i ≠ []) ∧
        (commitCheck (readCal (advance dt s) c.val (gridOf (bandOf c.val) (txLo s (bandOf c.val) i.freq (occupied s (bandOf c.val) i.mode)))) c.val (airtime6 (readCal (advance dt s) c.val (gridOf (bandOf c.val) (txLo s (bandOf c.val) i.freq (occupied s (bandOf c.val) i.mode)))) (bandOf c.val) i.mode i.psdu (ramp (readCal (advance dt s) c.val (gridOf (bandOf c.val) (txLo s (bandOf c.val) i.freq (occupied s (bandOf c.val) i.mode)))) c.val)) (plan (readCal (advance dt s) c.val (gridOf (bandOf c.val) (txLo s (bandOf c.val) i.freq (occupied s (bandOf c.val) i.mode)))) c.val i).1 (cyclesAt (readCal (advance dt s) c.val (gridOf (bandOf c.val) (txLo s (bandOf c.val) i.freq (occupied s (bandOf c.val) i.mode)))) i.instant + usC i.tolerance)) = none ∧
        buildFrame (readCal (advance dt s) c.val (gridOf (bandOf c.val) (txLo s (bandOf c.val) i.freq (occupied s (bandOf c.val) i.mode)))) i (plan (readCal (advance dt s) c.val (gridOf (bandOf c.val) (txLo s (bandOf c.val) i.freq (occupied s (bandOf c.val) i.mode)))) c.val i).1 = (v,
        .inl frame) ∧ (findItem v item).isSome = true ∧ chainEnabled v c.val = true) ∧
    (∃ (dt : Nat) (c : Chain) (id : Nat) (i : Item) (s : State), ∃ e, running s = true ∧ (chainSt s c.val).holder = .item id ∧
        findItem s id = some i ∧ i.st = .committed ∧
        readyForTx s c.val (txLo s (bandOf c.val) i.freq (occupied s (bandOf c.val) i.mode)) i.useCal = true ∧
        i.startAt - (usC (leadUs s c.val + i.rampUs)) ≤ s.now + dt ∧ chainEnabled s c.val = true ∧
        quenchCheck s c.val i.freq (occupied s (bandOf c.val) i.mode) i.air6 = .inl e) ∧
    (∃ (dt : Nat) (c : Chain) (id : Nat) (i : Item) (s : State), (chainEnabled s c.val = false ∨ ∃ r,
        quenchCheck s c.val i.freq (occupied s (bandOf c.val) i.mode) i.air6 = .inr r) ∧ running s = true ∧
        (chainSt s c.val).holder = .item id ∧ findItem s id = some i ∧ i.st = .committed ∧
        readyForTx s c.val (txLo s (bandOf c.val) i.freq (occupied s (bandOf c.val) i.mode)) i.useCal = true ∧
        i.startAt - (usC (leadUs s c.val + i.rampUs)) ≤ s.now + dt) ∧
    (∃ (dt : Nat) (c : Chain) (r : Reserve) (s : State), running s = true ∧
        (s.quench.reserves.find? (fun x => x.chain.val == c.val) = some r) ∧ paOn (advance dt s) c.val = true ∧
        mayStop (advance dt s) c.val stRegCut = true ∧ (fld (quenchB s.quench r.entry) 15 0 ≠ 0 ∧
        usC (100 * fld (quenchB s.quench r.entry) 15 0) ≤ paTime (advance dt s) c.val ∨ allowance s.quench r.entry ≤ dutyRunning (advance dt s) r.entry)) ∧
    (∃ (dt : Nat) (s : State), s.quench.valid = true ∧ s.quench.binStart + binLength s.quench ≤ s.now + dt) ∧
    (∃ (dt : Nat) (c : Chain) (s : State), running s = true ∧
        ((chainSt s c.val).st = .synthOn ∨ (chainSt s c.val).st = .rx ∨ (chainSt s c.val).st = .tx) ∧ (chainSt s c.val).freq ≠ 0 ∧
        gridOf (bandOf c.val) (chainSt s c.val).freq ≤ lastGrid (bandOf c.val) ∧ paOn (advance dt s) c.val = true ∧
        (chainSt s c.val).stop = none) ∧
    (∃ (dt : Nat) (c : Chain) (s : State), running s = true ∧
        ((chainSt s c.val).st = .synthOn ∨ (chainSt s c.val).st = .rx ∨ (chainSt s c.val).st = .tx) ∧ (chainSt s c.val).freq ≠ 0 ∧
        gridOf (bandOf c.val) (chainSt s c.val).freq ≤ lastGrid (bandOf c.val) ∧ paOn (advance dt s) c.val = false ∧
        (chainSt s c.val).holder = .none ∧ (chainSt s c.val).st = .rx) :=
  ⟨⟨1, 7, itm, 0, (withItem itm { halted := true } powered), stTxHalted, by decide +kernel⟩,
   ⟨1, 7, { itm with instant := timeUs 290 }, 0, ready7,
       (match (buildFrame (readCal (advance 1 ready7) 0 (gridOf 0 (txLo ready7 0 410000 (occupied ready7 0 1)))) { itm with instant := timeUs 290 } (plan (readCal (advance 1 ready7) 0 (gridOf 0 (txLo ready7 0 410000 (occupied ready7 0 1)))) 0 { itm with instant := timeUs 290 }).1).2 with | .inl f => f | .inr _ => []),
       (buildFrame (readCal (advance 1 ready7) 0 (gridOf 0 (txLo ready7 0 410000 (occupied ready7 0 1)))) { itm with instant := timeUs 290 } (plan (readCal (advance 1 ready7) 0 (gridOf 0 (txLo ready7 0 410000 (occupied ready7 0 1)))) 0 { itm with instant := timeUs 290 }).1).1,
       by decide +kernel⟩,
   ⟨1, 0, 7, { itm with st := .committed, air6 := 600 },
       { (withItem { itm with st := .committed, air6 := 600 } { st := .synthOn, freq := (txLo (withItem itm {} powered) 0 410000 (occupied (withItem itm {} powered) 0 1)), holder := .item 7 } powered) with quench := lawful },
       0, by decide +kernel⟩,
   ⟨1, 0, 7, { itm with st := .committed, air6 := 600 },
       { (withItem { itm with st := .committed, air6 := 600 } { st := .synthOn, freq := (txLo (withItem itm {} powered) 0 410000 (occupied (withItem itm {} powered) 0 1)), holder := .item 7 } powered) with quench := lawful, inForce := [(0x1400, 0)] },
       .inl (by decide +kernel), by decide +kernel⟩,
   ⟨1, 0, ⟨0, 0, 5⟩, { powered with now := usC 1000000, quench := { lawful with reserves := [⟨0, 0, 5⟩] }, chains := [(0, { st := .tx, paSince := some 1 })] },
       by decide +kernel⟩,
   ⟨binLength lawful, { powered with quench := { lawful with bins := [(0, 5), (3, 6), (64, 7), (65, 8)] } }, by decide +kernel⟩,
   ⟨1, 0, { powered with chains := [(0, { st := .tx, freq := 410000, paSince := some 0 })] }, by decide +kernel⟩,
   ⟨1, 11, { powered with chains := [(11, { st := .rx, freq := 2484000 })] }, by decide +kernel⟩⟩

/-- Every hypothesis of `TransmissionInProgress` is met. -/
theorem witness_TransmissionInProgress :
    (∃ (dt : Nat) (c : Chain) (f : Int) (s : State), running s = true ∧ atFullPower (advance dt s) c.val = true ∧
        (mayStop (advance dt s) c.val stTxAbortMismatch = true) ∧ -40 ≤ f ∧ (chainSt s c.val).holder ≠ .tune) ∧
    (∃ (dt : Nat) (c : Chain) (t0 : Nat) (s : State), running s = true ∧ (chainSt s c.val).pdet = some t0 ∧
        atFullPower (advance dt s) c.val = true ∧ (chainSt s c.val).stop = none ∧ t0 + usC 16 ≤ s.now + dt) ∧
    (∃ (dt : Nat) (c : Chain) (s : State), running s = true ∧ paOn (advance dt s) c.val = true ∧
        mayStop (advance dt s) c.val stTxTimeout = true ∧ msC (chainSt s c.val).timeout ≤ paTime (advance dt s) c.val) ∧
    (∃ (dt : Nat) (c : Chain) (id : Nat) (i : Item) (s : State), running s = true ∧ (chainSt s c.val).holder = .item id ∧
        findItem s id = some i ∧ i.st = .onAir ∧ rampedDown (advance dt s) c.val = true) ∧
    (∃ (dt item : Nat) (i : Item) (s : State), running s = true ∧ findItem s item = some i ∧ i.st = .awaitAck ∧ i.ackAt ≤ s.now + dt) ∧
    (∃ (dt : Nat) (hc : Hc) (s u : State) (p : Packet), ∃ o, Took dt hc 0x101 1 2 s p u ∧ reservedSet (p.word 1) (bits 26 0) = false ∧
        fld (p.word 1) 3 0 < 12 ∧ (fld (p.word 1) 25 4 = 0 ∨ inBand (bandOf (fld (p.word 1) 3 0)) (fld (p.word 1) 25 4) = true) ∧
        lockedBy u hc (groupOf 0x1450) = some o) ∧
    (∃ (dt : Nat) (hc : Hc) (s u : State) (p : Packet), Took dt hc 0x101 1 2 s p u ∧ reservedSet (p.word 1) (bits 26 0) = false ∧
        fld (p.word 1) 3 0 < 12 ∧ (fld (p.word 1) 25 4 = 0 ∨ inBand (bandOf (fld (p.word 1) 3 0)) (fld (p.word 1) 25 4) = true) ∧
        groupLocked u hc 0x1450 = false ∧ chainEnabled u (fld (p.word 1) 3 0) = true) ∧
    (∃ (dt : Nat) (c : Chain) (j : TuneJob) (s : State), running s = true ∧
        (s.tunes.find? (fun j => j.chain.val == c.val && j.probe.isNone) = some j) ∧ j.deadline < s.now + dt) ∧
    (∃ (dt : Nat) (c : Chain) (j : TuneJob) (a m : Nat) (s : State), running s = true ∧
        (s.tunes.find? (fun j => j.chain.val == c.val) = some j) ∧ j.probe = none ∧ asnNow (advance dt s) = some a ∧
        governingSlot (advance dt s) (bandOf c.val) a = some m ∧ slotBegins (advance dt s) a = true ∧
        slotQuiet (advance dt s) (bandOf c.val) a m = true ∧ bandCommitted s (bandOf c.val) = false ∧ s.now + dt ≤ j.deadline ∧
        chainIdle s c.val = true ∧ (chainSt s c.val).target = none) ∧
    (∃ (dt : Nat) (c : Chain) (j : TuneJob) (t0 : Nat) (s : State), running s = true ∧
        (s.tunes.find? (fun j => j.chain.val == c.val && j.probe.isSome) = some j) ∧ (chainSt s c.val).holder = .tune ∧
        (chainSt s c.val).paSince = some t0 ∧ atFullPower (advance dt s) c.val = true ∧ (chainSt s c.val).stop = none ∧
        (t0 + usC ((chainSt s c.val).rampUs + if j.refine then 76 else 356) ≤ s.now + dt)) ∧
    (∃ (dt : Nat) (c : Chain) (rl : BitVec 8) (f m : Int) (sample : BitVec 12) (full : Bool) (s t : State) (e : Instr), exec e s = .next t ∧
        e ∈ [Instr.returnLossReading dt c rl f, .pdetStep dt c sample, .txTimeout dt c, .quenchCut dt c, .quenchBinRoll dt,
        .agcWindowEnd dt c m full]) :=
  ⟨⟨1, 0, -40, { powered with chains := [(0, { st := .tx, aborts := 2 })] }, by decide +kernel⟩,
   ⟨usC 20, 0, 0, { { powered with chains := [(0, { st := .tx, paSince := some 0, setPower := 40, pdet := some 0, drive := 51 })] } with image := { detector := [(3, 60)] } },
       by decide +kernel⟩,
   ⟨msC 5000, 0, { powered with chains := [(0, { st := .tx, paSince := some 0 })] }, by decide +kernel⟩,
   ⟨usC 50, 0, 7, { itm with st := .onAir, ack := true },
       { (withItem { itm with st := .onAir, ack := true } { st := .tx, downAt := some 1, holder := .item 7, paSince := some 0 } powered) with quench := lawful },
       by decide +kernel⟩,
   ⟨1, 7, { itm with st := .awaitAck, retries := 0 }, (withItem { itm with st := .awaitAck, retries := 0 } {  } powered),
       by decide +kernel⟩,
   ⟨0, 0, (sq 0x101 [at' 0 11] { powered with locks := [(groupOf 0x1450, ⟨1, 5, 900⟩)] }), _, _, 1, took_of (by decide +kernel),
       by decide +kernel⟩,
   ⟨0, 0, (sq 0x101 [at' 0 11 ||| at' 4 0] powered), _, _, took_of (by decide +kernel), by decide +kernel⟩,
   ⟨1, 0, ⟨0, 3, 0, 410000, false, 0, none⟩,
       { (withItem { itm with st := .queued } {  } powered) with tunes := [⟨0, 3, 0, 410000, false, 0, none⟩] }, by decide +kernel⟩,
   ⟨1, 0, ⟨0, 3, 0, 410000, false, 5, none⟩, 1, 1, slotted, by decide +kernel⟩,
   ⟨usC 400, 0, ⟨0, 3, 0, 410000, false, 5, some (1, 2)⟩, 0,
       { (withItem { itm with st := .queued } { st := .tx, holder := .tune, paSince := some 0 } powered) with tunes := [⟨0, 3, 0, 410000, false, 5, some (1, 2)⟩] },
       by decide +kernel⟩,
   ⟨1, 0, 0, -40, 3, 2, true, { powered with chains := [(0, { st := .tx, aborts := 2 })] }, _, .returnLossReading 1 0 0 (-40),
       next_of (by decide +kernel), by decide +kernel⟩⟩

/-- Every hypothesis of `TimebaseStepsAndRates` is met. -/
theorem witness_TimebaseStepsAndRates :
    (∃ (dt : Nat) (hc : Hc) (s u : State) (p : Packet), Took dt hc 0x600 2 0 s p u ∧ reservedSet (p.word 2) (bits 0 0) = false ∧
        u.tb.set = true) ∧
    (∃ (dt : Nat) (hc : Hc) (s u : State) (p : Packet), Took dt hc 0x600 2 0 s p u ∧ reservedSet (p.word 2) (bits 0 0) = false ∧
        u.tb.set = false ∧ (p.word 2).getLsbD 0 = true) ∧
    (∃ (dt : Nat) (hc : Hc) (s u : State) (p : Packet), Took dt hc 0x600 2 0 s p u ∧ reservedSet (p.word 2) (bits 0 0) = false ∧
        u.tb.set = false ∧ (p.word 2).getLsbD 0 = false) ∧
    (∃ (dt : Nat) (hc : Hc) (s u : State) (p : Packet), Took dt hc 0x601 1 0 s p u ∧ reservedSet (p.word 1) (bits 39 0) = false ∧
        par u 0x6000 ≠ 0) ∧
    (∃ (dt : Nat) (hc : Hc) (s u : State) (p : Packet), Took dt hc 0x601 1 0 s p u ∧ reservedSet (p.word 1) (bits 39 0) = false ∧
        par u 0x6000 = 0 ∧ (((p.word 1).setWidth 40 : BitVec 40).toInt < -281474976710 ∨ 281474976710 < ((p.word 1).setWidth 40 : BitVec 40).toInt)) ∧
    (∃ (dt : Nat) (hc : Hc) (s u : State) (p : Packet), Took dt hc 0x601 1 0 s p u ∧ reservedSet (p.word 1) (bits 39 0) = false ∧
        par u 0x6000 = 0 ∧ -281474976710 ≤ ((p.word 1).setWidth 40 : BitVec 40).toInt ∧
        ((p.word 1).setWidth 40 : BitVec 40).toInt ≤ 281474976710) ∧
    (∃ (dt : Nat) (hc : Hc) (s u : State) (p : Packet), Took dt hc 0x602 0 0 s p u) ∧
    (∃ (dt : Nat) (text : Octets) (c : Time72) (i utc : Nat) (s : State), running s = true ∧ s.tb.set = true ∧
        ((((splitAt' 0x2C (sentenceBody text).1).headD []).drop 2) = [0x5A, 0x44,
        0x41] ∨ (((splitAt' 0x2C (sentenceBody text).1).headD []).drop 2) = [0x52, 0x4D, 0x43]) ∧ (sentenceBody text).2 = true ∧
        sentenceTime ((((splitAt' 0x2C (sentenceBody text).1).headD []).drop 2) == [0x52, 0x4D,
        0x43]) (splitAt' 0x2C (sentenceBody text).1) = some utc ∧ s.tb.pulse = some (c, i) ∧ i + msC 10 ≤ s.now + dt ∧
        s.now + dt ≤ i + msC 990 ∧ par s 0x6803 = 0) ∧
    (∃ (text : Octets) (s : State), running s = true ∧ s.tb.set = true ∧ ((((splitAt' 0x2C (sentenceBody text).1).headD []).drop 2) = [0x5A,
        0x44, 0x41] ∨ (((splitAt' 0x2C (sentenceBody text).1).headD []).drop 2) = [0x52, 0x4D, 0x43]) ∧
        ((sentenceBody text).2 = false ∨ sentenceTime ((((splitAt' 0x2C (sentenceBody text).1).headD []).drop 2) == [0x52, 0x4D,
        0x43]) (splitAt' 0x2C (sentenceBody text).1) = none)) ∧
    (∃ (dt i : Nat) (c : Time72) (s : State), running s = true ∧ s.tb.todOut = some (i, c) ∧ i + msC 100 ≤ s.now + dt) :=
  ⟨⟨0, 0, (sq 0x600 [77, 0] { powered with tb := { set := true } }), _, _, took_of (by decide +kernel), by decide +kernel⟩,
   ⟨0, 0, (sq 0x600 [77, 1] { powered with tb := {  } }), _, _, took_of (by decide +kernel), by decide +kernel⟩,
   ⟨0, 0, (sq 0x600 [77, 0] { powered with tb := {  } }), _, _, took_of (by decide +kernel), by decide +kernel⟩,
   ⟨0, 0, (sq 0x601 [5] { powered with inForce := [(0x6000, 1)] }), _, _, took_of (by decide +kernel), by decide +kernel⟩,
   ⟨0, 0, (sq 0x601 [281474976711] powered), _, _, took_of (by decide +kernel), by decide +kernel⟩,
   ⟨0, 0, (sq 0x601 [281474976710] powered), _, _, took_of (by decide +kernel), by decide +kernel⟩,
   ⟨0, 0, (sq 0x602 [] { { powered with tb := { set := true } } with teus := [(15, { armed := true })] }), _, _,
       took_of (by decide +kernel)⟩,
   ⟨msC 10, zda 0 1767225600, timeSec 1767225637, 0, 1767225600,
       { powered with inForce := [(0x6803, 0)], tb := { set := true, pulse := some (BitVec.ofNat 72 (timeSec 1767225637), 0) } },
       by decide +kernel⟩,
   ⟨(zda 0 1767225600).take 10,
       { powered with inForce := [(0x6803, 0)], tb := { set := true, pulse := some (BitVec.ofNat 72 (timeSec 1767225637), 0) } },
       by decide +kernel⟩,
   ⟨msC 100, 0, timeSec 1767225637, { powered with tb := { todOut := some (0, BitVec.ofNat 72 (timeSec 1767225637)) } }, by decide +kernel⟩⟩

/-- Every hypothesis of `PulsePerSecondInput` is met. -/
theorem witness_PulsePerSecondInput :
    (∃ (rising : Bool) (s : State), regsServed s = true ∧ s.pps.edge = none ∧ rising = (par s 0x12 == 0)) ∧
    (∃ (dt : Nat) (rising : Bool) (s : State), ∃ c i, regsServed s = true ∧ s.pps.edge = some (c, i, none) ∧
        s.now + dt < i + nsC (par s 0x13) ∧ rising ≠ (par s 0x12 == 0)) ∧
    (∃ (dt : Nat) (c : Time72) (i : Nat) (other : Option Nat) (s : State), ∃ o, regsServed s = true ∧ s.pps.edge = some (c, i, other) ∧
        i + nsC (par s 0x13) ≤ s.now + dt ∧ other = some o ∧ (o - i) * 10000 < par s 0x13 * 4096) ∧
    (∃ (dt : Nat) (c : Time72) (i : Nat) (other : Option Nat) (s : State), regsServed s = true ∧ s.pps.edge = some (c, i, other) ∧
        i + nsC (par s 0x13) ≤ s.now + dt ∧ other = none ∧ (s.pps.st = 0 ∨ s.pps.st = 3)) ∧
    (∃ (dt : Nat) (c : Time72) (i : Nat) (other : Option Nat) (s : State), regsServed s = true ∧ s.pps.edge = some (c, i, other) ∧
        i + nsC (par s 0x13) ≤ s.now + dt ∧ other = none ∧ s.pps.st = 1 ∧ oneSecond s s.pps.base c = false) ∧
    (∃ (dt : Nat) (c : Time72) (i : Nat) (other : Option Nat) (s : State), regsServed s = true ∧ s.pps.edge = some (c, i, other) ∧
        i + nsC (par s 0x13) ≤ s.now + dt ∧ other = none ∧ s.pps.st = 2 ∧ oneSecond s s.pps.base c = false) ∧
    (∃ (dt : Nat) (c : Time72) (i : Nat) (other : Option Nat) (s : State), regsServed s = true ∧ s.pps.edge = some (c, i, other) ∧
        i + nsC (par s 0x13) ≤ s.now + dt ∧ other = none ∧ s.pps.st = 1 ∧ oneSecond s s.pps.base c = true) ∧
    (∃ (dt : Nat) (c : Time72) (i : Nat) (other : Option Nat) (s : State), regsServed s = true ∧ s.pps.edge = some (c, i, other) ∧
        i + nsC (par s 0x13) ≤ s.now + dt ∧ other = none ∧ s.pps.st = 2 ∧ oneSecond s s.pps.base c = true ∧ s.tb.set = false ∧
        s.tb.label = none ∧ par s 0x6000 ≠ 1 ∧ s.tb.armed = none) ∧
    (∃ (dt : Nat) (c : Time72) (i : Nat) (other : Option Nat) (s : State), ∃ target, regsServed s = true ∧ s.pps.edge = some (c, i, other) ∧
        i + nsC (par s 0x13) ≤ s.now + dt ∧ other = none ∧ s.pps.st = 2 ∧ oneSecond s s.pps.base c = true ∧ s.tb.set = false ∧
        s.tb.label = none ∧ par s 0x6000 ≠ 1 ∧ s.tb.armed = some target) ∧
    (∃ (dt : Nat) (s : State), regsServed s = true ∧ s.pps.lastAt + msC 1500 ≤ s.now + dt ∧ s.pps.st = 1) ∧
    (∃ (dt : Nat) (s : State), regsServed s = true ∧ s.pps.lastAt + msC 1500 ≤ s.now + dt ∧ s.pps.st = 2) :=
  ⟨⟨true, powered, by decide +kernel⟩,
   ⟨1, false, { powered with pps := { edge := some (9, 1, none) } }, 9, 1, by decide +kernel⟩,
   ⟨nsC 10000, timeSec 1, 0, some 1, { powered with pps := { edge := some (BitVec.ofNat 72 (timeSec 1), 0, some 1), st := 0 } }, 1,
       by decide +kernel⟩,
   ⟨nsC 10000, timeSec 1, 0, none, { powered with pps := { edge := some (BitVec.ofNat 72 (timeSec 1), 0, none), st := 3 } },
       by decide +kernel⟩,
   ⟨nsC 10000, timeSec 1, 0, none,
       { powered with pps := { edge := some (BitVec.ofNat 72 (timeSec 1), 0, none), st := 1, base := 2147483648 } }, by decide +kernel⟩,
   ⟨nsC 10000, timeSec 1, 0, none,
       { powered with pps := { edge := some (BitVec.ofNat 72 (timeSec 1), 0, none), st := 2, base := 2147483648 } }, by decide +kernel⟩,
   ⟨nsC 10000, timeSec 1, 0, none,
       { powered with pps := { edge := some (BitVec.ofNat 72 (timeSec 1), 0, none), st := 1, base := 0, count := 2 } }, by decide +kernel⟩,
   ⟨nsC 10000, timeSec 1, 0, none, { powered with pps := { edge := some (BitVec.ofNat 72 (timeSec 1), 0, none), st := 2, base := 0 } },
       by decide +kernel⟩,
   ⟨nsC 10000, timeSec 1, 0, none,
       { powered with pps := { edge := some (BitVec.ofNat 72 (timeSec 1), 0, none), st := 2, base := 0 }, tb := { armed := some 77 } }, 77,
       by decide +kernel⟩,
   ⟨msC 1500, { powered with pps := { st := 1 } }, by decide +kernel⟩,
   ⟨msC 1500, { powered with pps := { st := 2, last := 4 } }, by decide +kernel⟩⟩

/-- Every hypothesis of `TimeEventUnits` is met. -/
theorem witness_TimeEventUnits :
    (∃ (dt : Nat) (hc : Hc) (s u : State) (p : Packet), Took dt hc 0x604 2 1 s p u ∧ reservedSet (p.word 1) (bits 38 0) = false ∧
        owns u hc 4 (fld (p.word 1) 3 0) = false) ∧
    (∃ (dt : Nat) (hc : Hc) (s u : State) (p : Packet), Took dt hc 0x604 2 1 s p u ∧ reservedSet (p.word 1) (bits 38 0) = false ∧
        owns u hc 4 (fld (p.word 1) 3 0) = true ∧ (p.word 1).getLsbD 4 = false) ∧
    (∃ (dt : Nat) (hc : Hc) (s u : State) (p : Packet), Took dt hc 0x604 2 1 s p u ∧ reservedSet (p.word 1) (bits 38 0) = false ∧
        owns u hc 4 (fld (p.word 1) 3 0) = true ∧ (p.word 1).getLsbD 4 = true ∧ fld (p.word 1) 8 6 = 0 ∧
        (teuInRange u (p.word 1) (p.word 2) (if (p.word 1).getLsbD 5 then fld (p.word 3) 15 0 else (p.word 3).toNat) = false)) ∧
    (∃ (dt : Nat) (hc : Hc) (s u : State) (p : Packet), Took dt hc 0x604 2 1 s p u ∧ reservedSet (p.word 1) (bits 38 0) = false ∧
        owns u hc 4 (fld (p.word 1) 3 0) = true ∧ (p.word 1).getLsbD 4 = true ∧ fld (p.word 1) 8 6 = 0 ∧
        (teuInRange u (p.word 1) (p.word 2) (if (p.word 1).getLsbD 5 then fld (p.word 3) 15 0 else (p.word 3).toNat) = true) ∧
        (p.word 1).getLsbD 5 = false ∧ u.tb.set = false) ∧
    (∃ (dt : Nat) (hc : Hc) (s u : State) (p : Packet), Took dt hc 0x604 2 1 s p u ∧ reservedSet (p.word 1) (bits 38 0) = false ∧
        owns u hc 4 (fld (p.word 1) 3 0) = true ∧ (p.word 1).getLsbD 4 = true ∧ fld (p.word 1) 8 6 = 0 ∧
        (teuInRange u (p.word 1) (p.word 2) (if (p.word 1).getLsbD 5 then fld (p.word 3) 15 0 else (p.word 3).toNat) = true) ∧
        (p.word 1).getLsbD 5 = false ∧ u.tb.set = true) ∧
    (∃ (dt : Nat) (n : Fin 16) (s : State), regsServed s = true ∧ (teu s n.val).armed = true ∧ (teu s n.val).aligned = false ∧
        (teu s n.val).held = false ∧ (teu s n.val).next ≤ (time (advance dt s)).toNat) ∧
    (∃ (dt : Nat) (n : Fin 16) (e : Nat) (s : State), (teu s n.val).till = some e ∧ e ≤ s.now + dt) :=
  ⟨⟨0, 0, (sq 0x604 [15, 5] { { powered with tb := { set := true } } with owners := [(resKey 4 15, .host 1)] }), _, _,
      took_of (by decide +kernel), by decide +kernel⟩,
   ⟨0, 0, (sq 0x604 [15, 5] { { powered with tb := { set := true } } with owners := [(resKey 4 15, .host 0)] }), _, _,
       took_of (by decide +kernel), by decide +kernel⟩,
   ⟨0, 0, (sq 0x604 [at' 0 31 ||| at' 35 1, 5] { { powered with tb := { set := true } } with owners := [(resKey 4 15, .host 0)] }), _, _,
       took_of (by decide +kernel), by decide +kernel⟩,
   ⟨0, 0, (sq 0x604 [31, 5] { { powered with tb := {  } } with owners := [(resKey 4 15, .host 0)] }), _, _, took_of (by decide +kernel),
       by decide +kernel⟩,
   ⟨0, 0, (sq 0x604 [31, 5, 4295] { { powered with tb := { set := true } } with owners := [(resKey 4 15, .host 0)] }), _, _,
       took_of (by decide +kernel), by decide +kernel⟩,
   ⟨1, 15, { powered with teus := [(15, { armed := true, out := 0, pin := 31, width := 3, period := 0 })], pins := { fn := [(31, .teu 15)], level := [(31, true)] } },
       by decide +kernel⟩,
   ⟨1, 15, 1, { powered with teus := [(15, { armed := true, out := 1, pin := 31, till := some 1 })], pins := { fn := [(31, .teu 15)], level := [(31, true)] } },
       by decide +kernel⟩⟩

/-- Every hypothesis of `CountdownTimers` is met. -/
theorem witness_CountdownTimers :
    (∃ (dt : Nat) (hc : Hc) (s u : State) (p : Packet), Took dt hc 0x603 2 1 s p u ∧ reservedSet (p.word 1) (bits 44 0) = false ∧
        reservedSet (p.word 2) (bits 63 0) = false ∧ owns u hc 3 (fld (p.word 1) 4 0) = false) ∧
    (∃ (dt : Nat) (hc : Hc) (s u : State) (p : Packet), Took dt hc 0x603 2 1 s p u ∧ reservedSet (p.word 1) (bits 44 0) = false ∧
        reservedSet (p.word 2) (bits 63 0) = false ∧ owns u hc 3 (fld (p.word 1) 4 0) = true ∧ (p.word 1).getLsbD 5 = false) ∧
    (∃ (dt : Nat) (hc : Hc) (s u : State) (p : Packet), Took dt hc 0x603 2 1 s p u ∧ reservedSet (p.word 1) (bits 44 0) = false ∧
        reservedSet (p.word 2) (bits 63 0) = false ∧ owns u hc 3 (fld (p.word 1) 4 0) = true ∧ (p.word 1).getLsbD 5 = true ∧
        (p.word 1).getLsbD 15 = false ∧ fld (p.word 1) 25 20 = 0) ∧
    (∃ (dt : Nat) (k : Fin 32) (s : State), regsServed s = true ∧ (timer s k.val).run = true ∧ (timer s k.val).edgeAt ≤ s.now + dt) ∧
    (∃ (k : Fin 32) (s : State), regsServed s = true ∧ captures s k.val (timer s k.val) = true) :=
  ⟨⟨0, 0, (sq 0x603 [31, 0] { powered with owners := [(resKey 3 31, .host 1)], timers := [(31, { buffer := 5, compare := 6, capRise := 4 })] }),
      _, _, took_of (by decide +kernel), by decide +kernel⟩,
   ⟨0, 0, (sq 0x603 [at' 0 31 ||| at' 6 3 ||| at' 10 1 ||| at' 44 1,
       at' 0 0xFFFFFFFF ||| at' 32 0x80000000] { powered with owners := [(resKey 3 31, .host 0)], timers := [(31, { buffer := 5, compare := 6, capRise := 4 })] }),
       _, _, took_of (by decide +kernel), by decide +kernel⟩,
   ⟨0, 0, (sq 0x603 [at' 0 31 ||| at' 5 1 ||| at' 8 1 ||| at' 9 1 ||| at' 11 15,
       0] { powered with owners := [(resKey 3 31, .host 0)], timers := [(31, { buffer := 5, compare := 6, capRise := 4 })] }), _, _,
       took_of (by decide +kernel), by decide +kernel⟩,
   ⟨8, 31, { powered with timers := [(31, { run := true, edgeAt := 8, prescale := 3, buffer := 9, compare := 1, count := 2 })] },
       by decide +kernel⟩,
   ⟨31, { powered with timers := [(31, { capSel := 32, count := 7, widthCtr := 3, capNew := true })], pins := { fn := [(0, .capture 31)] } },
       by decide +kernel⟩⟩

/-- Every hypothesis of `PtpMessagesAndPorts` is met. -/
theorem witness_PtpMessagesAndPorts :
    (∃ (dt : Nat) (q : Port) (flips : List (BitVec 80)) (s v : State) (m : PtpMsg), running s = true ∧
        takeEvent (advance dt s) q.val 0 flips = (v, some m) ∧ fromMaster v q.val m.octets = false) ∧
    (∃ (dt : Nat) (q : Port) (flips : List (BitVec 80)) (s v : State) (m : PtpMsg), running s = true ∧
        takeEvent (advance dt s) q.val 0 flips = (v, some m) ∧ fromMaster v q.val m.octets = true ∧ 44 ≤ m.octets.length ∧
        (m.octets.getD 6 0).getLsbD 1 = true) ∧
    (∃ (dt : Nat) (q : Port) (flips : List (BitVec 80)) (s v : State) (m : PtpMsg), running s = true ∧
        takeEvent (advance dt s) q.val 0 flips = (v, some m) ∧ fromMaster v q.val m.octets = true ∧ 44 ≤ m.octets.length ∧
        (m.octets.getD 6 0).getLsbD 1 = false) ∧
    (∃ (dt : Nat) (q : Port) (s v : State) (m : PtpMsg) (seq : Nat) (c : Time72) (k : Int), running s = true ∧
        takeGeneral (advance dt s) q.val 8 = some (v, m) ∧ (ptp v q.val).syncWait = some (seq, c, k) ∧ fromMaster v q.val m.octets = true ∧
        44 ≤ m.octets.length ∧ ptpSeq m.octets = seq ∧ (ptp v q.val).mean = none) ∧
    (∃ (dt : Nat) (q : Port) (flips : List (BitVec 80)) (s v : State) (m : PtpMsg), running s = true ∧
        takeEvent (advance dt s) q.val 1 flips = (v, some m) ∧ 44 ≤ m.octets.length ∧ ptpOn v q.val = true ∧ (ptp v q.val).st ≠ 6) ∧
    (∃ (dt : Nat) (q : Port) (flips : List (BitVec 80)) (s v : State) (m : PtpMsg), running s = true ∧
        takeEvent (advance dt s) q.val 1 flips = (v, some m) ∧ 44 ≤ m.octets.length ∧ ptpOn v q.val = true ∧ (ptp v q.val).st = 6) ∧
    (∃ (dt : Nat) (q : Port) (s v : State) (m : PtpMsg) (seq : Nat) (sent c : Time72) (k : Int), running s = true ∧
        takeGeneral (advance dt s) q.val 9 = some (v, m) ∧ (ptp v q.val).delay = some (seq, some sent) ∧ (ptp v q.val).sync = some (k, c) ∧
        fromMaster v q.val m.octets = true ∧ 54 ≤ m.octets.length ∧ ptpSeq m.octets = seq ∧ beField m.octets 44 10 = portIdentity v q.val) ∧
    (∃ (dt : Nat) (q : Port) (s v : State) (m : PtpMsg), running s = true ∧ takeGeneral (advance dt s) q.val 11 = some (v, m) ∧
        (ptpOn v q.val = false ∨ m.octets.length < 64 ∨ 255 ≤ beField m.octets 61 2 ∨ beField m.octets 20 8 = devEui v)) ∧
    (∃ (dt : Nat) (q : Port) (s v : State) (m : PtpMsg), running s = true ∧ takeGeneral (advance dt s) q.val 11 = some (v, m) ∧
        ptpOn v q.val = true ∧ 64 ≤ m.octets.length ∧ beField m.octets 61 2 < 255 ∧ beField m.octets 20 8 ≠ devEui v) ∧
    (∃ (dt : Nat) (q : Port) (s : State), running s = true ∧ ptpOn s q.val = true ∧ (ptp s q.val).st = 6 ∧
        (ptp s q.val).sentSync + logCycles (parI s 0x6412) ≤ s.now + dt ∧ (ptp s q.val).sentAnnounce + announceCycles s ≤ s.now + dt) ∧
    (∃ (dt : Nat) (q : Port) (s : State), running s = true ∧ ptpOn s q.val = true ∧ ((ptp s q.val).st = 8 ∨ (ptp s q.val).st = 9) ∧
        (ptp s q.val).sentDelay + logCycles (parI s 0x6414) ≤ s.now + dt) ∧
    (∃ (dt : Nat) (q : Port) (s : State), running s = true ∧ ptpOn s q.val = true ∧
        ((ptp s q.val).st = 4 ∨ (ptp s q.val).st = 7 ∨ (ptp s q.val).st = 8 ∨ (ptp s q.val).st = 9) ∧
        (ptp s q.val).announceAt + 3 * announceCycles s ≤ s.now + dt) ∧
    (∃ (dt : Nat) (q : Port) (s : State), running s = true ∧ ptpOn s q.val = true ∧ (ptp s q.val).st = 5 ∧
        (ptp s q.val).qualAt ≤ s.now + dt ∧ s.tb.set = true) ∧
    (∃ (dt : Nat) (q : Port) (flips : List (BitVec 80)) (s t : State) (e : Instr), exec e s = .next t ∧ e ∈ [Instr.ptpSyncRx dt q flips,
        .ptpFollowUpRx dt q, .ptpDelayReqRx dt q flips, .ptpDelayRespRx dt q, .ptpAnnounceRx dt q, .ptpSyncTx dt q, .ptpDelayReqTx dt q,
        .ptpAnnounceTx dt q, .announceReceiptTimeout dt q, .ptpQualificationTimeout dt q]) :=
  ⟨⟨1, 0, [], (ptpUp { inbox := [⟨5, msg 0 0 (beOctets 6 3 ++ beOctets 4 9)⟩], st := 8, master := 10 }),
      (takeEvent (advance 1 (ptpUp { inbox := [⟨5, msg 0 0 (beOctets 6 3 ++ beOctets 4 9)⟩], st := 8, master := 10 })) 0 0 []).1,
      (match (takeEvent (advance 1 (ptpUp { inbox := [⟨5, msg 0 0 (beOctets 6 3 ++ beOctets 4 9)⟩], st := 8, master := 10 })) 0 0 []).2 with | some m => m | none => ⟨0,
      []⟩), by decide +kernel⟩,
   ⟨1, 0, [], (ptpUp { inbox := [⟨5, msg 0 2 (beOctets 6 3 ++ beOctets 4 9)⟩], st := 8, master := 9 }),
       (takeEvent (advance 1 (ptpUp { inbox := [⟨5, msg 0 2 (beOctets 6 3 ++ beOctets 4 9)⟩], st := 8, master := 9 })) 0 0 []).1,
       (match (takeEvent (advance 1 (ptpUp { inbox := [⟨5, msg 0 2 (beOctets 6 3 ++ beOctets 4 9)⟩], st := 8, master := 9 })) 0 0 []).2 with | some m => m | none => ⟨0,
       []⟩), by decide +kernel⟩,
   ⟨1, 0, [], (ptpUp { inbox := [⟨5, msg 0 0 (beOctets 6 3 ++ beOctets 4 9)⟩], st := 8, master := 9 }),
       (takeEvent (advance 1 (ptpUp { inbox := [⟨5, msg 0 0 (beOctets 6 3 ++ beOctets 4 9)⟩], st := 8, master := 9 })) 0 0 []).1,
       (match (takeEvent (advance 1 (ptpUp { inbox := [⟨5, msg 0 0 (beOctets 6 3 ++ beOctets 4 9)⟩], st := 8, master := 9 })) 0 0 []).2 with | some m => m | none => ⟨0,
       []⟩), by decide +kernel⟩,
   ⟨1, 0, (ptpUp { inbox := [⟨5, msg 8 0 (beOctets 6 3 ++ beOctets 4 9)⟩], st := 8, master := 9, syncWait := some (7, 5, 0) }),
       (match takeGeneral (advance 1 (ptpUp { inbox := [⟨5, msg 8 0 (beOctets 6 3 ++ beOctets 4 9)⟩], st := 8, master := 9, syncWait := some (7, 5, 0) })) 0 8 with | some r => r.1 | none => powered),
       (match takeGeneral (advance 1 (ptpUp { inbox := [⟨5, msg 8 0 (beOctets 6 3 ++ beOctets 4 9)⟩], st := 8, master := 9, syncWait := some (7, 5, 0) })) 0 8 with | some r => r.2 | none => ⟨0,
       []⟩), 7, 5, 0, by decide +kernel⟩,
   ⟨1, 0, [], (ptpUp { inbox := [⟨5, msg 1 0 (beOctets 10 0)⟩], st := 9 }),
       (takeEvent (advance 1 (ptpUp { inbox := [⟨5, msg 1 0 (beOctets 10 0)⟩], st := 9 })) 0 1 []).1,
       (match (takeEvent (advance 1 (ptpUp { inbox := [⟨5, msg 1 0 (beOctets 10 0)⟩], st := 9 })) 0 1 []).2 with | some m => m | none => ⟨0,
       []⟩), by decide +kernel⟩,
   ⟨1, 0, [], (ptpUp { inbox := [⟨5, msg 1 0 (beOctets 10 0)⟩], st := 6 }),
       (takeEvent (advance 1 (ptpUp { inbox := [⟨5, msg 1 0 (beOctets 10 0)⟩], st := 6 })) 0 1 []).1,
       (match (takeEvent (advance 1 (ptpUp { inbox := [⟨5, msg 1 0 (beOctets 10 0)⟩], st := 6 })) 0 1 []).2 with | some m => m | none => ⟨0,
       []⟩), by decide +kernel⟩,
   ⟨1, 0, (ptpUp { inbox := [⟨5, msg 9 0 (beOctets 6 3 ++ beOctets 4 9 ++ beOctets 10 65537)⟩], st := 8, master := 9, delay := some (7, some 4), sync := some (-7, 5) }),
       (match takeGeneral (advance 1 (ptpUp { inbox := [⟨5, msg 9 0 (beOctets 6 3 ++ beOctets 4 9 ++ beOctets 10 65537)⟩], st := 8, master := 9, delay := some (7, some 4), sync := some (-7, 5) })) 0 9 with | some r => r.1 | none => powered),
       (match takeGeneral (advance 1 (ptpUp { inbox := [⟨5, msg 9 0 (beOctets 6 3 ++ beOctets 4 9 ++ beOctets 10 65537)⟩], st := 8, master := 9, delay := some (7, some 4), sync := some (-7, 5) })) 0 9 with | some r => r.2 | none => ⟨0,
       []⟩), 7, 4, 5, -7, by decide +kernel⟩,
   ⟨1, 0, (ptpUp { inbox := [⟨5, msg 11 0 (beOctets 10 0 ++ beOctets 2 37 ++ [0, 128, 6, 0x21] ++ beOctets 2 5 ++ [128] ++ beOctets 8 99 ++ beOctets 2 255 ++ [0x20])⟩], st := 4 }),
       (match takeGeneral (advance 1 (ptpUp { inbox := [⟨5, msg 11 0 (beOctets 10 0 ++ beOctets 2 37 ++ [0, 128, 6, 0x21] ++ beOctets 2 5 ++ [128] ++ beOctets 8 99 ++ beOctets 2 255 ++ [0x20])⟩], st := 4 })) 0 11 with | some r => r.1 | none => powered),
       (match takeGeneral (advance 1 (ptpUp { inbox := [⟨5, msg 11 0 (beOctets 10 0 ++ beOctets 2 37 ++ [0, 128, 6, 0x21] ++ beOctets 2 5 ++ [128] ++ beOctets 8 99 ++ beOctets 2 255 ++ [0x20])⟩], st := 4 })) 0 11 with | some r => r.2 | none => ⟨0,
       []⟩), by decide +kernel⟩,
   ⟨1, 0, (ptpUp { inbox := [⟨5, msg 11 0 (beOctets 10 0 ++ beOctets 2 37 ++ [0, 128, 6, 0x21] ++ beOctets 2 5 ++ [128] ++ beOctets 8 99 ++ beOctets 2 3 ++ [0x20])⟩], st := 4 }),
       (match takeGeneral (advance 1 (ptpUp { inbox := [⟨5, msg 11 0 (beOctets 10 0 ++ beOctets 2 37 ++ [0, 128, 6, 0x21] ++ beOctets 2 5 ++ [128] ++ beOctets 8 99 ++ beOctets 2 3 ++ [0x20])⟩], st := 4 })) 0 11 with | some r => r.1 | none => powered),
       (match takeGeneral (advance 1 (ptpUp { inbox := [⟨5, msg 11 0 (beOctets 10 0 ++ beOctets 2 37 ++ [0, 128, 6, 0x21] ++ beOctets 2 5 ++ [128] ++ beOctets 8 99 ++ beOctets 2 3 ++ [0x20])⟩], st := 4 })) 0 11 with | some r => r.2 | none => ⟨0,
       []⟩), by decide +kernel⟩,
   ⟨secC 70, 0, (ptpUp { st := 6 }), by decide +kernel⟩,
   ⟨secC 70, 0, (ptpUp { st := 8 }), by decide +kernel⟩,
   ⟨secC 70, 0, (ptpUp { st := 4 }), by decide +kernel⟩,
   ⟨secC 70, 0, (ptpUp { st := 5 }), by decide +kernel⟩,
   ⟨1, 0, [], (ptpUp { inbox := [⟨5, msg 0 0 (beOctets 6 3 ++ beOctets 4 9)⟩], st := 8, master := 10 }), _, .ptpSyncRx 1 0 [],
       next_of (by decide +kernel), by decide +kernel⟩⟩

/-- Every hypothesis of `UpdateSession` is met. -/
theorem witness_UpdateSession :
    (∃ (dt : Nat) (hc : Hc) (s u : State) (p : Packet), Took dt hc 0x700 4 2 s p u ∧ reservedSet (p.word 1) (bits 7 0) = false ∧
        (par u 0x7800).testBit hc.val = false) ∧
    (∃ (dt : Nat) (hc : Hc) (s u : State) (p : Packet), Took dt hc 0x700 4 2 s p u ∧ reservedSet (p.word 1) (bits 7 0) = false ∧
        (par u 0x7800).testBit hc.val = true ∧ u.update.holder.isSome = true) ∧
    (∃ (dt : Nat) (hc : Hc) (s u : State) (p : Packet), Took dt hc 0x700 4 2 s p u ∧ reservedSet (p.word 1) (bits 7 0) = false ∧
        (par u 0x7800).testBit hc.val = true ∧ u.update.holder = none ∧ (bootOf u.flashA).1.state = 3) ∧
    (∃ (dt : Nat) (hc : Hc) (s u : State) (p : Packet), ∃ st, Took dt hc 0x700 4 2 s p u ∧ reservedSet (p.word 1) (bits 7 0) = false ∧
        (par u 0x7800).testBit hc.val = true ∧ u.update.holder = none ∧ (bootOf u.flashA).1.state ≠ 3 ∧ fld (p.word 1) 7 0 = 180 ∧
        p.payload.length = 21 ∧ headerForm ((unpackWords (p.payload.drop 1)).take 180) = true ∧
        headerRefusal u ((unpackWords (p.payload.drop 1)).take 180) = some st) ∧
    (∃ (dt : Nat) (hc : Hc) (s u : State) (p : Packet), Took dt hc 0x701 2 1 s p u ∧ reservedSet (p.word 1) (bits 43 0) = false ∧
        1 ≤ fld (p.word 1) 43 32 ∧ fld (p.word 1) 43 32 ≤ 2295 ∧ 1 + (fld (p.word 1) 43 32 + 8) / 9 ≤ p.payload.length ∧
        u.update.holder ≠ some hc) ∧
    (∃ (dt : Nat) (hc : Hc) (s u : State) (p : Packet), Took dt hc 0x701 2 1 s p u ∧ reservedSet (p.word 1) (bits 43 0) = false ∧
        1 ≤ fld (p.word 1) 43 32 ∧ fld (p.word 1) 43 32 ≤ 2295 ∧ 1 + (fld (p.word 1) 43 32 + 8) / 9 ≤ p.payload.length ∧
        u.update.holder = some hc) ∧
    (∃ (dt : Nat) (hc : Hc) (s u : State) (p : Packet), Took dt hc 0x702 1 1 s p u ∧ reservedSet (p.word 1) (bits 0 0) = false ∧
        u.update.holder ≠ some hc) ∧
    (∃ (dt : Nat) (hc : Hc) (s u : State) (p : Packet), Took dt hc 0x702 1 1 s p u ∧ reservedSet (p.word 1) (bits 0 0) = false ∧
        u.update.holder = some hc) ∧
    (∃ (dt : Nat) (hc : Hc) (s u : State) (p : Packet), Took dt hc 0x704 0 0 s p u ∧ u.update.holder ≠ some hc) ∧
    (∃ (dt : Nat) (hc : Hc) (s u : State) (p : Packet), Took dt hc 0x704 0 0 s p u ∧ u.update.holder = some hc) ∧
    (∃ (dt : Nat) (hc : Hc) (s u : State) (p : Packet), Took dt hc 0x703 0 0 s p u ∧ (bootOf u.flashA).1.state ≠ 3) ∧
    (∃ (dt : Nat) (hc : Hc) (s u : State) (p : Packet), Took dt hc 0x703 0 0 s p u ∧ (bootOf u.flashA).1.state = 3) ∧
    (∃ (hc : Hc) (r : JRec) (s : State), serving s = true ∧ (∀ x ∈ (ctx s hc).journal, x.done = false) ∧
        ((ctx s hc).journal.find? (fun x => x.work != .elsewhere) = some r) ∧ r.work = .updateData ∧ s.update.holder = some hc ∧
        fld (r.payload.getD 0 0) 31 0 = s.update.next ∧ s.update.next + fld (r.payload.getD 0 0) 43 32 < 288) ∧
    (∃ (dt : Nat) (hc : Hc) (s : State), serving s = true ∧ s.update.holder = some hc ∧ s.update.since + secC (par s 0x7000) ≤ s.now + dt) ∧
    (∃ (dt : Nat) (s : State), running s = true ∧ (bootOf s.flashA).1.state = 3 ∧ s.update.expired = none ∧
        secC (bootOf s.flashA).1.prob ≤ s.update.probation + (s.now + dt - s.update.readyAt)) ∧
    (∃ (s : State), running s = true ∧ s.update.confirming = true ∧ runsActive s = false) ∧
    (∃ (s : State), running s = true ∧ s.update.confirming = true ∧ runsActive s = true) ∧
    (∃ (s : State), running s = true ∧ s.update.dirty.isSome = true) :=
  ⟨⟨0, 0, (sq 0x700 (180 :: words (header 0x9740)) ({ session {} {} with inForce := [(0x7800, 2)] })), _, _, took_of (by decide +kernel),
      by decide +kernel⟩,
   ⟨0, 0, (sq 0x700 (180 :: words (header 0x9740)) (session { holder := some 1 } {})), _, _, took_of (by decide +kernel),
       by decide +kernel⟩,
   ⟨0, 0, (sq 0x700 (180 :: words (header 0x9740)) (session {} { state := 3 })), _, _, took_of (by decide +kernel), by decide +kernel⟩,
   ⟨0, 0, (sq 0x700 (180 :: words (header 0x9741)) (session {} {})), _, _, stUpdateTarget, took_of (by decide +kernel), by decide +kernel⟩,
   ⟨0, 0, (sq 0x701 ([at' 32 9, 5]) (session {} {})), _, _, took_of (by decide +kernel), by decide +kernel⟩,
   ⟨0, 0, (sq 0x701 ([at' 32 9, 5]) (session { holder := some 0 } {})), _, _, took_of (by decide +kernel), by decide +kernel⟩,
   ⟨0, 0, (sq 0x702 ([1]) (session {} {})), _, _, took_of (by decide +kernel), by decide +kernel⟩,
   ⟨0, 0, (sq 0x702 ([1]) (session { holder := some 0 } {})), _, _, took_of (by decide +kernel), by decide +kernel⟩,
   ⟨0, 0, (sq 0x704 ([]) (session {} {})), _, _, took_of (by decide +kernel), by decide +kernel⟩,
   ⟨0, 0, (sq 0x704 ([]) (session { holder := some 0 } {})), _, _, took_of (by decide +kernel), by decide +kernel⟩,
   ⟨0, 0, (sq 0x703 ([]) (session {} {})), _, _, took_of (by decide +kernel), by decide +kernel⟩,
   ⟨0, 0, (sq 0x703 ([]) (session {} { state := 3 })), _, _, took_of (by decide +kernel), by decide +kernel⟩,
   ⟨0, { id := 3, tag := 5, opcode := 0x701, room := 2, notify := false, payload := [at' 32 9, 5], work := .updateData },
       { session { holder := some 0, next := 0, header := header 0 } {} with ctxs := [(0, { bind := 1, st := 1, journal := [{ id := 3, tag := 5, opcode := 0x701, room := 2, notify := false, payload := [at' 32 9, 5], work := .updateData }] })] },
       by decide +kernel⟩,
   ⟨secC 4000, 0, session { holder := some 0 } {}, by decide +kernel⟩,
   ⟨secC 9, session {} { state := 3, prob := 9 }, by decide +kernel⟩,
   ⟨session { confirming := true, running := [1] } {}, by decide +kernel⟩,
   ⟨session { confirming := true } {}, by decide +kernel⟩,
   ⟨session { dirty := some 0 } {}, by decide +kernel⟩⟩

/-- Every hypothesis of `NodeAndFlowCommands` is met. -/
theorem witness_NodeAndFlowCommands :
    (∃ (dt : Nat) (hc : Hc) (s u : State) (p : Packet), Took dt hc 0x302 5 1 s p u ∧ reservedSet (p.word 2) (bits 65 0) = false ∧
        reservedSet (p.word 3) (bits 35 0) = false ∧ reservedSet (p.word 4) (bits 7 0) = false ∧ p.word 5 = 0 ∧
        owns u hc 1 (fld (p.word 1) 71 64) = false) ∧
    (∃ (dt : Nat) (hc : Hc) (s u : State) (p : Packet), Took dt hc 0x302 5 1 s p u ∧ reservedSet (p.word 2) (bits 65 0) = false ∧
        reservedSet (p.word 3) (bits 35 0) = false ∧ reservedSet (p.word 4) (bits 7 0) = false ∧ p.word 5 = 0 ∧
        owns u hc 1 (fld (p.word 1) 71 64) = true ∧ rehashing u = true) ∧
    (∃ (dt : Nat) (hc : Hc) (s u : State) (p : Packet), Took dt hc 0x302 5 1 s p u ∧ reservedSet (p.word 2) (bits 65 0) = false ∧
        reservedSet (p.word 3) (bits 35 0) = false ∧ reservedSet (p.word 4) (bits 7 0) = false ∧ p.word 5 = 0 ∧
        owns u hc 1 (fld (p.word 1) 71 64) = true ∧ rehashing u = false ∧ (p.word 3).getLsbD 0 = false ∧ fld (p.word 2) 65 64 = 2 ∧
        findNode (meetSlots (meetSlots u 0 (p.word 1)) 1 (p.word 1)) (fld (p.word 3) 1 1) (keyWord (keyDomain (p.word 1)) ((p.word 2).setWidth 64)) = none) ∧
    (∃ (dt : Nat) (hc : Hc) (s u : State) (p : Packet), ∃ k, Took dt hc 0x302 5 1 s p u ∧ reservedSet (p.word 2) (bits 65 0) = false ∧
        reservedSet (p.word 3) (bits 35 0) = false ∧ reservedSet (p.word 4) (bits 7 0) = false ∧ p.word 5 = 0 ∧
        owns u hc 1 (fld (p.word 1) 71 64) = true ∧ rehashing u = false ∧ (p.word 3).getLsbD 0 = false ∧ fld (p.word 2) 65 64 ≤ 1 ∧
        findIn (meetSlots (meetSlots u 0 (p.word 1)) 1 (p.word 1)) (fld (p.word 3) 1 1) (p.word 1) = none ∧
        emptyFor (meetSlots (meetSlots u 0 (p.word 1)) 1 (p.word 1)) (fld (p.word 3) 1 1) (p.word 1) = some k) ∧
    (∃ (dt : Nat) (hc : Hc) (s u : State) (p : Packet), Took dt hc 0x303 1 0 s p u ∧ owns u hc 1 (fld (p.word 1) 71 64) = false) ∧
    (∃ (dt : Nat) (hc : Hc) (s u : State) (p : Packet), Took dt hc 0x303 1 0 s p u ∧ owns u hc 1 (fld (p.word 1) 71 64) = true ∧
        rehashing u = true) ∧
    (∃ (dt : Nat) (hc : Hc) (s u : State) (p : Packet), Took dt hc 0x303 1 0 s p u ∧ owns u hc 1 (fld (p.word 1) 71 64) = true ∧
        rehashing u = false ∧ findIn (meetSlots (meetSlots u 0 (p.word 1)) 1 (p.word 1)) 0 (p.word 1) = none ∧
        findIn (meetSlots (meetSlots u 0 (p.word 1)) 1 (p.word 1)) 1 (p.word 1) = none) ∧
    (∃ (dt : Nat) (hc : Hc) (s u : State) (p : Packet), ∃ q c, Took dt hc 0x303 1 0 s p u ∧ owns u hc 1 (fld (p.word 1) 71 64) = true ∧
        rehashing u = false ∧ q ≤ 1 ∧ findIn (meetSlots (meetSlots u 0 (p.word 1)) 1 (p.word 1)) q (p.word 1) = some c ∧
        (placeNode (meetSlots (meetSlots u 0 (p.word 1)) 1 (p.word 1)) c).anchored = true) ∧
    (∃ (dt : Nat) (hc : Hc) (s u : State) (p : Packet), ∃ q k, Took dt hc 0x303 1 0 s p u ∧ owns u hc 1 (fld (p.word 1) 71 64) = true ∧
        rehashing u = false ∧ q ≤ 1 ∧ findIn (meetSlots (meetSlots u 0 (p.word 1)) 1 (p.word 1)) q (p.word 1) = some (.slot q k) ∧
        findIn (meetSlots (meetSlots u 0 (p.word 1)) 1 (p.word 1)) (1 - q) (p.word 1) = none ∧
        (placeNode (meetSlots (meetSlots u 0 (p.word 1)) 1 (p.word 1)) (.slot q k)).anchored = false) ∧
    (∃ (dt : Nat) (hc : Hc) (s u : State) (p : Packet), Took dt hc 0x304 1 8 s p u) ∧
    (∃ (dt : Nat) (hc : Hc) (s u : State) (p : Packet), Took dt hc 0x305 2 2 s p u ∧ reservedSet (p.word 1) (bits 0 0) = false ∧
        reservedSet (p.word 2) (bits 63 0) = false ∧ rehashing u = true) ∧
    (∃ (dt : Nat) (hc : Hc) (s u : State) (p : Packet), Took dt hc 0x305 2 2 s p u ∧ reservedSet (p.word 1) (bits 0 0) = false ∧
        reservedSet (p.word 2) (bits 63 0) = false ∧ rehashing u = false) ∧
    (∃ (dt : Nat) (hc : Hc) (s u : State) (p : Packet) (a b : Word), Took dt hc 0x400 2 0 s p u ∧ p.payload = [a, b] ∧
        reservedSet a (bits 60 0) = false ∧ fld a 11 0 = 0) ∧
    (∃ (dt : Nat) (hc : Hc) (s u : State) (p : Packet) (a b : Word), Took dt hc 0x400 2 0 s p u ∧ p.payload = [a, b] ∧
        reservedSet a (bits 60 0) = false ∧ fld a 11 0 ≠ 0 ∧ owns u hc 2 (fld a 11 0) = false) ∧
    (∃ (dt : Nat) (hc : Hc) (s u : State) (p : Packet) (a b : Word), Took dt hc 0x400 2 0 s p u ∧ p.payload = [a, b] ∧
        reservedSet a (bits 60 0) = false ∧ fld a 11 0 ≠ 0 ∧ owns u hc 2 (fld a 11 0) = true) ∧
    (∃ (dt : Nat) (hc : Hc) (s u : State) (p : Packet), Took dt hc 0x401 1 12 s p u ∧ reservedSet (p.word 1) (bits 12 0) = false ∧
        (fld (p.word 1) 11 0) = 0) ∧
    (∃ (dt : Nat) (hc : Hc) (s u : State) (p : Packet), Took dt hc 0x401 1 12 s p u ∧ reservedSet (p.word 1) (bits 12 0) = false ∧
        (fld (p.word 1) 11 0) ≠ 0) :=
  ⟨⟨0, 0, (sq 0x302 ([(keyWord 7 6), 0, 0, 0, 0]) ((noded { eui := 5, static := true }))), _, _, took_of (by decide +kernel),
      by decide +kernel⟩,
   ⟨0, 0, (sq 0x302 ([(keyWord 0 6), 0, 0, 0,
       0]) ({ (noded { eui := 5, static := true }) with fwds := [(1, { rehash := some ⟨0, 3, 0, 1, 2⟩ })] })), _, _,
       took_of (by decide +kernel), by decide +kernel⟩,
   ⟨0, 0, (sq 0x302 ([(keyWord 0 6), (at' 64 2 ||| 9), 0, 0, 0]) ((noded { eui := 5, static := true }))), _, _, took_of (by decide +kernel),
       by decide +kernel⟩,
   ⟨0, 0, (sq 0x302 ([(keyWord 0 6), (at' 64 1 ||| 0), 0, 0, 0]) ((noded { eui := 5, static := true }))), _, _,
       (emptyFor (tk 0x302 5 1 (sq 0x302 ([(keyWord 0 6), (at' 64 1 ||| 0), 0, 0,
       0]) ((noded { eui := 5, static := true })))).2 0 (keyWord 0 6)).getD 0, took_of (by decide +kernel), by decide +kernel⟩,
   ⟨0, 0, (sq 0x303 ([keyWord 7 5]) ((noded { eui := 5, static := true }))), _, _, took_of (by decide +kernel), by decide +kernel⟩,
   ⟨0, 0, (sq 0x303 ([keyWord 0 5]) ({ (noded { eui := 5, static := true }) with fwds := [(1, { rehash := some ⟨0, 3, 0, 1, 2⟩ })] })), _,
       _, took_of (by decide +kernel), by decide +kernel⟩,
   ⟨0, 0, (sq 0x303 ([keyWord 0 6]) ((noded { eui := 5, static := true }))), _, _, took_of (by decide +kernel), by decide +kernel⟩,
   ⟨0, 0, (sq 0x303 ([keyWord 0 5]) ((noded { eui := 5, static := true, children := 2 }))), _, _, 0,
       (findIn ((noded { eui := 5, static := true, children := 2 })) 0 (keyWord 0 5)).getD (.victim 0), took_of (by decide +kernel),
       by decide +kernel⟩,
   ⟨0, 0, (sq 0x303 ([keyWord 0 5]) ((noded { eui := 5, static := true }))), _, _, 0, (emptyFor powered 0 (keyWord 0 5)).getD 0,
       took_of (by decide +kernel), by decide +kernel⟩,
   ⟨0, 0, (sq 0x304 ([keyWord 0 5]) ((noded { eui := 5, static := true }))), _, _, took_of (by decide +kernel)⟩,
   ⟨0, 0, (sq 0x305 ([1, at' 0 5 ||| at' 32 6]) ({ powered with fwds := [(1, { rehash := some ⟨0, 3, 0, 1, 2⟩ })] })), _, _,
       took_of (by decide +kernel), by decide +kernel⟩,
   ⟨0, 0, (sq 0x305 ([1, at' 0 5 ||| at' 32 6]) (powered)), _, _, took_of (by decide +kernel), by decide +kernel⟩,
   ⟨0, 0, (sq 0x400 ([0, 9]) ({ powered with owners := [(resKey 2 4095, .host 0)] })), _, _, 0, 9, took_of (by decide +kernel),
       by decide +kernel⟩,
   ⟨0, 0, (sq 0x400 ([4094, 9]) ({ powered with owners := [(resKey 2 4095, .host 0)] })), _, _, 4094, 9, took_of (by decide +kernel),
       by decide +kernel⟩,
   ⟨0, 0, (sq 0x400 ([4095, 9]) ({ powered with owners := [(resKey 2 4095, .host 0)] })), _, _, 4095, 9, took_of (by decide +kernel),
       by decide +kernel⟩,
   ⟨0, 0, (sq 0x401 ([0]) ({ powered with shape := { flows := [(4095, { sent := 5, failed := 6, green := 1 })] } })), _, _,
       took_of (by decide +kernel), by decide +kernel⟩,
   ⟨0, 0, (sq 0x401 ([4095]) ({ powered with shape := { flows := [(4095, { sent := 5, failed := 6, green := 1 })] } })), _, _,
       took_of (by decide +kernel), by decide +kernel⟩⟩

/-- Every hypothesis of `KeyCommandsAndEntropy` is met. -/
theorem witness_KeyCommandsAndEntropy :
    (∃ (dt : Nat) (hc : Hc) (s u : State) (p : Packet), Took dt hc 0x500 2 1 s p u ∧ reservedSet (p.word 1) (bits 7 0) = false ∧
        1 + (fld (p.word 1) 7 0 + 8) / 9 ≤ p.payload.length ∧
        owns u hc 1 (beField ((unpackWords (p.payload.drop 1)).take (fld (p.word 1) 7 0)) 2 1) = false) ∧
    (∃ (dt : Nat) (hc : Hc) (s u : State) (p : Packet), Took dt hc 0x500 2 1 s p u ∧ reservedSet (p.word 1) (bits 7 0) = false ∧
        1 + (fld (p.word 1) 7 0 + 8) / 9 ≤ p.payload.length ∧
        owns u hc 1 (beField ((unpackWords (p.payload.drop 1)).take (fld (p.word 1) 7 0)) 2 1) = true ∧ (keyInWork u).isSome = true) ∧
    (∃ (dt : Nat) (hc : Hc) (s u : State) (p : Packet), Took dt hc 0x500 2 1 s p u ∧ reservedSet (p.word 1) (bits 7 0) = false ∧
        1 + (fld (p.word 1) 7 0 + 8) / 9 ≤ p.payload.length ∧
        owns u hc 1 (beField ((unpackWords (p.payload.drop 1)).take (fld (p.word 1) 7 0)) 2 1) = true ∧ keyInWork u = none ∧
        blobSourced u (beField ((unpackWords (p.payload.drop 1)).take (fld (p.word 1) 7 0)) 2 1) = false) ∧
    (∃ (dt : Nat) (hc : Hc) (s u : State) (p : Packet), Took dt hc 0x500 2 1 s p u ∧ reservedSet (p.word 1) (bits 7 0) = false ∧
        1 + (fld (p.word 1) 7 0 + 8) / 9 ≤ p.payload.length ∧
        owns u hc 1 (beField ((unpackWords (p.payload.drop 1)).take (fld (p.word 1) 7 0)) 2 1) = true ∧ keyInWork u = none ∧
        blobSourced u (beField ((unpackWords (p.payload.drop 1)).take (fld (p.word 1) 7 0)) 2 1) = true ∧
        blobWellFormed ((unpackWords (p.payload.drop 1)).take (fld (p.word 1) 7 0)) = true ∧
        ((readKey u (blobBase (beField ((unpackWords (p.payload.drop 1)).take (fld (p.word 1) 7 0)) 2 1) 0) 10).2 = false ∨ (readKey (readKey u (blobBase (beField ((unpackWords (p.payload.drop 1)).take (fld (p.word 1) 7 0)) 2 1) 0) 10).1 (blobBase (beField ((unpackWords (p.payload.drop 1)).take (fld (p.word 1) 7 0)) 2 1) 1) 10).2 = false)) ∧
    (∃ (dt : Nat) (hc : Hc) (s u : State) (p : Packet), ∃ c g, Took dt hc 0x500 2 1 s p u ∧ reservedSet (p.word 1) (bits 7 0) = false ∧
        1 + (fld (p.word 1) 7 0 + 8) / 9 ≤ p.payload.length ∧
        owns u hc 1 (beField ((unpackWords (p.payload.drop 1)).take (fld (p.word 1) 7 0)) 2 1) = true ∧ keyInWork u = none ∧
        blobSourced u (beField ((unpackWords (p.payload.drop 1)).take (fld (p.word 1) 7 0)) 2 1) = true ∧
        blobWellFormed ((unpackWords (p.payload.drop 1)).take (fld (p.word 1) 7 0)) = true ∧
        (readKey u (blobBase (beField ((unpackWords (p.payload.drop 1)).take (fld (p.word 1) 7 0)) 2 1) 0) 10).2 = true ∧
        (readKey (readKey u (blobBase (beField ((unpackWords (p.payload.drop 1)).take (fld (p.word 1) 7 0)) 2 1) 0) 10).1 (blobBase (beField ((unpackWords (p.payload.drop 1)).take (fld (p.word 1) 7 0)) 2 1) 1) 10).2 = true ∧
        currentSub ((readKey (readKey u (blobBase (beField ((unpackWords (p.payload.drop 1)).take (fld (p.word 1) 7 0)) 2 1) 0) 10).1 (blobBase (beField ((unpackWords (p.payload.drop 1)).take (fld (p.word 1) 7 0)) 2 1) 1) 10).1) (beField ((unpackWords (p.payload.drop 1)).take (fld (p.word 1) 7 0)) 2 1) = some c ∧
        subGen ((readKey (readKey u (blobBase (beField ((unpackWords (p.payload.drop 1)).take (fld (p.word 1) 7 0)) 2 1) 0) 10).1 (blobBase (beField ((unpackWords (p.payload.drop 1)).take (fld (p.word 1) 7 0)) 2 1) 1) 10).1) (beField ((unpackWords (p.payload.drop 1)).take (fld (p.word 1) 7 0)) 2 1) c = some g ∧
        beField ((unpackWords (p.payload.drop 1)).take (fld (p.word 1) 7 0)) 4 4 < g) ∧
    (∃ (dt : Nat) (hc : Hc) (s u : State) (p : Packet), Took dt hc 0x501 1 1 s p u ∧ reservedSet (p.word 1) (bits 10 0) = false ∧
        (p.word 1).getLsbD 0 = false ∧ owns u hc 1 (fld (p.word 1) 8 1) = false) ∧
    (∃ (dt : Nat) (hc : Hc) (s u : State) (p : Packet), Took dt hc 0x502 4 1 s p u ∧ reservedSet (p.word 1) (bits 9 0) = false ∧
        1 + (fld (p.word 1) 9 0 + 8) / 9 ≤ p.payload.length ∧
        (beField (updateMessage p.payload) 1 1 = 2 ∨ beField (updateMessage p.payload) 1 1 = 5) ∧
        owns u hc 1 (beField (updateMessage p.payload) 2 1) = false) ∧
    (∃ (dt : Nat) (hc : Hc) (s u : State) (p : Packet), Took dt hc 0x502 4 1 s p u ∧ reservedSet (p.word 1) (bits 9 0) = false ∧
        1 + (fld (p.word 1) 9 0 + 8) / 9 ≤ p.payload.length ∧
        (¬ ((beField (updateMessage p.payload) 1 1 = 2 ∨ beField (updateMessage p.payload) 1 1 = 5) ∧
        owns u hc 1 (beField (updateMessage p.payload) 2 1) = false))) ∧
    (∃ (dt : Nat) (hc : Hc) (s u : State) (p : Packet), Took dt hc 0x503 4 24 s p u ∧ attestReserved p.payload = false) ∧
    (∃ (hc : Hc) (r : JRec) (s : State), serving s = true ∧ (∀ x ∈ (ctx s hc).journal, x.done = false) ∧
        ((ctx s hc).journal.find? (fun x => x.work != .elsewhere) = some r) ∧ r.work = .keyUpdate ∧ keyTurn s r = true ∧
        messageWellFormed (updateMessage r.payload) = false) ∧
    (∃ (n : Fin 528) (s : State), running s = true ∧ (keySlot s n.val).st ≠ .empty) ∧
    (∃ (dt : Nat) (d : BitVec 8) (c : Nat) (s : State), running s = true ∧ currentSub s d.toNat = some c ∧
        (subGen s d.toNat (1 - c)).isSome = true ∧ s.tb.set = true ∧ inGrace (advance dt s) d.toNat c = false ∧
        (keySlot s (subSlot d.toNat (1 - c))).st ≠ .empty) ∧
    (∃ (s : State), running s = true ∧ s.anvil.entropy = true) ∧
    (∃ (dt : Nat) (s : State), running s = true ∧ s.anvil.entropy = false ∧ s.anvil.failedAt + secC 1 ≤ s.now + dt) :=
  ⟨⟨0, 0, (sq 0x500 (56 :: words (blob 5)) (powered)), _, _, took_of (by decide +kernel), by decide +kernel⟩,
   ⟨0, 0, (sq 0x500 (56 :: words (blob 5)) ({ powered with owners := [(resKey 1 3, .host 0)], ctxs := [(0, { bind := 1, st := 1 }), (1, { journal := [{ id := 1, tag := 5, opcode := 0x502, room := 4, notify := false, work := .keyUpdate }] })] })),
       _, _, took_of (by decide +kernel), by decide +kernel⟩,
   ⟨0, 0, (sq 0x500 (56 :: words (blob 5)) ({ powered with owners := [(resKey 1 3, .host 0)] })), _, _, took_of (by decide +kernel),
       by decide +kernel⟩,
   ⟨0, 0, (sq 0x500 (56 :: words (blob 5)) (poisonWord (blobbed 5) (blobBase 3 1))), _, _, took_of (by decide +kernel), by decide +kernel⟩,
   ⟨0, 0, (sq 0x500 (56 :: words (blob 5)) (blobbed 6)), _, _, 0, 6, took_of (by decide +kernel), by decide +kernel⟩,
   ⟨0, 0, (sq 0x501 ([at' 1 3]) (powered)), _, _, took_of (by decide +kernel), by decide +kernel⟩,
   ⟨0, 0, (sq 0x502 (24 :: words ([1, 2, 3, 0] ++ List.replicate 20 0) ++ [0]) (powered)), _, _, took_of (by decide +kernel),
       by decide +kernel⟩,
   ⟨0, 0, (sq 0x502 (24 :: words ([1, 1, 3, 0] ++ List.replicate 20 0) ++ [0]) (powered)), _, _, took_of (by decide +kernel),
       by decide +kernel⟩,
   ⟨0, 0, (sq 0x503 ([1, 2, 3, 0]) (powered)), _, _, took_of (by decide +kernel), by decide +kernel⟩,
   ⟨0, { id := 3, tag := 5, opcode := 0x701, room := 2, notify := false, payload := [5, 9], work := .keyUpdate },
       { powered with ctxs := [(0, { bind := 1, st := 1, journal := [{ id := 3, tag := 5, opcode := 0x701, room := 2, notify := false, payload := [5, 9], work := .keyUpdate }] })] },
       by decide +kernel⟩,
   ⟨527, { powered with anvil := { slots := [(527, { st := .loaded })] } }, by decide +kernel⟩,
   ⟨1, 3, 1, { writeWords (writeWords { powered with owners := [(resKey 1 3, .host 0)], inForce := [(0x5403, 1), (0x5500, 5)] } (blobBase 3 0) (words (blob 5))) (blobBase 3 1) (words (blob 6)) with tb := { set := true, value := BitVec.ofNat 120 (100 * 2 ^ 80) }, anvil := { slots := [(subSlot 3 0, { st := .loaded })] } },
       by decide +kernel⟩,
   ⟨powered, by decide +kernel⟩,
   ⟨secC 1, { powered with anvil := { entropy := false } }, by decide +kernel⟩⟩

/-- Every hypothesis of `TransmitAndBufferCommands` is met. -/
theorem witness_TransmitAndBufferCommands :
    (∃ (dt : Nat) (hc : Hc) (s u : State) (p : Packet) (a b : Word), ∃ h, Took dt hc 0x200 2 1 s p u ∧ p.payload = [a, b] ∧
        reservedSet a (bits 50 0) = false ∧ reservedSet b (bits 21 0) = false ∧ lockedBy u hc 8 = some h) ∧
    (∃ (dt : Nat) (hc : Hc) (s u : State) (p : Packet) (a b : Word), Took dt hc 0x200 2 1 s p u ∧ p.payload = [a, b] ∧
        reservedSet a (bits 50 0) = false ∧ reservedSet b (bits 21 0) = false ∧ lockedBy u hc 8 = none ∧ (∀ e ∈ slotframeValues (a, b),
        paramInRange u e.1 e.2 = true)) ∧
    (∃ (dt : Nat) (hc : Hc) (s u : State) (p : Packet) (w a b : Word), Took dt hc 0x201 1 1 s p u ∧ p.payload = [w, a, b] ∧
        fld w 22 16 = 1 ∧ reservedSet w (bits 22 0) = false ∧ reservedSet a (bits 37 0) = false) ∧
    (∃ (dt : Nat) (hc : Hc) (s u : State) (p : Packet), Took dt hc 0x202 3 3 s p u ∧ reservedSet (p.word 1) (bits 60 0) = false ∧
        2 + (txLength (p.word 1) + 8) / 9 ≤ p.payload.length ∧ 1 ≤ txLength (p.word 1) ∧ fld (p.word 1) 33 27 ≤ txLength (p.word 1) ∧
        owns u hc 1 (fld (p.word 1) 7 0) = false) ∧
    (∃ (dt : Nat) (hc : Hc) (s u : State) (p : Packet), Took dt hc 0x202 3 3 s p u ∧ reservedSet (p.word 1) (bits 60 0) = false ∧
        2 + (txLength (p.word 1) + 8) / 9 ≤ p.payload.length ∧ 1 ≤ txLength (p.word 1) ∧ fld (p.word 1) 33 27 ≤ txLength (p.word 1) ∧
        owns u hc 1 (fld (p.word 1) 7 0) = true ∧ txKind (p.word 1) ≤ 3 ∧
        2047 < (((unpackWords (p.payload.drop 2)).take (txLength (p.word 1))).length + overhead u ((submitBand u (p.word 1) (keyWord ((p.word 1).setWidth 8) ((p.word 2).setWidth 64))).getD 0) (fld (p.word 1) 12 8) ((p.word 1).getLsbD 23) (par u 0xC000))) ∧
    (∃ (dt : Nat) (hc : Hc) (s u : State) (p : Packet), Took dt hc 0x202 3 3 s p u ∧ reservedSet (p.word 1) (bits 60 0) = false ∧
        2 + (txLength (p.word 1) + 8) / 9 ≤ p.payload.length ∧ 1 ≤ txLength (p.word 1) ∧ fld (p.word 1) 33 27 ≤ txLength (p.word 1) ∧
        owns u hc 1 (fld (p.word 1) 7 0) = true ∧ txKind (p.word 1) ≤ 3 ∧
        (((unpackWords (p.payload.drop 2)).take (txLength (p.word 1))).length + overhead u ((submitBand u (p.word 1) (keyWord ((p.word 1).setWidth 8) ((p.word 2).setWidth 64))).getD 0) (fld (p.word 1) 12 8) ((p.word 1).getLsbD 23) (par u 0xC000)) ≤ 2047 ∧
        txKind (p.word 1) ≤ 1 ∧ timingPlace u (keyWord ((p.word 1).setWidth 8) ((p.word 2).setWidth 64)) = none) ∧
    (∃ (dt : Nat) (hc : Hc) (s u : State) (p : Packet), Took dt hc 0x202 3 3 s p u ∧ reservedSet (p.word 1) (bits 60 0) = false ∧
        2 + (txLength (p.word 1) + 8) / 9 ≤ p.payload.length ∧ 1 ≤ txLength (p.word 1) ∧ fld (p.word 1) 33 27 ≤ txLength (p.word 1) ∧
        owns u hc 1 (fld (p.word 1) 7 0) = true ∧ txKind (p.word 1) ≤ 3 ∧
        (((unpackWords (p.payload.drop 2)).take (txLength (p.word 1))).length + overhead u ((submitBand u (p.word 1) (keyWord ((p.word 1).setWidth 8) ((p.word 2).setWidth 64))).getD 0) (fld (p.word 1) 12 8) ((p.word 1).getLsbD 23) (par u 0xC000)) ≤ 2047 ∧
        (txKind (p.word 1) ≤ 1 → (timingPlace u (keyWord ((p.word 1).setWidth 8) ((p.word 2).setWidth 64))).isSome = true) ∧
        submitCell u (p.word 1) (keyWord ((p.word 1).setWidth 8) ((p.word 2).setWidth 64)) = true ∧
        blocksFor ((unpackWords (p.payload.drop 2)).take (txLength (p.word 1))).length ≤ poolFree u) ∧
    (∃ (dt : Nat) (hc : Hc) (s u : State) (p : Packet), Took dt hc 0x203 1 0 s p u ∧ reservedSet (p.word 1) (bits 15 0) = false ∧
        (u.mac.items.find? (fun (i : Item) => ((i.st == .queued || i.st == .held) && (match i.src with | .host h _ t => h == hc && t == (BitVec.ofNat 16 (fld (p.word 1) 15 0)) | _ => false) : Bool)) = none)) ∧
    (∃ (dt : Nat) (hc : Hc) (s u : State) (p : Packet), ∃ i, Took dt hc 0x203 1 0 s p u ∧ reservedSet (p.word 1) (bits 15 0) = false ∧
        (u.mac.items.find? (fun (i : Item) => ((i.st == .queued || i.st == .held) && (match i.src with | .host h _ t => h == hc && t == (BitVec.ofNat 16 (fld (p.word 1) 15 0)) | _ => false) : Bool)) = some i)) ∧
    (∃ (dt : Nat) (hc : Hc) (s u : State) (p : Packet), Took dt hc 0x301 2 3 s p u ∧ reservedSet (p.word 1) (bits 64 0) = false ∧
        reservedSet (p.word 2) (bits 15 0) = false ∧ (⟨p.id, (p.word 1).getLsbD 64, (p.word 1).setWidth 64,
        fld (p.word 2) 15 0⟩ : PostedBuf).length < 64) ∧
    (∃ (dt : Nat) (hc : Hc) (s u : State) (p : Packet), Took dt hc 0x301 2 3 s p u ∧ reservedSet (p.word 1) (bits 64 0) = false ∧
        reservedSet (p.word 2) (bits 15 0) = false ∧ 64 ≤ (⟨p.id, (p.word 1).getLsbD 64, (p.word 1).setWidth 64,
        fld (p.word 2) 15 0⟩ : PostedBuf).length ∧ bufferOk u hc (⟨p.id, (p.word 1).getLsbD 64, (p.word 1).setWidth 64,
        fld (p.word 2) 15 0⟩ : PostedBuf).shm (⟨p.id, (p.word 1).getLsbD 64, (p.word 1).setWidth 64,
        fld (p.word 2) 15 0⟩ : PostedBuf).addr.toNat (⟨p.id, (p.word 1).getLsbD 64, (p.word 1).setWidth 64,
        fld (p.word 2) 15 0⟩ : PostedBuf).length = true ∧ (∀ x ∈ (ctx u hc).bufs, bufsOverlap (⟨p.id, (p.word 1).getLsbD 64,
        (p.word 1).setWidth 64, fld (p.word 2) 15 0⟩ : PostedBuf) x = false)) ∧
    (∃ (dt : Nat) (hc : Hc) (s u : State) (p : Packet), Took dt hc 0x300 3 2 s p u ∧ reservedSet (p.word 1) (bits 64 0) = false ∧
        reservedSet (p.word 2) (bits 11 0) = false ∧ reservedSet (p.word 3) (bits 11 0) = false ∧ (fld (p.word 3) 11 0) ≠ 0 ∧
        owns u hc 2 (fld (p.word 3) 11 0) = false) ∧
    (∃ (dt : Nat) (hc : Hc) (s u : State) (p : Packet), Took dt hc 0x300 3 2 s p u ∧ reservedSet (p.word 1) (bits 64 0) = false ∧
        reservedSet (p.word 2) (bits 11 0) = false ∧ reservedSet (p.word 3) (bits 11 0) = false ∧
        ((fld (p.word 3) 11 0) = 0 ∨ owns u hc 2 (fld (p.word 3) 11 0) = true) ∧
        ((fld (p.word 2) 10 0) < 40 ∨ 1500 < (fld (p.word 2) 10 0))) ∧
    (∃ (dt : Nat) (hc : Hc) (s u : State) (p : Packet), Took dt hc 0x300 3 2 s p u ∧ reservedSet (p.word 1) (bits 64 0) = false ∧
        reservedSet (p.word 2) (bits 11 0) = false ∧ reservedSet (p.word 3) (bits 11 0) = false ∧
        ((fld (p.word 3) 11 0) = 0 ∨ owns u hc 2 (fld (p.word 3) 11 0) = true) ∧ 40 ≤ (fld (p.word 2) 10 0) ∧ (fld (p.word 2) 10 0) ≤ 1500 ∧
        (p.word 1).getLsbD 64 = false ∧ (pcieOf (bindOf u hc)).isSome = true) :=
  ⟨⟨0, 0, (sq 0x200 ([0, 0]) ({ powered with locks := [(8, ⟨1, 100, 200⟩)] })), _, _, 0, 0, 1, took_of (by decide +kernel),
      by decide +kernel⟩,
   ⟨0, 0, (sq 0x200 ([at' 4 1 ||| at' 5 1 ||| at' 19 101, 2200]) (powered)), _, _, at' 4 1 ||| at' 5 1 ||| at' 19 101, 2200,
       took_of (by decide +kernel), by decide +kernel⟩,
   ⟨0, 0, (sq 0x201 ([at' 16 1 ||| 0, 77, 88]) (powered)), _, _, at' 16 1 ||| 0, 77, 88, took_of (by decide +kernel), by decide +kernel⟩,
   ⟨0, 0, (sq 0x202 ([at' 34 9 ||| 0, 0] ++ List.replicate 1 0) (powered)), _, _, took_of (by decide +kernel), by decide +kernel⟩,
   ⟨0, 0, (sq 0x202 ([at' 34 2047 ||| at' 23 1, 0] ++ List.replicate 228 0) ({ powered with owners := [(resKey 1 0, .host 0)] })), _, _,
       took_of (by decide +kernel), by decide +kernel⟩,
   ⟨0, 0, (sq 0x202 ([at' 34 9 ||| 0, 0] ++ List.replicate 1 0) ({ powered with owners := [(resKey 1 0, .host 0)] })), _, _,
       took_of (by decide +kernel), by decide +kernel⟩,
   ⟨0, 0, (sq 0x202 ([at' 34 1 ||| 0, 5] ++ List.replicate 1 0) ({ noded { eui := 5, static := true } with inForce := [(0x2400, 15)] })), _,
       _, took_of (by decide +kernel), by decide +kernel⟩,
   ⟨0, 0, (sq 0x203 ([5]) (powered)), _, _, took_of (by decide +kernel), by decide +kernel⟩,
   ⟨0, 0, (sq 0x203 ([5]) ((withItem { itm with st := .queued } {} powered))), _, _, { itm with st := .queued },
       took_of (by decide +kernel), by decide +kernel⟩,
   ⟨0, 0, (sq 0x301 ([at' 64 1 ||| 0x100000, 63]) (powered)), _, _, took_of (by decide +kernel), by decide +kernel⟩,
   ⟨0, 0, (sq 0x301 ([at' 64 1 ||| 0x100000, 64]) (powered)), _, _, took_of (by decide +kernel), by decide +kernel⟩,
   ⟨0, 0, (sq 0x300 ([at' 64 1 ||| 0x100000, 100, 4095]) (powered)), _, _, took_of (by decide +kernel), by decide +kernel⟩,
   ⟨0, 0, (sq 0x300 ([at' 64 1 ||| 0x100000, 39, 0]) (powered)), _, _, took_of (by decide +kernel), by decide +kernel⟩,
   ⟨0, 0, (sq 0x300 ([0x100000, 40, 0]) (powered)), _, _, took_of (by decide +kernel), by decide +kernel⟩⟩

/-- Every hypothesis of `ScheduleAndReception` is met. -/
theorem witness_ScheduleAndReception :
    (∃ (dt a q : Nat) (s : State), running s = true ∧ asnNow (advance dt s) = some a ∧ s.mac.slot = some q ∧ s.mac.asnSet = true ∧ a ≤ q) ∧
    (∃ (dt a q : Nat) (s : State), running s = true ∧ asnNow (advance dt s) = some a ∧ s.mac.slot = some q ∧ s.mac.asnSet = true ∧ q < a ∧
        s.storedAt = [] ∧ keysRise 0 s.mac.running = true) ∧
    (∃ (dt a : Nat) (b : Band) (s : State), ∃ d, running s = true ∧ asnOf s ((time (advance dt s)).toNat + timeUs (par s 0x4804)) = some a ∧
        tblGet s.mac.decided b.val = some d ∧ a ≤ d) ∧
    (∃ (dt a : Nat) (b : Band) (s : State), running s = true ∧ asnOf s ((time (advance dt s)).toNat + timeUs (par s 0x4804)) = some a ∧
        (∀ d, tblGet s.mac.decided b.val = some d → d < a) ∧ (lowestRunning (ahead (advance dt s) a)).isSome = true) ∧
    (∃ (k : Fin 4) (s : State), running s = true ∧ engineRuns s (14 + k.val) = true ∧ nextFrame s k = none) ∧
    (∃ (dt : Nat) (k : Fin 4) (s : State), ∃ f, ∃ v m, running s = true ∧ engineRuns s (14 + k.val) = true ∧ nextFrame s k = some f ∧
        readWords 3 (4 + (f.octets + 8) / 9) (bufferAddr f.band.val f.buffer) (setGate (advance dt s) (14 + k.val) 0) = (v, .inr m)) ∧
    (∃ (dt : Nat) (k : Fin 4) (s : State), ∃ f, ∃ v ws, running s = true ∧ engineRuns s (14 + k.val) = true ∧ nextFrame s k = some f ∧
        readWords 3 (4 + (f.octets + 8) / 9) (bufferAddr f.band.val f.buffer) (setGate (advance dt s) (14 + k.val) 0) = (v, .inl ws) ∧
        (((unpackWords (ws.drop 4)).take f.octets).take (f.octets - f.fcs)).length < 2) ∧
    (∃ (dt : Nat) (k : Fin 4) (s : State), ∃ f, ∃ v ws, running s = true ∧ engineRuns s (14 + k.val) = true ∧ nextFrame s k = some f ∧
        readWords 3 (4 + (f.octets + 8) / 9) (bufferAddr f.band.val f.buffer) (setGate (advance dt s) (14 + k.val) 0) = (v, .inl ws) ∧
        2 ≤ (((unpackWords (ws.drop 4)).take f.octets).take (f.octets - f.fcs)).length ∧
        descriptorOf s (leField (((unpackWords (ws.drop 4)).take f.octets).take (f.octets - f.fcs)) 0 2) = none) ∧
    (∃ (dt : Nat) (k : Fin 4) (s : State), ∃ f, ∃ v ws, ∃ d p,
        parseFrame (((unpackWords (ws.drop 4)).take f.octets).take (f.octets - f.fcs)) = some p ∧ running s = true ∧
        engineRuns s (14 + k.val) = true ∧ nextFrame s k = some f ∧
        readWords 3 (4 + (f.octets + 8) / 9) (bufferAddr f.band.val f.buffer) (setGate (advance dt s) (14 + k.val) 0) = (v, .inl ws) ∧
        2 ≤ (((unpackWords (ws.drop 4)).take f.octets).take (f.octets - f.fcs)).length ∧
        descriptorOf s (leField (((unpackWords (ws.drop 4)).take f.octets).take (f.octets - f.fcs)) 0 2) = some d ∧ fld d.1 34 33 = 1 ∧
        fld d.1 39 38 ≠ 2 ∧ d.1.getLsbD 40 = false ∧ p.hdr.fcf.type ≠ 2) ∧
    (∃ (dt item e : Nat) (i : Item) (s : State), running s = true ∧ findItem s item = some i ∧ i.expiry = some e ∧ e ≤ s.now + dt ∧
        (i.st = .queued ∨ i.st = .held)) ∧
    (∃ (dt n a : Nat) (s : State), running s = true ∧ standby s = true ∧ asnNow (advance dt s) = some n ∧ sfMult s (par s 0x9400) ≤ n ∧
        endedWatch (advance dt s) n = some a ∧ s.pair.heardAsn = some a) ∧
    (∃ (dt n a : Nat) (s : State), running s = true ∧ standby s = true ∧ asnNow (advance dt s) = some n ∧ sfMult s (par s 0x9400) ≤ n ∧
        endedWatch (advance dt s) n = some a ∧ s.pair.heardAsn ≠ some a ∧ preferred s = true) ∧
    (∃ (dt : Nat) (s : State), running s = true ∧ s.shape.tick ≠ 0 ∧ s.shape.tickAt + usC s.shape.tick ≤ s.now + dt) :=
  ⟨⟨0, 3, 3, { powered with tb := { set := true, value := BitVec.ofNat 120 ((slotStart { powered with tb := { set := true } } 3 + 9) * 2 ^ 48) }, mac := { asnSet := true, slot := some 3 } },
      by decide +kernel⟩,
   ⟨0, 606, 3, { powered with tb := { set := true, value := BitVec.ofNat 120 ((slotStart { powered with tb := { set := true } } 606 + 9) * 2 ^ 48) }, mac := { asnSet := true, slot := some 3, running := [(2, true)] } },
       by decide +kernel⟩,
   ⟨0, 3, 2, { powered with tb := { set := true, value := BitVec.ofNat 120 ((slotStart { powered with tb := { set := true } } 3 + 9) * 2 ^ 48) }, mac := { slot := some 3, decided := [(2, 3)] } },
       3, by decide +kernel⟩,
   ⟨0, 3, 2, { powered with tb := { set := true, value := BitVec.ofNat 120 ((slotStart { powered with tb := { set := true } } 3 + 9) * 2 ^ 48) }, mac := { slot := some 3, running := [(2, true)], decided := [(2, 2)] } },
       by decide +kernel⟩,
   ⟨3, powered, by decide +kernel⟩,
   ⟨1, 3, (poisonWord ({ writeWords powered (bufferAddr 1 5) ([0, 0, 0, 0] ++ packWords 300 [1, 9, 9]) with rx := { frames := [⟨1, 5, [1, 9, 9].length, .waiting, none, 2, 0⟩], pools := [(1, { used := [(5, true)] })] } }) (bufferAddr 1 5)),
       ⟨1, 5, [1, 9, 9].length, .waiting, none, 2, 0⟩, (readWords 3 (4 + ([1, 9,
       9].length + 8) / 9) (bufferAddr 1 5) (setGate (advance 1 ((poisonWord ({ writeWords powered (bufferAddr 1 5) ([0, 0, 0, 0] ++ packWords 300 [1, 9, 9]) with rx := { frames := [⟨1, 5, [1, 9, 9].length, .waiting, none, 2, 0⟩], pools := [(1, { used := [(5, true)] })] } }) (bufferAddr 1 5)))) 17 0)).1,
       (match (readWords 3 (4 + ([1, 9, 9].length + 8) / 9) (bufferAddr 1 5) (setGate (advance 1 ((poisonWord ({ writeWords powered (bufferAddr 1 5) ([0, 0, 0, 0] ++ packWords 300 [1, 9, 9]) with rx := { frames := [⟨1, 5, [1, 9, 9].length, .waiting, none, 2, 0⟩], pools := [(1, { used := [(5, true)] })] } }) (bufferAddr 1 5)))) 17 0)).2 with | .inl _ => 0 | .inr m => m),
       by decide +kernel⟩,
   ⟨1, 3, { writeWords powered (bufferAddr 1 5) ([0, 0, 0, 0] ++ packWords 300 [1, 9, 9]) with rx := { frames := [⟨1, 5, [1, 9, 9].length, .waiting, none, 2, 0⟩], pools := [(1, { used := [(5, true)] })] } },
       ⟨1, 5, [1, 9, 9].length, .waiting, none, 2, 0⟩, (readWords 3 (4 + ([1, 9,
       9].length + 8) / 9) (bufferAddr 1 5) (setGate (advance 1 ({ writeWords powered (bufferAddr 1 5) ([0, 0, 0, 0] ++ packWords 300 [1, 9, 9]) with rx := { frames := [⟨1, 5, [1, 9, 9].length, .waiting, none, 2, 0⟩], pools := [(1, { used := [(5, true)] })] } })) 17 0)).1,
       (match (readWords 3 (4 + ([1, 9, 9].length + 8) / 9) (bufferAddr 1 5) (setGate (advance 1 ({ writeWords powered (bufferAddr 1 5) ([0, 0, 0, 0] ++ packWords 300 [1, 9, 9]) with rx := { frames := [⟨1, 5, [1, 9, 9].length, .waiting, none, 2, 0⟩], pools := [(1, { used := [(5, true)] })] } })) 17 0)).2 with | .inl ws => ws | .inr _ => []),
       by decide +kernel⟩,
   ⟨1, 3, { writeWords powered (bufferAddr 1 5) ([0, 0, 0, 0] ++ packWords 300 [1, 0x20, 7, 9, 9]) with rx := { frames := [⟨1, 5, [1, 0x20, 7, 9, 9].length, .waiting, none, 2, 0⟩], pools := [(1, { used := [(5, true)] })] } },
       ⟨1, 5, [1, 0x20, 7, 9, 9].length, .waiting, none, 2, 0⟩, (readWords 3 (4 + ([1, 0x20, 7, 9,
       9].length + 8) / 9) (bufferAddr 1 5) (setGate (advance 1 ({ writeWords powered (bufferAddr 1 5) ([0, 0, 0, 0] ++ packWords 300 [1, 0x20, 7, 9, 9]) with rx := { frames := [⟨1, 5, [1, 0x20, 7, 9, 9].length, .waiting, none, 2, 0⟩], pools := [(1, { used := [(5, true)] })] } })) 17 0)).1,
       (match (readWords 3 (4 + ([1, 0x20, 7, 9, 9].length + 8) / 9) (bufferAddr 1 5) (setGate (advance 1 ({ writeWords powered (bufferAddr 1 5) ([0, 0, 0, 0] ++ packWords 300 [1, 0x20, 7, 9, 9]) with rx := { frames := [⟨1, 5, [1, 0x20, 7, 9, 9].length, .waiting, none, 2, 0⟩], pools := [(1, { used := [(5, true)] })] } })) 17 0)).2 with | .inl ws => ws | .inr _ => []),
       by decide +kernel⟩,
   ⟨1, 3, { writeWords powered (bufferAddr 1 5) ([0, 0, 0, 0] ++ packWords 300 [1, 0x20, 7, 9, 9]) with rx := { frames := [⟨1, 5, [1, 0x20, 7, 9, 9].length, .waiting, none, 2, 0⟩], pools := [(1, { used := [(5, true)] })] }, image := { descriptors := [(0, (1 ||| at' 33 1, 0))] } },
       ⟨1, 5, [1, 0x20, 7, 9, 9].length, .waiting, none, 2, 0⟩, (readWords 3 (4 + ([1, 0x20, 7, 9,
       9].length + 8) / 9) (bufferAddr 1 5) (setGate (advance 1 ({ writeWords powered (bufferAddr 1 5) ([0, 0, 0, 0] ++ packWords 300 [1, 0x20, 7, 9, 9]) with rx := { frames := [⟨1, 5, [1, 0x20, 7, 9, 9].length, .waiting, none, 2, 0⟩], pools := [(1, { used := [(5, true)] })] }, image := { descriptors := [(0, (1 ||| at' 33 1, 0))] } })) 17 0)).1,
       (match (readWords 3 (4 + ([1, 0x20, 7, 9, 9].length + 8) / 9) (bufferAddr 1 5) (setGate (advance 1 ({ writeWords powered (bufferAddr 1 5) ([0, 0, 0, 0] ++ packWords 300 [1, 0x20, 7, 9, 9]) with rx := { frames := [⟨1, 5, [1, 0x20, 7, 9, 9].length, .waiting, none, 2, 0⟩], pools := [(1, { used := [(5, true)] })] }, image := { descriptors := [(0, (1 ||| at' 33 1, 0))] } })) 17 0)).2 with | .inl ws => ws | .inr _ => []),
       (1 ||| at' 33 1, 0), (parseFrame [1, 0x20, 7]).getD ⟨⟨fcfOf 0, 0, 0, 0, 0⟩, 0, [], 0, 0, false⟩, some_of _ (by decide +kernel),
       by decide +kernel⟩,
   ⟨1, 7, 1, { itm with st := .queued, expiry := some 1 }, (withItem { itm with st := .queued, expiry := some 1 } {} powered),
       by decide +kernel⟩,
   ⟨0, 3, 2, { writeWords powered 0x20000 [3 ||| at' 7 2 ||| at' 31 1, 0] with tb := { set := true, value := BitVec.ofNat 120 ((slotStart { powered with tb := { set := true } } 3 + 9) * 2 ^ 48) }, mac := { running := [(0, true)] }, pairRole := 2, pair := { heardAsn := some 2 }, inForce := [(0x9000, 1), (0x9001, 1)] },
       by decide +kernel⟩,
   ⟨0, 3, 2, { writeWords powered 0x20000 [3 ||| at' 7 2 ||| at' 31 1, 0] with tb := { set := true, value := BitVec.ofNat 120 ((slotStart { powered with tb := { set := true } } 3 + 9) * 2 ^ 48) }, mac := { running := [(0, true)] }, pairRole := 2, pair := { heardAsn := none }, inForce := [(0x9000, 1), (0x9001, 1)] },
       by decide +kernel⟩,
   ⟨usC 2500, { powered with shape := { tick := 1000, flows := [(0, {}), (9, { sent := 4 })] } }, by decide +kernel⟩⟩

/-- Every hypothesis of `ForwardingPipelines` is met. -/
theorem witness_ForwardingPipelines :
    (∃ (pp : Pipe) (s : State), running s = true ∧ nextUplink s pp.val = none) ∧
    (∃ (pp : Pipe) (s : State), ∃ f, running s = true ∧ nextUplink s pp.val = some f) ∧
    (∃ (dt : Nat) (pp : Pipe) (k : Fin 512) (r : Reasm) (s : State), running s = true ∧ tblGet (fwd s pp.val).reasm k.val = some r ∧
        s.now + dt < r.since + secC (par s 0x3E15)) ∧
    (∃ (dt : Nat) (pp : Pipe) (k : Fin 512) (r : Reasm) (s : State), running s = true ∧ tblGet (fwd s pp.val).reasm k.val = some r ∧
        r.since + secC (par s 0x3E15) ≤ s.now + dt) ∧
    (∃ (dt k : Nat) (pp : Pipe) (l : Learn) (ls : List Learn) (s : State), running s = true ∧ (fwd s pp.val).learnQ = l :: ls ∧
        (fwd s pp.val).rehash = none ∧
        findIn (meetSlots (setFwd (advance dt s) pp.val { fwd s pp.val with learnQ := ls }) pp.val l.node.key) pp.val l.node.key = none ∧
        emptyFor (meetSlots (setFwd (advance dt s) pp.val { fwd s pp.val with learnQ := ls }) pp.val l.node.key) pp.val l.node.key = some k) ∧
    (∃ (s : State), running s = true) ∧
    (∃ (dt : Nat) (pp : Pipe) (s : State), running s = true ∧ s.now + dt < (fwd s pp.val).sweepAt + secC (par s 0x381C)) ∧
    (∃ (dt : Nat) (pp : Pipe) (s : State), running s = true ∧ (fwd s pp.val).sweepAt + secC (par s 0x381C) ≤ s.now + dt) ∧
    (∃ (pp : Pipe) (j : Rehash) (s : State), running s = true ∧ (fwd s pp.val).rehash = some j) ∧
    (∃ (pp : Pipe) (d : Down) (ds : List Down) (s : State), running s = true ∧ (fwd s pp.val).down = d :: ds ∧ d.hostMem = false) ∧
    (∃ (pp : Pipe) (d : Down) (ds : List Down) (s : State), ∃ hc job f w, running s = true ∧ (fwd s pp.val).down = d :: ds ∧
        d.src = .inject hc job f w ∧ d.hostMem = false ∧ ip6Ok d.packet = true ∧ f ≠ 0 ∧ (flow s f).enabled = false) ∧
    (∃ (pp : Pipe) (d : Down) (ds : List Down) (s : State), ∃ hc job f w, running s = true ∧ (fwd s pp.val).down = d :: ds ∧
        d.src = .inject hc job f w ∧ d.hostMem = true) ∧
    (∃ (pp : Pipe) (d : Down) (ds : List Down) (s : State), ∃ hc job f w, ∃ b, ∃ os : Octets, running s = true ∧
        (fwd s pp.val).down = d :: ds ∧ d.src = .inject hc job f w ∧ d.hostMem = true ∧ (dmaEndpoint s hc).isSome = true ∧
        injectBuf s d = some b ∧ d.reads.isSome = true ∧ os.length = b.length) ∧
    (∃ (dt : Nat) (pp : Pipe) (hc : Hc) (e : ExcSlot) (es : List ExcSlot) (b : PostedBuf) (s : State), ∃ v ws, running s = true ∧
        (fwd s pp.val).excQ = e :: es ∧ par s (0x3F04 + pp.val) = hc.val ∧ openBuffer s hc = some b ∧ b.shm = true ∧
        windowBase hc ≤ b.addr.toNat ∧ b.addr.toNat + (b.length + 8) / 9 ≤ windowBase hc + 65536 ∧
        readWords (5 + pp.val) (((min e.length b.length) + 8) / 9) (excAddr pp.val e.place) (setFwd (advance dt s) pp.val { fwd s pp.val with excQ := es }) = (v,
        .inl ws)) ∧
    (∃ (pp : Pipe) (ok : Bool) (hc : Hc) (e : ExcSlot) (es : List ExcSlot) (b : PostedBuf) (s : State), running s = true ∧
        (fwd s pp.val).excQ = e :: es ∧ par s (0x3F04 + pp.val) = hc.val ∧ openBuffer s hc = some b ∧ b.shm = false ∧
        (ok = false ∨ dmaEndpoint s hc = none)) :=
  ⟨⟨1, powered, by decide +kernel⟩,
   ⟨1, { powered with rx := { frames := [⟨2, 9, 20, .finished, none, 2, 0⟩] }, inForce := [(0x3000, 1), (0x3001, 1), (0x3002, 1)] },
       (nextUplink ({ powered with rx := { frames := [⟨2, 9, 20, .finished, none, 2, 0⟩] }, inForce := [(0x3000, 1), (0x3001, 1), (0x3002, 1)] }) 1).getD ⟨2,
       9, 20, .finished, none, 2, 0⟩, by decide +kernel⟩,
   ⟨1, 1, 511, (⟨3, 7, 8, 100, [(0, 1)], 5, none, none⟩ : Reasm),
       { powered with now := 4, fwds := [(1, { reasm := [(511, (⟨3, 7, 8, 100, [(0, 1)], 5, none, none⟩ : Reasm))] })] },
       by decide +kernel⟩,
   ⟨1, 1, 511, (⟨3, 7, 8, 100, [(0, 1)], 5, none, none⟩ : Reasm),
       { powered with now := 5 + secC (par powered 0x3E15), fwds := [(1, { reasm := [(511, (⟨3, 7, 8, 100, [(0, 1)], 5, none, none⟩ : Reasm))] })] },
       by decide +kernel⟩,
   ⟨1, (emptyFor powered 1 ({ eui := 5, learned := true } : Node).key).getD 0, 1, ⟨1, { eui := 5, learned := true }⟩, [⟨1,
       { eui := 5, learned := true }⟩],
       { powered with fwds := [(1, { learnQ := [⟨1, { eui := 5, learned := true }⟩, ⟨1, { eui := 5, learned := true }⟩] })] },
       by decide +kernel⟩,
   ⟨powered, by decide +kernel⟩,
   ⟨secC (par powered 0x381C) - 1, 1, powered, by decide +kernel⟩,
   ⟨secC (par powered 0x381C), 1, (putNode powered (.slot 1 9) (some { eui := 5, learned := true })), by decide +kernel⟩,
   ⟨1, ⟨0, 3, 0, 1, 2⟩, { powered with fwds := [(1, { rehash := some ⟨0, 3, 0, 1, 2⟩ })], ctxs := [(0, { bind := 1, st := 1, injects := [⟨3, false, 0, 4⟩], journal := [{ id := 3, tag := 5, opcode := 0x300, room := 3, notify := false }] })] },
       by decide +kernel⟩,
   ⟨1, (⟨.port 0 none, ([0x60, 0, 0, 0, 0, 0, 59, 9] ++ beOctets 16 (2 ^ 125 + 1) ++ beOctets 16 (2 ^ 125)), false, none, 5, 0⟩ : Down),
       [(⟨.port 0 none, [], false, none, 5, 0⟩ : Down)],
       { powered with fwds := [(1, { down := [(⟨.port 0 none, ([0x60, 0, 0, 0, 0, 0, 59, 9] ++ beOctets 16 (2 ^ 125 + 1) ++ beOctets 16 (2 ^ 125)), false, none, 5, 0⟩ : Down), (⟨.port 0 none, [], false, none, 5, 0⟩ : Down)] })], ctxs := [(0, { bind := 1, st := 1, injects := [⟨3, false, 0, 4⟩], journal := [{ id := 3, tag := 5, opcode := 0x300, room := 3, notify := false }] })] },
       by decide +kernel⟩,
   ⟨1, (⟨.inject 0 3 9 0, ([0x60, 0, 0, 0, 0, 0, 59, 9] ++ beOctets 16 (2 ^ 125 + 1) ++ beOctets 16 (2 ^ 125)), false, none, 5, 0⟩ : Down),
       [(⟨.port 0 none, [], false, none, 5, 0⟩ : Down)],
       { powered with fwds := [(1, { down := [(⟨.inject 0 3 9 0, ([0x60, 0, 0, 0, 0, 0, 59, 9] ++ beOctets 16 (2 ^ 125 + 1) ++ beOctets 16 (2 ^ 125)), false, none, 5, 0⟩ : Down), (⟨.port 0 none, [], false, none, 5, 0⟩ : Down)] })], ctxs := [(0, { bind := 1, st := 1, injects := [⟨3, false, 0, 4⟩], journal := [{ id := 3, tag := 5, opcode := 0x300, room := 3, notify := false }] })] },
       0, 3, 9, 0, by decide +kernel⟩,
   ⟨1, (⟨.inject 0 3 9 0, [], true, none, 5, 0⟩ : Down), [(⟨.port 0 none, [], false, none, 5, 0⟩ : Down)],
       { powered with fwds := [(1, { down := [(⟨.inject 0 3 9 0, [], true, none, 5, 0⟩ : Down), (⟨.port 0 none, [], false, none, 5, 0⟩ : Down)] })], ctxs := [(0, { bind := 1, st := 1, injects := [⟨3, false, 0, 4⟩], journal := [{ id := 3, tag := 5, opcode := 0x300, room := 3, notify := false }] })] },
       0, 3, 9, 0, by decide +kernel⟩,
   ⟨1, (⟨.inject 0 3 9 0, [], true, some (0, 0, 1), 5, 0⟩ : Down), [(⟨.port 0 none, [], false, none, 5, 0⟩ : Down)],
       { powered with fwds := [(1, { down := [(⟨.inject 0 3 9 0, [], true, some (0, 0, 1), 5, 0⟩ : Down), (⟨.port 0 none, [], false, none, 5, 0⟩ : Down)] })], ctxs := [(0, { bind := 1, st := 1, injects := [⟨3, false, 0, 4⟩], journal := [{ id := 3, tag := 5, opcode := 0x300, room := 3, notify := false }] })] },
       0, 3, 9, 0, ⟨3, false, 0, 4⟩, [1, 2, 3, 4], by decide +kernel⟩,
   ⟨1, 1, 0, (⟨4, 30, 4, 0, 2, 0, 9⟩ : ExcSlot), [(⟨4, 30, 4, 0, 2, 0, 9⟩ : ExcSlot)], (⟨3, true, 0x100000, 64⟩ : PostedBuf),
       { powered with fwds := [(1, { excQ := [(⟨4, 30, 4, 0, 2, 0, 9⟩ : ExcSlot), (⟨4, 30, 4, 0, 2, 0, 9⟩ : ExcSlot)] })], inForce := [(0x3F05, 0)], ctxs := [(0, { bind := 1, st := 1, bufs := [(⟨3, true, 0x100000, 64⟩ : PostedBuf)], journal := [{ id := 3, tag := 5, opcode := 0x301, room := 3, notify := false }] })] },
       (readWords 6 4 (excAddr 1 4) (setFwd (advance 1 ({ powered with fwds := [(1, { excQ := [(⟨4, 30, 4, 0, 2, 0, 9⟩ : ExcSlot), (⟨4, 30, 4, 0, 2, 0, 9⟩ : ExcSlot)] })], inForce := [(0x3F05, 0)], ctxs := [(0, { bind := 1, st := 1, bufs := [(⟨3, true, 0x100000, 64⟩ : PostedBuf)], journal := [{ id := 3, tag := 5, opcode := 0x301, room := 3, notify := false }] })] })) 1 { fwd ({ powered with fwds := [(1, { excQ := [(⟨4, 30, 4, 0, 2, 0, 9⟩ : ExcSlot), (⟨4, 30, 4, 0, 2, 0, 9⟩ : ExcSlot)] })], inForce := [(0x3F05, 0)], ctxs := [(0, { bind := 1, st := 1, bufs := [(⟨3, true, 0x100000, 64⟩ : PostedBuf)], journal := [{ id := 3, tag := 5, opcode := 0x301, room := 3, notify := false }] })] }) 1 with excQ := [(⟨4, 30, 4, 0, 2, 0, 9⟩ : ExcSlot)] })).1,
       (match (readWords 6 4 (excAddr 1 4) (setFwd (advance 1 ({ powered with fwds := [(1, { excQ := [(⟨4, 30, 4, 0, 2, 0, 9⟩ : ExcSlot), (⟨4, 30, 4, 0, 2, 0, 9⟩ : ExcSlot)] })], inForce := [(0x3F05, 0)], ctxs := [(0, { bind := 1, st := 1, bufs := [(⟨3, true, 0x100000, 64⟩ : PostedBuf)], journal := [{ id := 3, tag := 5, opcode := 0x301, room := 3, notify := false }] })] })) 1 { fwd ({ powered with fwds := [(1, { excQ := [(⟨4, 30, 4, 0, 2, 0, 9⟩ : ExcSlot), (⟨4, 30, 4, 0, 2, 0, 9⟩ : ExcSlot)] })], inForce := [(0x3F05, 0)], ctxs := [(0, { bind := 1, st := 1, bufs := [(⟨3, true, 0x100000, 64⟩ : PostedBuf)], journal := [{ id := 3, tag := 5, opcode := 0x301, room := 3, notify := false }] })] }) 1 with excQ := [(⟨4, 30, 4, 0, 2, 0, 9⟩ : ExcSlot)] })).2 with | .inl ws => ws | .inr _ => []),
       by decide +kernel⟩,
   ⟨1, false, 0, (⟨4, 30, 4, 0, 2, 0, 9⟩ : ExcSlot), [(⟨4, 30, 4, 0, 2, 0, 9⟩ : ExcSlot)], (⟨3, false, 0x100000, 64⟩ : PostedBuf),
       { powered with fwds := [(1, { excQ := [(⟨4, 30, 4, 0, 2, 0, 9⟩ : ExcSlot), (⟨4, 30, 4, 0, 2, 0, 9⟩ : ExcSlot)] })], inForce := [(0x3F05, 0)], ctxs := [(0, { bind := 1, st := 1, bufs := [(⟨3, false, 0x100000, 64⟩ : PostedBuf)], journal := [{ id := 3, tag := 5, opcode := 0x301, room := 3, notify := false }] })] },
       by decide +kernel⟩⟩

/-- Every hypothesis of `BackbonePorts` is met. -/
theorem witness_BackbonePorts :
    (∃ (q : Port) (f : Octets) (s : State), running s = true ∧ isPartnerPort s q.val = false ∧
        f ≠ f.take (f.length - 4) ++ leOctets 4 (crc32 (f.take (f.length - 4))).toNat) ∧
    (∃ (q : Port) (f : Octets) (s : State), running s = true ∧ isPartnerPort s q.val = false ∧
        f = f.take (f.length - 4) ++ leOctets 4 (crc32 (f.take (f.length - 4))).toNat ∧ f.length < 64) ∧
    (∃ (q : Port) (f : Octets) (s : State), running s = true ∧ isPartnerPort s q.val = false ∧
        f = f.take (f.length - 4) ++ leOctets 4 (crc32 (f.take (f.length - 4))).toNat ∧ 64 ≤ f.length ∧ f.length ≤ par s 0x9C07 ∧
        prpMode s = false ∧ hsrMode s = false ∧ standby s = false ∧ (ethHdr (f.take (f.length - 4))).etype = 0x86DD ∧
        (ethHdr (f.take (f.length - 4))).dst = ownMac s ∧ (ptpAt (f.take (f.length - 4))).isSome = false ∧
        ip6Ok ((f.take (f.length - 4)).drop (ethHdr (f.take (f.length - 4))).off) = true ∧
        icmpType (ip6Trim ((f.take (f.length - 4)).drop (ethHdr (f.take (f.length - 4))).off)) = none ∧
        isLinkLocal (ip6Dst (ip6Trim ((f.take (f.length - 4)).drop (ethHdr (f.take (f.length - 4))).off))) = false ∧
        (fwd s (pipeOf s (q.val + 3))).down.length < 512) ∧
    (∃ (q : Port) (f : EthFrame) (s : State), running s = true ∧ (port s q.val).up = true ∧ nextEgress (port s q.val).egress = some f ∧
        f.stamp = .none) ∧
    (∃ (dt : Nat) (q : Port) (f : EthFrame) (a : BitVec 23) (s v : State), running s = true ∧ (port s q.val).up = true ∧
        nextEgress (port s q.val).egress = some f ∧ f.stamp = .none ∧
        readWord (setPort (advance dt s) q.val { port s q.val with egress := (port s q.val).egress.erase f }) a.toNat 7 = (v, none)) ∧
    (∃ (q : Port) (up : Bool) (s : State), running s = true ∧ (port s q.val).up = up) ∧
    (∃ (q : Port) (up : Bool) (s : State), running s = true ∧ (port s q.val).up ≠ up) ∧
    (∃ (dt : Nat) (s : State), running s = true ∧ prpMode s = true ∧ s.bb.supPrpAt + msC (par s 0x9801) ≤ s.now + dt ∧ hsrMode s = true ∧
        s.bb.supHsrAt + msC (par s 0x9801) ≤ s.now + dt) ∧
    (∃ (dt : Nat) (q : Port) (s : State), running s = true ∧ (port s q.val).fault = false ∧ q.val < 2 ∧ prpMode s = true ∧
        max (port s q.val).rxAt s.pair.startAt + msC (par s 0x9802) ≤ s.now + dt ∧
        s.now + dt < (port s (otherOf q.val)).rxAt + msC (par s 0x9802)) ∧
    (∃ (dt : Nat) (q : Port) (s : State), ∃ e, running s = true ∧ (port s q.val).fault = false ∧ 2 ≤ q.val ∧ hsrMode s = true ∧
        (port s q.val).supAt = some e ∧ e + msC (par s 0x9803) ≤ s.now + dt) ∧
    (∃ (dt : Nat) (q : Port) (hsr : Bool) (f : Octets) (s t : State) (e : Instr), exec e s = .next t ∧ e ∈ [Instr.backboneRxFrame dt q f,
        .egressFrame dt q none, .supervisionSend dt hsr, .prpLanTimeout dt q, .hsrRingTimeout dt q]) :=
  ⟨⟨3, (ipFrame.set 20 1), powered, by decide +kernel⟩,
   ⟨3, (withFcs (ipFrame.take 59)), powered, by decide +kernel⟩,
   ⟨3, ipFrame, powered, by decide +kernel⟩,
   ⟨3, (⟨1, [1, 2, 3, 4], .none, false⟩ : EthFrame),
       { powered with bb := { ports := [(3, { up := true, egress := [⟨2, [9], .none, false⟩, (⟨1, [1, 2, 3, 4], .none, false⟩ : EthFrame)] })] } },
       by decide +kernel⟩,
   ⟨1, 3, (⟨1, [1, 2, 3, 4], .none, false⟩ : EthFrame), 5,
       (poisonWord ({ powered with bb := { ports := [(3, { up := true, egress := [⟨2, [9], .none, false⟩, (⟨1, [1, 2, 3, 4], .none, false⟩ : EthFrame)] })] } }) 5),
       (readWord (setPort (advance 1 (poisonWord ({ powered with bb := { ports := [(3, { up := true, egress := [⟨2, [9], .none, false⟩, (⟨1, [1, 2, 3, 4], .none, false⟩ : EthFrame)] })] } }) 5)) 3 { port ({ powered with bb := { ports := [(3, { up := true, egress := [⟨2, [9], .none, false⟩, (⟨1, [1, 2, 3, 4], .none, false⟩ : EthFrame)] })] } }) 3 with egress := [⟨2, [9], .none, false⟩] }) 5 7).1,
       by decide +kernel⟩,
   ⟨3, true, { powered with bb := { ports := [(3, { up := true })] } }, by decide +kernel⟩,
   ⟨3, true, { powered with bb := { ports := [(3, { up := false })] } }, by decide +kernel⟩,
   ⟨secC 10, { powered with inForce := [(0x9C00, 1), (0x9C03, 1)], bb := { supSeqPrp := 0xFFFF, supSeqHsr := 4 } }, by decide +kernel⟩,
   ⟨msC (par powered 0x9802) + 5, 0,
       { powered with inForce := [(0x9C00, 1)], bb := { ports := [(0, { rxAt := 2 }), (1, { rxAt := 90 })] } }, by decide +kernel⟩,
   ⟨msC (par powered 0x9803) + 5, 3, { powered with inForce := [(0x9C03, 1)], bb := { ports := [(3, { supAt := some 5 })] } }, 5,
       by decide +kernel⟩,
   ⟨1, 3, true, ipFrame, { powered with bb := { ports := [(3, { up := true, egress := [(⟨1, [1, 2, 3, 4], .none, false⟩ : EthFrame)] })] } },
       _, .backboneRxFrame 1 3 ipFrame, next_of (by decide +kernel), by decide +kernel⟩⟩

/-- Every hypothesis of `PairUnits` is met. -/
theorem witness_PairUnits :
    (∃ (dt : Nat) (hc : Hc) (s u : State) (p : Packet), Took dt hc 0x900 1 0 s p u ∧ reservedSet (p.word 1) (bits 2 0) = false ∧
        pairMode u = false) ∧
    (∃ (dt : Nat) (hc : Hc) (s u : State) (p : Packet), Took dt hc 0x900 1 0 s p u ∧ reservedSet (p.word 1) (bits 2 0) = false ∧
        pairMode u = true ∧ (fld (p.word 1) 1 0) = 3) ∧
    (∃ (dt : Nat) (hc : Hc) (s u : State) (p : Packet), Took dt hc 0x900 1 0 s p u ∧ reservedSet (p.word 1) (bits 2 0) = false ∧
        pairMode u = true ∧ (fld (p.word 1) 1 0) ≠ 3 ∧ u.pairRole = (if (fld (p.word 1) 1 0) = 0 then 2 else 1 : BitVec 2)) ∧
    (∃ (dt : Nat) (hc : Hc) (s u : State) (p : Packet), Took dt hc 0x900 1 0 s p u ∧ reservedSet (p.word 1) (bits 2 0) = false ∧
        pairMode u = true ∧ (fld (p.word 1) 1 0) ≤ 1 ∧ u.pairRole ≠ (if (fld (p.word 1) 1 0) = 0 then 2 else 1 : BitVec 2) ∧
        u.pair.link = false) ∧
    (∃ (dt : Nat) (hc : Hc) (s u : State) (p : Packet), Took dt hc 0x900 1 0 s p u ∧ reservedSet (p.word 1) (bits 2 0) = false ∧
        pairMode u = true ∧ (((fld (p.word 1) 1 0) = 1 ∧ u.pair.link = true) ∨ (fld (p.word 1) 1 0) = 2) ∧ u.pairRole ≠ 1 ∧
        pairFit u = false) ∧
    (∃ (dt : Nat) (hc : Hc) (s u : State) (p : Packet), Took dt hc 0x900 1 0 s p u ∧ reservedSet (p.word 1) (bits 2 0) = false ∧
        pairMode u = true ∧ ((fld (p.word 1) 1 0) = 0 ∨ ((fld (p.word 1) 1 0) = 1 ∧ pairFit u = true)) ∧
        u.pairRole ≠ (if (fld (p.word 1) 1 0) = 0 then 2 else 1 : BitVec 2) ∧ u.pair.link = true) ∧
    (∃ (dt : Nat) (hc : Hc) (s u : State) (p : Packet), Took dt hc 0x900 1 0 s p u ∧ reservedSet (p.word 1) (bits 2 0) = false ∧
        pairMode u = true ∧ (fld (p.word 1) 1 0) = 2 ∧ u.pairRole ≠ 1 ∧ pairFit u = true) ∧
    (∃ (dt : Nat) (hc : Hc) (s u : State) (p : Packet), Took dt hc 0x901 0 6 s p u) ∧
    (∃ (dt cause a : Nat) (s : State), running s = true ∧ dueRole (advance dt s) = some (1, cause, a) ∧ s.pairRole = 2) ∧
    (∃ (dt cause a : Nat) (s : State), running s = true ∧ dueRole (advance dt s) = some (2, cause, a) ∧ s.pairRole = 1) ∧
    (∃ (dt n : Nat) (h : Handover) (s : State), running s = true ∧ s.pair.handover = some h ∧ asnNow (advance dt s) = some n ∧ h.asn ≤ n) ∧
    (∃ (dt a : Nat) (s : State), running s = true ∧ standby s = true ∧ preferred s = true ∧ s.pair.link = true ∧ pairFit s = true ∧
        s.pair.suspended = false ∧ max (max s.pair.lastMiss s.pair.lastChange) s.pair.unfitAt + secC (par s 0x9402) ≤ s.now + dt ∧
        s.pair.handover = none ∧ s.pair.proposal = none ∧ leadStart (advance dt s) = some a) ∧
    (∃ (dt : Nat) (s : State), running s = true ∧ pairMode s = true ∧ s.pair.helloTx + msC (par s 0x9405) ≤ s.now + dt) ∧
    (∃ (m : Octets) (ms : List Octets) (s : State), running s = true ∧ s.bb.partnerIn = m :: ms ∧ oct m 1 = 1) ∧
    (∃ (m : Octets) (ms : List Octets) (s : State), running s = true ∧ s.bb.partnerIn = m :: ms ∧ oct m 1 = 2) ∧
    (∃ (m : Octets) (ms : List Octets) (s : State), ∃ j, running s = true ∧ s.bb.partnerIn = m :: ms ∧ oct m 1 = 3 ∧
        s.pair.proposal = some j ∧ (m.drop 10).take 7 = proposalOctets j.asn j.kind j.suspend) ∧
    (∃ (m : Octets) (ms : List Octets) (s : State), running s = true ∧ s.bb.partnerIn = m :: ms ∧ oct m 1 = 4 ∧ standby s = false) ∧
    (∃ (dt : Nat) (m : Octets) (ms : List Octets) (s : State), running s = true ∧ s.bb.partnerIn = m :: ms ∧ oct m 1 = 4 ∧
        standby s = true ∧ oct m 12 ≠ 0 ∧ s.pair.overheard = [] ∧
        ((m.drop 31).take (txLength (BitVec.ofNat 72 (natOfLe ((m.drop 13).take 9)) : Word))).length = txLength (BitVec.ofNat 72 (natOfLe ((m.drop 13).take 9)) : Word) ∧
        (submit (bump { advance dt s with bb := { s.bb with partnerIn := ms } } 0x1A84) (BitVec.ofNat 72 (natOfLe ((m.drop 13).take 9)) : Word) (BitVec.ofNat 72 (natOfLe ((m.drop 22).take 9)) : Word) ((m.drop 31).take (txLength (BitVec.ofNat 72 (natOfLe ((m.drop 13).take 9)) : Word))) .mirror).2 = none) ∧
    (∃ (dt : Nat) (s : State), running s = true ∧ s.pair.link = true ∧ (partnerPortUp s = false ∨ s.pair.helloRx = none ∨ ∃ r,
        s.pair.helloRx = some r ∧ r + msC (3 * par s 0x9405) ≤ s.now + dt)) ∧
    (∃ (dt r : Nat) (s : State), running s = true ∧ partnerPortUp s = true ∧ s.pair.helloRx = some r ∧
        s.now + dt < r + msC (3 * par s 0x9405)) ∧
    (∃ (dt : Nat) (j : Proposal) (s : State), running s = true ∧ s.pair.proposal = some j ∧ j.at_ + msC (3 * par s 0x9405) ≤ s.now + dt) :=
  ⟨⟨0, 0, (sq 0x900 ([0]) (powered)), _, _, took_of (by decide +kernel), by decide +kernel⟩,
   ⟨0, 0, (sq 0x900 ([3]) ((paired2 1 {  }))), _, _, took_of (by decide +kernel), by decide +kernel⟩,
   ⟨0, 0, (sq 0x900 ([0]) ((paired2 2 {  }))), _, _, took_of (by decide +kernel), by decide +kernel⟩,
   ⟨0, 0, (sq 0x900 ([0]) ((paired2 1 {  }))), _, _, took_of (by decide +kernel), by decide +kernel⟩,
   ⟨0, 0, (sq 0x900 ([2]) ({ (paired2 2 {  }) with inForce := [(0x9000, 1), (0x9001, 1), (0x1404, 0)] })), _, _,
       took_of (by decide +kernel), by decide +kernel⟩,
   ⟨0, 0, (sq 0x900 ([0]) ((paired2 1 { link := true }))), _, _, took_of (by decide +kernel), by decide +kernel⟩,
   ⟨0, 0, (sq 0x900 ([2]) ((paired2 2 {  }))), _, _, took_of (by decide +kernel), by decide +kernel⟩,
   ⟨0, 0, (sq 0x901 ([]) (powered)), _, _, took_of (by decide +kernel)⟩,
   ⟨0, 4, 3, (paired2 2 { due := some (1, 4, 3), misses := 2 }), by decide +kernel⟩,
   ⟨0, 2, 3, (paired2 1 { due := some (2, 2, 3) }), by decide +kernel⟩,
   ⟨0, 9999 + 1, ⟨5, 1, 2⟩, (paired2 2 { handover := some ⟨5, 1, 2⟩ }), by decide +kernel⟩,
   ⟨secC 61, (leadStart (advance (secC 61) (paired2 2 { link := true }))).getD 0, (paired2 2 { link := true }), by decide +kernel⟩,
   ⟨msC 100, (paired2 1 {  }), by decide +kernel⟩,
   ⟨([1, 1] ++ beOctets 8 77 ++ [5, 0, 0, 0, 1, 2, 0, 0, 0, 0, 9]), [[9]],
       { (paired2 1 {  }) with bb := { partnerIn := [([1, 1] ++ beOctets 8 77 ++ [5, 0, 0, 0, 1, 2, 0, 0, 0, 0, 9]), [9]] } },
       by decide +kernel⟩,
   ⟨([1, 2] ++ beOctets 8 77 ++ beOctets 5 700 ++ [0, 0]), [[9]],
       { (paired2 1 {  }) with bb := { partnerIn := [([1, 2] ++ beOctets 8 77 ++ beOctets 5 700 ++ [0, 0]), [9]] } }, by decide +kernel⟩,
   ⟨([1, 3] ++ beOctets 8 77 ++ proposalOctets 700 2 true), [[9]],
       { (paired2 1 { proposal := some ⟨700, 2, true, 5, none⟩ }) with bb := { partnerIn := [([1, 3] ++ beOctets 8 77 ++ proposalOctets 700 2 true), [9]] } },
       ⟨700, 2, true, 5, none⟩, by decide +kernel⟩,
   ⟨([1, 4] ++ beOctets 8 77 ++ [0, 0, 1] ++ List.replicate 30 0), [[9]],
       { (paired2 1 {  }) with bb := { partnerIn := [([1, 4] ++ beOctets 8 77 ++ [0, 0, 1] ++ List.replicate 30 0), [9]] } },
       by decide +kernel⟩,
   ⟨1, ([1, 4] ++ beOctets 8 77 ++ [0, 0, 1] ++ leOctets 9 (2 ^ 34 + 2 ^ 14) ++ leOctets 9 5 ++ [7]), [[9]],
       { writeWords (paired2 2 {  }) 0x20000 [1, 0] with bb := { partnerIn := [([1, 4] ++ beOctets 8 77 ++ [0, 0, 1] ++ leOctets 9 (2 ^ 34 + 2 ^ 14) ++ leOctets 9 5 ++ [7]), [9]] } },
       by decide +kernel⟩,
   ⟨1, (paired2 1 { link := true }), by decide +kernel⟩,
   ⟨1, 0, { (paired2 1 { helloRx := some 0 }) with bb := { ports := [(2, { up := true }), (3, { up := true })] } }, by decide +kernel⟩,
   ⟨msC 300, ⟨700, 2, true, 0, none⟩,
       { (paired2 1 { proposal := some ⟨700, 2, true, 0, none⟩ }) with ctxs := [(0, { bind := 1, st := 1, journal := [{ id := 3, tag := 5, opcode := 0x900, room := 3, notify := false }] })] },
       by decide +kernel⟩⟩

/-- Every hypothesis of `StartSequence` is met. -/
theorem witness_StartSequence :
    (∃ (s : State), s.start.phase ≠ .starting) ∧
    (∃ (s : State), s.start.phase = .starting ∧ s.start.stage = .cleanerLock ∧ s.clk.ref = .acquiring) ∧
    (∃ (s : State), s.start.phase = .starting ∧ s.start.stage = .pllLock) ∧
    (∃ (s : State), s.start.phase = .starting ∧ s.start.stage = .fuse ∧
        ((failedGroups s).testBit 0 || (failedGroups s).testBit 1 || (failedGroups s).testBit 3) = true) ∧
    (∃ (s : State), s.start.phase = .starting ∧ s.start.stage = .fuse ∧
        ((failedGroups s).testBit 0 || (failedGroups s).testBit 1 || (failedGroups s).testBit 3) = false ∧ fld s.otp 2330 2323 ≠ 0x0F) ∧
    (∃ (obs : StartObs) (s : State), s.start.phase = .starting ∧ s.start.stage = .memTest ∧ mapSites (failedSites s obs) = none) ∧
    (∃ (obs : StartObs) (s : State), ∃ r, s.start.phase = .starting ∧ s.start.stage = .memTest ∧ mapSites (failedSites s obs) = some r) ∧
    (∃ (s : State), s.start.phase = .starting ∧ s.start.stage = .validClear) ∧
    (∃ (s : State), s.start.phase = .starting ∧ s.start.stage = .staging) ∧
    (∃ (s : State), s.start.phase = .starting ∧ s.start.stage = .verify ∧ s.start.warm = false ∧ fld s.start.straps 1 0 = 1) ∧
    (∃ (dt : Nat) (obs : StartObs) (s : State), s.start.phase = .starting ∧ s.start.stage = .verify ∧ s.start.warm = false ∧
        fld s.start.straps 1 0 ≠ 1 ∧
        (∀ c ∈ setChoices { advance dt s with start := { s.start with flashAOk := obs.sfdpOkA, flashBOk := obs.sfdpOkB } },
        setVerifies { advance dt s with start := { s.start with flashAOk := obs.sfdpOkA, flashBOk := obs.sfdpOkB } } c.set = false)) ∧
    (∃ (dt : Nat) (obs : StartObs) (s : State), s.start.phase = .starting ∧ s.start.stage = .verify ∧ s.start.warm = true ∧
        s.update.running ≠ [] ∧
        (checkParts { advance dt s with start := { s.start with flashAOk := obs.sfdpOkA, flashBOk := obs.sfdpOkB, cacheReloaded := false } }).2 = []) ∧
    (∃ (s : State), s.start.phase = .starting ∧ s.start.stage = .load) ∧
    (∃ (s : State), s.start.phase = .starting ∧ s.start.stage = .firmware) :=
  ⟨⟨powered, by decide +kernel⟩,
   ⟨(starting .cleanerLock { powered with clk := { ref := .acquiring } }), by decide +kernel⟩,
   ⟨(starting .pllLock powered), by decide +kernel⟩,
   ⟨(starting .fuse powered), by decide +kernel⟩,
   ⟨(starting .fuse { fused 0 with otp := BitVec.ofNat 16384 (27146 * 2 ^ 128 + 55522 * 2 ^ 1958 + 10252 * 2 ^ 2270 + 450 * 2 ^ 2331 + 60547 * 2 ^ 5419) }),
       by decide +kernel⟩,
   ⟨{ sitesFailed := [0], rowsFailed := [], sfdpOkA := true, sfdpOkB := false, noiseOk := true }, (starting .memTest powered),
       by decide +kernel⟩,
   ⟨{ sitesFailed := [], rowsFailed := [], sfdpOkA := true, sfdpOkB := false, noiseOk := true }, (starting .memTest powered), (31, 31, 15),
       by decide +kernel⟩,
   ⟨(starting .validClear powered), by decide +kernel⟩,
   ⟨(starting .staging powered), by decide +kernel⟩,
   ⟨{ powered with start := { phase := .starting, stage := .verify, straps := 1 } }, by decide +kernel⟩,
   ⟨1, { sitesFailed := [], rowsFailed := [], sfdpOkA := false, sfdpOkB := false, noiseOk := true }, (starting .verify powered),
       by decide +kernel⟩,
   ⟨1, { sitesFailed := [], rowsFailed := [], sfdpOkA := true, sfdpOkB := false, noiseOk := true }, cached, by decide +kernel⟩,
   ⟨(starting .load powered), by decide +kernel⟩,
   ⟨(starting .firmware powered), by decide +kernel⟩⟩

/-- Every hypothesis of `StartFailureIsLeftOnlyByReset` is met. -/
theorem witness_StartFailureIsLeftOnlyByReset :
    (∃ s t : State, FailureHalts s ∧ step s = .next t) ∧
    (∃ (s t : State) (c : Instr) (cs : List Instr), FailureHalts s ∧ step s = .next t ∧ s.start.phase = .failure ∧ s.pending = c :: cs ∧
        leavesFailure c = false) ∧
    (∃ (s : State) (c : Instr) (cs : List Instr), s.start.phase = .failure ∧ s.pending = c :: cs ∧ leavesFailure c = true) :=
  ⟨⟨heldState, _, by unfold FailureHalts; decide +kernel, next_of (by decide +kernel)⟩,
   ⟨{ (failStart powered 6 0) with pending := [.tapReset 3] }, _, .tapReset 3, [], by unfold FailureHalts; decide +kernel,
       next_of (by decide +kernel), by decide +kernel⟩,
   ⟨{ (failStart powered 6 0) with pending := [.rstNReset 3] }, .rstNReset 3, [], by decide +kernel⟩⟩

/-! ### Hypotheses that speak of keys, signatures and images -/

def anyObs : StartObs := { sitesFailed := [], rowsFailed := [], sfdpOkA := true, sfdpOkB := false, noiseOk := true }

/-- The fuse stage of `StartSequence`, where the root key's check value does not match, and where it does. -/
theorem witness_StartSequence_rootKey :
    (∃ s : State, s.start.phase = .starting ∧ s.start.stage = .fuse ∧
      ((failedGroups s).testBit 0 || (failedGroups s).testBit 1 || (failedGroups s).testBit 3) = false ∧ fld s.otp 2330 2323 = 0x0F ∧
      (kcvAes (rootKey s)).toNat ≠ fld s.otp 415 400) ∧
    (∃ s : State, s.start.phase = .starting ∧ s.start.stage = .fuse ∧
      ((failedGroups s).testBit 0 || (failedGroups s).testBit 1 || (failedGroups s).testBit 3) = false ∧ fld s.otp 2330 2323 = 0x0F ∧
      (kcvAes (rootKey s)).toNat = fld s.otp 415 400) := by
  refine ⟨⟨fused (kcvAes (leOctets 32 0) + 1), rfl, rfl, by rw [failedGroups_fused]; rfl, lifecycle_fused _, ?_⟩,
    ⟨fused (kcvAes (leOctets 32 0)), rfl, rfl, by rw [failedGroups_fused]; rfl, lifecycle_fused _, ?_⟩⟩
  · rw [rootKey_fused, kcv_fused]
    generalize kcvAes (leOctets 32 0) = x
    bv_omega
  · rw [rootKey_fused, kcv_fused]

/-- The choice of a set in `StartSequence`, where the set of FLASH_A verifies: its table image is a value that no spec file lays out
(log 44), so that nothing here can give one that verifies. -/
theorem witness_StartSequence_set
    (h : setVerifies { advance 1 choosing with start := { choosing.start with flashAOk := true, flashBOk := false } }
      (setRegion powered.flashA (bootOf powered.flashA).1.active) = true) :
    ∃ (s : State) (c : Choice), s.start.phase = .starting ∧ s.start.stage = .verify ∧ s.start.warm = false ∧ fld s.start.straps 1 0 ≠ 1 ∧
      (setChoices { advance 1 s with start := { s.start with flashAOk := anyObs.sfdpOkA, flashBOk := anyObs.sfdpOkB } }).find?
        (fun c => setVerifies { advance 1 s with start := { s.start with flashAOk := anyObs.sfdpOkA, flashBOk := anyObs.sfdpOkB } } c.set) =
        some c := by
  refine ⟨choosing, ⟨setRegion powered.flashA (bootOf powered.flashA).1.active, (bootOf powered.flashA).1.active, false, false⟩, rfl, rfl, rfl, by decide +kernel, ?_⟩
  rw [show setChoices { advance 1 choosing with start := { choosing.start with flashAOk := anyObs.sfdpOkA, flashBOk := anyObs.sfdpOkB } } =
    [⟨setRegion powered.flashA (bootOf powered.flashA).1.active, (bootOf powered.flashA).1.active, false, false⟩] from by
      rw [setChoices]; simp [choosing, anyObs, powered, advance, show (bootOf {}).1.previous = 255 from by decide +kernel]]
  exact List.find?_cons_of_pos h

/-- An update header whose key is the first authority's and whose signature OpenSSL made. -/
def signed : Octets :=
  (header 0x9740).take 52 ++
    beOctets 32 0xF6FD2299089707E38C62329EC907D2B32DA91F5A5FBE50F20F4F9B54E2BD6822 ++
    beOctets 32 0x845E04851B03C982731E02CDC2E226BC6073C9B8A537BF7777C8514ABAF57E6F ++
    beOctets 32 0x6D25C1AFA59D35518C5F67021A930637B4CE6202B5D523615EA0D0D27C5A5F66 ++
    beOctets 32 0xE8D9B9B3A5CA93D8F86D6A1B4CFEA879DFCB33E4E3FE74A02E68BDAC2E46D952

/-- An update begins on a device whose fuses hold the digest of that key. -/
def updating : State :=
  sq 0x700 (180 :: words signed)
    { session {} {} with otp := BitVec.ofNat 16384 ((sha256 ((signed.drop 52).take 64)).toNat * 2 ^ 416) }

/-- The last clause of UPDATE_BEGIN in `UpdateSession`. -/
theorem witness_UpdateSession_begin :
    ∃ (s u : State) (p : Packet), Took 0 0 0x700 4 2 s p u ∧ reservedSet (p.word 1) (bits 7 0) = false ∧
      (par u 0x7800).testBit 0 = true ∧ u.update.holder = none ∧ (bootOf u.flashA).1.state ≠ 3 ∧ fld (p.word 1) 7 0 = 180 ∧
      p.payload.length = 21 ∧ headerForm ((unpackWords (p.payload.drop 1)).take 180) = true ∧
      headerRefusal u ((unpackWords (p.payload.drop 1)).take 180) = none := by
  exact ⟨updating, _, _, took_of (by decide +kernel), by decide +kernel, by decide +kernel, by decide +kernel, by decide +kernel,
    by decide +kernel, by decide +kernel, by decide +kernel, by decide +kernel⟩

/-- A blob for domain 3 that KEK 1 of `wrapping` wraps: its key is the octets 1 to 16. -/
def wrapped : Octets :=
  [1, 2, 3, 1] ++ beOctets 4 5 ++ [0, 4, 1, 0, 0xDB, 0xF1, 0, 0] ++
    beOctets 40 0x2D64BCAC4CA57E87658FF4F2AA4BEF8D910CE700AA90257826E58BC1B05779802614FDB2F1B5C411

/-- The state with the blob's packet at the front, and the one in which KEY_LOAD executes. -/
def loading : State := sq 0x500 (56 :: words wrapped) wrapping

/-- What the blob's octets are in the packet that is taken. -/
def loaded : Octets := (unpackWords ((tk 0x500 2 1 loading).1.payload.drop 1)).take (fld ((tk 0x500 2 1 loading).1.word 1) 7 0)

/-- The state after both of the domain's entries have been read. -/
def entriesRead : State := (readKey (readKey (tk 0x500 2 1 loading).2 (blobBase (beField loaded 2 1) 0) 10).1 (blobBase (beField loaded 2 1) 1) 10).1

/-- A slot from a result. -/
def slotOr (x : Except Status KeySlot) : KeySlot := match x with | .ok k => k | .error _ => {}

theorem slotOr_ok {σ : Type} (x : σ × Except Status KeySlot) (h : (match x.2 with | .ok _ => true | .error _ => false) = true) :
    x = (x.1, .ok (slotOr x.2)) := by
  obtain ⟨a, b⟩ := x
  cases b with
  | ok k => rfl
  | error e => cases h

/-- KEY_LOAD's last clause in `KeyCommandsAndEntropy`. -/
theorem witness_KeyLoad_unwraps :
    ∃ (s u : State) (p : Packet) (b : Octets) (v w : State) (k : KeySlot), Took 0 0 0x500 2 1 s p u ∧ reservedSet (p.word 1) (bits 7 0) = false ∧
      1 + (fld (p.word 1) 7 0 + 8) / 9 ≤ p.payload.length ∧ b = (unpackWords (p.payload.drop 1)).take (fld (p.word 1) 7 0) ∧
      owns u 0 1 (beField b 2 1) = true ∧ keyInWork u = none ∧ blobSourced u (beField b 2 1) = true ∧ blobWellFormed b = true ∧
      v = (readKey (readKey u (blobBase (beField b 2 1) 0) 10).1 (blobBase (beField b 2 1) 1) 10).1 ∧
      (readKey u (blobBase (beField b 2 1) 0) 10).2 = true ∧
      (readKey (readKey u (blobBase (beField b 2 1) 0) 10).1 (blobBase (beField b 2 1) 1) 10).2 = true ∧
      currentSub v (beField b 2 1) = none ∧ openBlob (ensureKek v (beField b 10 1 % 16)) b (beField b 2 1) (nowSeconds u) = (w, .ok k) ∧
      kcvAes k.key = k.kcv := by
  refine ⟨loading, _, _, loaded, entriesRead, _, _, took_of (by decide +kernel), by decide +kernel, by decide +kernel, rfl,
    by decide +kernel, by decide +kernel, by decide +kernel, by decide +kernel, rfl, by decide +kernel, by decide +kernel, by decide +kernel,
    slotOr_ok _ (by decide +kernel), by decide +kernel⟩

/-- Two clauses of `KeyCommandsAndEntropy`: KEY_INVALIDATE of a domain whose key lies in the key store, and the load of a KEK's slot.
OpenSSL sealed the stored record. -/
theorem witness_KeyStore_opens :
    (∃ (s u : State) (p : Packet) (c : Nat), Took 0 0 0x501 1 1 s p u ∧ reservedSet (p.word 1) (bits 10 0) = false ∧
      (p.word 1).getLsbD 0 = false ∧ owns u 0 1 (fld (p.word 1) 8 1) = true ∧ fld (p.word 1) 10 9 = 0 ∧
      blobSourced u (fld (p.word 1) 8 1) = false ∧ currentSub u (fld (p.word 1) 8 1) = some c) ∧
    (∃ (n : Fin 528) (s : State) (i : Nat), running s = true ∧ n.val < 16 ∧ (keySlot s n.val).st = .empty ∧ recCurrent s (1 + n.val) = some i ∧
      (useSlot (advance 1 s) 529).2 = true) := by
  exact ⟨⟨sq 0x501 [at' 1 3] storing, _, _, 0, took_of (by decide +kernel), by decide +kernel, by decide +kernel, by decide +kernel,
    by decide +kernel, by decide +kernel, by decide +kernel⟩, ⟨0, storing, 0, by decide +kernel, by decide +kernel, by decide +kernel,
    by decide +kernel, by decide +kernel⟩⟩

/-- Fuses that hold a root key. -/
def keyed (key : Nat) (s : State) : State := { s with otp := (BitVec.ofNat 16384 5 <<< 2000) ||| (BitVec.ofNat 16384 key <<< 144) }

/-- A state with another root key, as `RootKeyIsNotRead` writes it. -/
def rekeyed (u : State) (key : BitVec 256) : State :=
  { u with otp := (u.otp &&& ~~~((((2 ^ 256 - 1 : Nat) : BitVec 16384)) <<< 144)) ||| ((key.setWidth 16384) <<< 144) }

/-- Both commands of `RootKeyIsNotRead`: states that differ in the root key alone, and the packet that is taken from either. -/
theorem witness_RootKeyIsNotRead :
    (∃ (s s' u u' : State) (p : Packet), u' = rekeyed u 77 ∧ Took 0 0 0x004 1 32 s p u ∧ Took 0 0 0x004 1 32 s' p u' ∧
      reservedSet (p.word 1) (bits 25 0) = false) ∧
    (∃ (s s' u u' : State) (p : Packet), u' = rekeyed u 77 ∧ Took 0 0 0x001 0 16 s p u ∧ Took 0 0 0x001 0 16 s' p u') := by
  exact ⟨⟨keyed 0 (sq 4 [at' 0 140 ||| at' 14 200] powered), keyed 77 (sq 4 [at' 0 140 ||| at' 14 200] powered), _, _, _, by rfl,
      took_of (by decide +kernel), took_of (by decide +kernel), by decide +kernel⟩,
    ⟨keyed 0 (sq 1 [] powered), keyed 77 (sq 1 [] powered), _, _, _, by rfl, took_of (by decide +kernel), took_of (by decide +kernel)⟩⟩

/-- A pipeline whose first packet waits for its reads since an instant. -/
def waiting (since : Option (Nat × Fin 2 × Nat)) : State :=
  { powered with fwds := [(0, { down := [⟨.inject 0 3 9 0, [], true, since, 5, 0⟩] })] }

/-- A packet whose reads have waited for 50 ms by an instant, as `ForwardingPipelines` writes it. -/
def Waits (hc : Hc) (now : Nat) (x : Down) : Prop :=
  ∃ at_ e n job f w, x.reads = some (at_, e, n) ∧ x.src = .inject hc job f w ∧ at_ + msC 50 ≤ now

/-- The clauses of `ForwardingPipelines` on DMA_COMPLETION_TIMEOUT: no packet waits, and the first one does. -/
theorem witness_ForwardingPipelines_waits :
    (∃ (hc : Hc) (s : State), running s = true ∧ ∀ q ≤ 1, ∀ x ∈ (fwd s q).down, ¬ Waits hc (s.now + msC 50) x) ∧
    (∃ (hc : Hc) (s : State) (q : Nat) (d : Down) (pre ds : List Down) (job f : Nat) (w : Word), running s = true ∧ q ≤ 1 ∧
      (fwd s q).down = pre ++ d :: ds ∧ Waits hc (s.now + msC 50) d ∧ (∀ x ∈ pre, ¬ Waits hc (s.now + msC 50) x) ∧
      (q = 1 → ∀ x ∈ (fwd s 0).down, ¬ Waits hc (s.now + msC 50) x) ∧ d.src = .inject hc job f w) := by
  refine ⟨⟨0, waiting none, by decide +kernel, ?_⟩, ⟨0, waiting (some (0, 0, 1)), 0, ⟨.inject 0 3 9 0, [], true, some (0, 0, 1), 5, 0⟩, [], [], 3, 9, 0,
    by decide +kernel, by decide, rfl, ⟨0, 0, 1, 3, 9, 0, rfl, rfl, by decide⟩, by simp, by simp, rfl⟩⟩
  intro q hq x hx
  have hn : x.reads = none := by
    rcases Nat.le_one_iff_eq_zero_or_eq_one.mp hq with rfl | rfl
    · rw [show (fwd (waiting none) 0).down = [⟨.inject 0 3 9 0, [], true, none, 5, 0⟩] from rfl] at hx
      rw [List.mem_singleton.mp hx]
    · rw [show (fwd (waiting none) 1).down = [] from rfl] at hx
      cases hx
  rintro ⟨_, _, _, _, _, _, h, _⟩
  rw [hn] at h
  cases h

end Sys2Proof.Tests
end

section
/-!
SUPPORT. The statements of the scope chapter: direct registers and the events of a context, reads through BAR2, and
COUNTER_READ. First the facts about the operations they share, then one part for each statement.
-/

namespace Sys2Proof.Machine

/-! ### What time running on leaves as it was -/

@[simp] theorem ctx_advance (dt : Nat) (s : State) (hc : Hc) : ctx (advance dt s) hc = ctx s hc := rfl
@[simp] theorem ctxOf_advance (dt : Nat) (s : State) (att : Att) : ctxOf (advance dt s) att = ctxOf s att := rfl
@[simp] theorem attachmentOn_advance (dt : Nat) (s : State) (att : Att) :
    attachmentOn (advance dt s) att = attachmentOn s att := rfl
@[simp] theorem regsServed_advance (dt : Nat) (s : State) : regsServed (advance dt s) = regsServed s := rfl
@[simp] theorem serving_advance (dt : Nat) (s : State) : serving (advance dt s) = serving s := rfl
@[simp] theorem coldStarting_advance (dt : Nat) (s : State) : coldStarting (advance dt s) = coldStarting s := rfl
@[simp] theorem shmServed_advance (dt : Nat) (s : State) : shmServed (advance dt s) = shmServed s := rfl

/-- A context's entry does not depend on what has left the device. -/
@[simp] theorem ctx_emit (s : State) (o : Output) (hc : Hc) : ctx (emit s o) hc = ctx s hc := rfl

/-! ### Attachments and bindings (R42, R97, R101) -/

/-- An attachment that serves a context can carry something. -/
theorem attachmentOn_of_ctxOf {s : State} {att : Att} {hc : Hc} (h : ctxOf s att = some hc) : attachmentOn s att = true := by
  unfold ctxOf at h
  split at h
  · assumption
  · cases h

/-- Through an attachment that can carry nothing no context is served. -/
theorem ctxOf_eq_none_of_off {s : State} {att : Att} (h : attachmentOn s att = false) : ctxOf s att = none := by
  simp [ctxOf, h]

/-- Storing a context with the binding it had leaves its binding in force. -/
theorem bindOf_setCtx_self {s : State} {hc : Hc} {c : Ctx} (h : c.bind = (ctx s hc).bind) :
    bindOf (setCtx s hc c) hc = bindOf s hc := by
  simp [bindOf, h]

/-- A vector of a context bound to an enabled endpoint leaves through it. -/
theorem signal_eq_emit {s : State} {hc : Hc} {e : Fin 2} (v : Nat) (hb : pcieOf (bindOf s hc) = some e)
    (he : endpointOn s e = true) : signal s hc v = emit s (.msix e v) := by
  simp [signal, hb, he]

/-! ### Direct registers (R139, R140) -/

/-- A register read that is served sends the register's value through the attachment. -/
theorem hostRegRead_served {dt : Nat} {s : State} {att : Att} (o : Nat) (hr : regsServed s = true)
    (ha : attachmentOn s att = true) : hostRegRead dt s att o =
      .next (emit (readReg (advance dt s) o).1 (.register att (readReg (advance dt s) o).2)) := by
  simp [hostRegRead, hr, ha]

/-- A register write that is served is the write of the register. -/
theorem hostRegWrite_served {dt : Nat} {s : State} {att : Att} (o : Nat) (v : BitVec 32) (hr : regsServed s = true)
    (ha : attachmentOn s att = true) : hostRegWrite dt s att o v = orFault (writeReg (advance dt s) att o v) := by
  simp [hostRegWrite, hr, ha]

/-- The registers from 0x100 on are the blocks of the contexts, 0x40 apart (R140). -/
theorem readReg_hcBlock (s : State) (hc : Hc) {o r : Nat} (ho : o = 0x100 + 0x40 * hc.val + r) (hr : r < 0x40) :
    readReg s o = readHcReg s hc r := by
  have hlt : hc.val < 4 := hc.isLt
  have hblock : Fin.ofNat 4 ((o - 0x100) / 0x40) = hc := by
    ext
    rw [Fin.val_ofNat]
    omega
  have hoff : o % 0x40 = r := by omega
  -- every register of the map below 0x100 is compared first
  unfold readReg
  iterate 21 rw [if_neg (by omega)]
  rw [if_pos (by omega), hblock, hoff]

/-- The latch registers are registers of R140. -/
theorem isRegister_latch (pin : Fin 4) (k : Fin 8) : isRegister (0x200 + 0x20 * pin.val + 4 * k.val) = true := by
  have := pin.isLt
  have := k.isLt
  simp only [isRegister, Bool.and_eq_true, Bool.or_eq_true, beq_iff_eq, decide_eq_true_eq]
  omega

/-- The latch registers from 0x200 on: 0x20 for each pin, one word for each 32 sources (R140, R144). -/
theorem writeReg_latch {s : State} {att : Att} {hc : Hc} (pin : Fin 4) (k : Fin 8) (v : BitVec 32) (h : ctxOf s att = some hc) :
    writeReg s att (0x200 + 0x20 * pin.val + 4 * k.val) v = .ok (writeLatch s hc pin.val k.val v) := by
  have hp := pin.isLt
  have hk := k.isLt
  have hpin : (0x200 + 0x20 * pin.val + 4 * k.val - 0x200) / 0x20 = pin.val := by omega
  have hword : (0x200 + 0x20 * pin.val + 4 * k.val) % 0x20 / 4 = k.val := by omega
  unfold writeReg
  rw [isRegister_latch, if_neg (by decide), h]
  dsimp only
  rw [if_neg (by omega), if_neg (by omega), if_neg (by omega), if_pos (by omega), hpin, hword]

/-- The registers below 0x60 are read-only: a write to one is ignored (R139, R140). -/
theorem writeReg_readOnly (s : State) (att : Att) {o : Nat} (v : BitVec 32) (hreg : isRegister o = true) (ho : o < 0x60) :
    writeReg s att o v = .ok s := by
  unfold writeReg
  rw [hreg, if_neg (by decide)]
  cases ctxOf s att with
  | none => rfl
  | some hc =>
    dsimp only
    rw [if_neg (by omega), if_neg (by omega), if_neg (by omega), if_neg (by omega)]

/-- A write at a reserved offset is undefined host action 9 (R140, R569). -/
theorem writeReg_reserved (s : State) (att : Att) {o : Nat} (v : BitVec 32) (hreg : isRegister o = false) :
    writeReg s att o v = .error 9 := by
  simp [writeReg, hreg]

/-- The pin's holder clears the bits written as 1, and no other latch and nothing else changes (R144). -/
theorem writeLatch_holder {s : State} {hc : Hc} {pin : Nat} (k : Nat) (v : BitVec 32) (h : owns s hc 5 (52 + pin) = true) :
    writeLatch s hc pin k v =
      { s with latches := tblPut s.latches (8 * pin + k) (tblAt s.latches (8 * pin + k) 0 &&& ~~~v) } := by
  simp [writeLatch, h]

/-- Of any other context the write is ignored (R144). -/
theorem writeLatch_stranger {s : State} {hc : Hc} {pin : Nat} (k : Nat) (v : BitVec 32) (h : owns s hc 5 (52 + pin) = false) :
    writeLatch s hc pin k v = s := by
  simp [writeLatch, h]

/-! ### Broken locks (R130) -/

/-- Breaking a context's locks releases exactly the locks it holds. -/
theorem breakLocks_locks (s : State) (hc : Hc) (cause : Nat) :
    (breakLocks s hc cause).locks = s.locks.filter (fun e => e.2.hc != hc) := by
  unfold breakLocks
  dsimp only
  split <;> simp

/-- Breaking a context's locks discards its transaction and leaves the rest of its entry. -/
theorem ctx_breakLocks_self (s : State) (hc : Hc) (cause : Nat) :
    ctx (breakLocks s hc cause) hc = { ctx s hc with txn := none } := by
  unfold breakLocks
  dsimp only
  split
  · exact ctx_setCtx_self _ _ _
  · unfold ctx
    rw [raiseTo_ctxs]
    exact ctx_setCtx_self _ _ _

/-! ### RegisterSideEffects (R9, R101, R130, R134, R139, R140, R144, R158, R569) -/

/-- HC_DB_IGNORED_READ sends the count and clears it (R9, R134). -/
theorem exec_hcDbIgnoredRead {dt : Nat} {att : Att} {hc : Hc} {s : State} (hr : regsServed s = true)
    (ha : attachmentOn s att = true) : exec (.hcDbIgnoredRead dt att hc) s =
      .next (emit (setCtx (advance dt s) hc { ctx s hc with dbIgnored := 0 }) (.register att (ctx s hc).dbIgnored)) := by
  have hread := readReg_hcBlock (advance dt s) hc (o := 0x120 + 0x40 * hc.val) (r := 0x20) (by omega) (by omega)
  refine (hostRegRead_served (0x120 + 0x40 * hc.val) hr ha).trans ?_
  rw [hread]
  rfl

/-- HC_EQ_LOST_READ sends the count and clears it (R9, R158). -/
theorem exec_hcEqLostRead {dt : Nat} {att : Att} {hc : Hc} {s : State} (hr : regsServed s = true)
    (ha : attachmentOn s att = true) : exec (.hcEqLostRead dt att hc) s =
      .next (emit (setCtx (advance dt s) hc { ctx s hc with eqLost := 0 }) (.register att (ctx s hc).eqLost)) := by
  have hread := readReg_hcBlock (advance dt s) hc (o := 0x124 + 0x40 * hc.val) (r := 0x24) (by omega) (by omega)
  refine (hostRegRead_served (0x124 + 0x40 * hc.val) hr ha).trans ?_
  rw [hread]
  rfl

/-- IRQ_LATCH_CLEAR of a bound context is its write of the latch (R144). -/
theorem exec_irqLatchClear {dt : Nat} {att : Att} (pin : Fin 4) (k : Fin 8) (v : BitVec 32) {hc : Hc} {s : State}
    (hr : regsServed s = true) (hc' : ctxOf s att = some hc) :
    exec (.irqLatchClear dt att pin k v) s = .next (writeLatch (advance dt s) hc pin.val k.val v) := by
  refine (hostRegWrite_served (0x200 + 0x20 * pin.val + 4 * k.val) v hr (attachmentOn_of_ctxOf hc')).trans ?_
  rw [writeReg_latch (s := advance dt s) pin k v hc']
  rfl

/-- CQ_COALESCE_EXPIRY of a delay that has come signals vector 0 and ends the delay (R101). -/
theorem exec_cqCoalesceExpiry {dt : Nat} {hc : Hc} {e : Fin 2} {x : Nat} {s : State} (hr : regsServed s = true)
    (hx : (ctx s hc).coalesce = some x) (hdue : x ≤ s.now + dt) (hb : pcieOf (bindOf s hc) = some e)
    (he : endpointOn s e = true) : exec (.cqCoalesceExpiry dt hc) s =
      .next (emit (setCtx (advance dt s) hc { ctx s hc with coalesce := none }) (.msix e 0)) := by
  have hd : due (advance dt s) x = true := decide_eq_true hdue
  have hb' : pcieOf (bindOf (setCtx (advance dt s) hc { ctx s hc with coalesce := none }) hc) = some e := by
    rw [bindOf_setCtx_self (by rfl)]
    exact hb
  have hsig := signal_eq_emit 0 hb' he
  show execCqCoalesceExpiry dt hc s = _
  simp only [execCqCoalesceExpiry, always, ctx_advance, hx, regsServed_advance, hr, hd, Bool.and_self, if_true, hsig]

/-- LOCK_LEASE_EXPIRY of a context with an expired lease, while commands are served, breaks its locks (R130). -/
theorem exec_lockLeaseExpiry {dt : Nat} {hc : Hc} {s : State} {l : Nat × Lock} (hs : serving s = true) (hl : l ∈ s.locks)
    (hhc : l.2.hc = hc) (hdue : l.2.till ≤ s.now + dt) :
    exec (.lockLeaseExpiry dt hc) s = .next (breakLocks (advance dt s) hc 0) := by
  have hany : s.locks.any (fun e => e.2.hc == hc && due (advance dt s) e.2.till) = true :=
    List.any_eq_true.mpr ⟨l, hl, by simp [hhc, due, hdue]⟩
  show execLockLeaseExpiry dt hc s = _
  simp only [execLockLeaseExpiry, always, serving_advance, hs, advance_locks, hany, Bool.and_self, if_true]

/-- Settles O17: each row's effect is the named register operation on the state with time advanced. -/
theorem registerSideEffects : Obligations.RegisterSideEffects := by
  refine ⟨fun dt att hc s hr ha => ⟨?_, ?_⟩, fun dt att pin k v hc s hr hctx => ⟨fun how => ?_, fun how => ?_⟩,
    fun dt att o v s hr ha => ⟨fun hreg ho => ?_, fun hreg => ?_⟩, fun dt hc e x s hr hx hdue hb he => ?_,
    fun dt hc s l hs hl hhc hdue => ?_⟩
  · exact ⟨_, exec_hcDbIgnoredRead hr ha, by simp, by simp⟩
  · exact ⟨_, exec_hcEqLostRead hr ha, by simp, by simp⟩
  · refine ⟨_, exec_irqLatchClear pin k v hr hctx, ?_⟩
    rw [writeLatch_holder (s := advance dt s) k.val v how]
    exact ⟨tblAt_tblPut_self _ _ _ _, rfl⟩
  · rw [exec_irqLatchClear pin k v hr hctx, writeLatch_stranger (s := advance dt s) k.val v how]
  · refine (hostRegWrite_served o.toNat v hr ha).trans ?_
    rw [writeReg_readOnly _ _ _ hreg ho]
    rfl
  · refine (hostRegWrite_served o.toNat v hr ha).trans ?_
    rw [writeReg_reserved _ _ _ hreg]
    rfl
  · exact ⟨_, exec_cqCoalesceExpiry hr hx hdue hb he, by simp, by simp⟩
  · refine ⟨_, exec_lockLeaseExpiry hs hl hhc hdue, fun m hm => ?_, ?_⟩
    · rw [breakLocks_locks] at hm
      simpa using (List.mem_filter.mp hm).2
    · rw [ctx_breakLocks_self]

/-! ### What a read of a word delivers (R166, R167, R168, R171) -/

/-- The addresses below 0x200000 are SHM (R20). -/
theorem regionOf_shm {a : Nat} (ha : a < 0x200000) : regionOf a = .shm := by
  simp [regionOf, ha]

/-- A clean or corrected word delivers its data. -/
theorem readWord_data {s : State} {a : Nat} {d : Word} (code : Nat) (hr : regionOf a ≠ .reserved)
    (h : decodePhys (memRaw s.mem a) = .clean d ∨ decodePhys (memRaw s.mem a) = .corrected d) :
    (readWord s a code).2 = some d := by
  unfold readWord readWordX
  split
  · exact absurd ‹_› hr
  · rcases h with h | h <;> rw [h]

/-- A poisoned word delivers nothing and leaves the memory as it was. -/
theorem readWord_poisoned {s : State} {a : Nat} (code : Nat) (hr : regionOf a ≠ .reserved)
    (h : decodePhys (memRaw s.mem a) = .poisoned) :
    (readWord s a code).2 = none ∧ (readWord s a code).1.mem = s.mem := by
  unfold readWord readWordX
  split
  · exact absurd ‹_› hr
  · rw [h]
    exact ⟨rfl, by rw [logError_mem, meetPoison_mem]⟩

/-- A host's read of SHM is a consumer's read, unless the word is one never written that the device keeps for itself in a form of its
own (log 46). -/
theorem hostRead_shm {s : State} {a : Nat} (code : Nat) (ha : a < 0x200000) (h : memRaw s.mem a ≠ 0 ∨ openWord s a = false) :
    hostRead s a code = readWord s a code := by
  have hdev : memRaw s.mem a = 0 → deviceWord s a (drawFree s).2 = none := fun h0 => by
    simp [deviceWord, regionOf_shm ha, h.resolve_left (not_not_intro h0)]
  unfold hostRead
  rw [if_neg (by omega), if_neg (by omega)]
  split
  · rw [hdev ‹_›]
  · rfl

/-- A word that does not decode as invalid holds its valid bit, so it is not all zeros. -/
theorem memRaw_ne_zero {m : SMap PhysWord} {a : Nat} (h : decodePhys (memRaw m a) ≠ .invalid) : memRaw m a ≠ 0 :=
  fun h0 => h (by rw [h0]; rfl)

/-! ### Bar2ReadsPoisonAsPoisonedTlp (R6, R41, R82, R98, R102, R167, R176) -/

/-- What BAR2 answers for a word read: its data, or a poisoned TLP with the data as stored. -/
def bar2Answer (s : State) (e : Fin 2) (a : Nat) : Option Word → Output
  | some d => .bar2 e false (padded d)
  | none => .bar2 e true (padded (physData (memRaw s.mem a)))

/-- BAR2_READ of a bound endpoint while commands are served answers the host's read of the word. -/
theorem exec_bar2Read_served {dt : Nat} {e : Fin 2} (a : BitVec 21) {hc : Hc} {s : State} (hctx : ctxOf s (.pcie e) = some hc)
    (hs : serving s = true) : exec (.bar2Read dt e a) s =
      .next (emit (hostRead (advance dt s) a.toNat 8).1
        (bar2Answer (advance dt s) e a.toNat (hostRead (advance dt s) a.toNat 8).2)) := by
  have hphase : s.start.phase = .ready ∨ s.start.phase = .recovery := by simpa [serving] using hs
  have hup : (coldStarting s || s.start.phase == .failure) = false := by
    rcases hphase with h | h <;> simp [coldStarting, h]
  have hshm : shmServed s = true := by simp [shmServed, hs]
  show execBar2Read dt e a s = _
  simp only [execBar2Read, always, ctxOf_advance, hctx, coldStarting_advance, advance_start, hup, shmServed_advance, hshm, if_true,
    Bool.false_eq_true, if_false]
  rcases hostRead (advance dt s) a.toNat 8 with ⟨u, _ | d⟩ <;> rfl

/-- BAR2_READ of a bound endpoint answers zero in a cold start (R82). -/
theorem exec_bar2Read_cold {dt : Nat} {e : Fin 2} (a : BitVec 21) {hc : Hc} {s : State} (hctx : ctxOf s (.pcie e) = some hc)
    (hcold : coldStarting s = true) : exec (.bar2Read dt e a) s = .next (emit (advance dt s) (.bar2 e false 0)) := by
  show execBar2Read dt e a s = _
  simp only [execBar2Read, always, ctxOf_advance, hctx, coldStarting_advance, hcold, Bool.true_or, if_true]

/-- BAR2_READ through an endpoint that serves no context returns nothing (R98). -/
theorem exec_bar2Read_unbound {dt : Nat} {e : Fin 2} (a : BitVec 21) {s : State} (hctx : ctxOf s (.pcie e) = none) :
    exec (.bar2Read dt e a) s = .next (advance dt s) := by
  show execBar2Read dt e a s = _
  simp only [execBar2Read, always, ctxOf_advance, hctx]

/-- Settles O19: while commands are served the answer is that of a consumer's read of the word. -/
theorem bar2ReadsPoisonAsPoisonedTlp : Obligations.Bar2ReadsPoisonAsPoisonedTlp := by
  refine ⟨fun dt e a hc s hctx hs => ⟨_, exec_bar2Read_served a hctx hs, fun d hd => ?_, fun hinv hopen => ?_, fun hp => ?_⟩,
    fun dt e a hc s hctx hcold => exec_bar2Read_cold a hctx hcold,
    fun dt e a s h => exec_bar2Read_unbound a (h.elim (ctxOf_eq_none_of_off (att := .pcie e)) id)⟩
  all_goals
    have ha : a.toNat < 0x200000 := a.isLt
    have hres : regionOf a.toNat ≠ .reserved := by rw [regionOf_shm ha]; decide
  · have hne : memRaw s.mem a.toNat ≠ 0 := memRaw_ne_zero (by rcases hd with h | h <;> simp [h])
    rw [hostRead_shm (s := advance dt s) 8 ha (.inl hne), readWord_data (s := advance dt s) 8 hres hd]
    simp [bar2Answer, padded]
  · rw [hostRead_shm (s := advance dt s) 8 ha (.inr hopen), readWord, readWordX_invalid (advance dt s) _ _ _ hinv]
    simp [bar2Answer, padded]
  · have hne : memRaw s.mem a.toNat ≠ 0 := memRaw_ne_zero (by simp [hp])
    obtain ⟨hnone, hmem⟩ := readWord_poisoned (s := advance dt s) 8 hres hp
    rw [hostRead_shm (s := advance dt s) 8 ha (.inl hne), hnone]
    exact ⟨by simp [bar2Answer, padded], hmem⟩

/-! ### What reading a counter clears (R195, R211, R515) -/

/-- Reading the FIFO underrun bits and the largest waits sets them to zero. -/
theorem clearCounter_count (s : State) {id : Nat} (h : (0x118 ≤ id ∧ id ≤ 0x11B) ∨ (0x400 ≤ id ∧ id < 0x500)) :
    clearCounter s id = setCounter s id 0 := if_pos h

/-- Reading an arbiter's largest hold sets it to zero. -/
theorem clearCounter_hold (s : State) {id : Nat} (h : 0x340 ≤ id ∧ id < 0x374) : clearCounter s id =
    { s with arbs := tblPut s.arbs (id - 0x340) { tblAt s.arbs (id - 0x340) {} with holdMax := 0 } } := by
  rw [clearCounter, if_neg (by omega), if_pos h]

/-- Reading a timer's state clears its flags. -/
theorem clearCounter_timer (s : State) {id : Nat} (h : 0x1700 ≤ id ∧ id < 0x1800 ∧ id % 8 = 6) : clearCounter s id =
    setTimer s ((id - 0x1700) / 8) { timer s ((id - 0x1700) / 8) with
      late := false, matched := false, reloaded := false, capNew := false, capOverrun := false } := by
  rw [clearCounter, if_neg (by omega), if_neg (by omega), if_pos h]

/-- Reading any other counter leaves it as it was. -/
theorem clearCounter_other (s : State) {id : Nat} (h : ¬ ((0x118 ≤ id ∧ id ≤ 0x11B) ∨ (0x400 ≤ id ∧ id < 0x500) ∨
    (0x340 ≤ id ∧ id < 0x374) ∨ (0x1700 ≤ id ∧ id < 0x1800 ∧ id % 8 = 6))) : clearCounter s id = s := by
  rw [clearCounter, if_neg (by omega), if_neg (by omega), if_neg (by omega)]

/-- A counter reads as it was set, up to 64 bits. -/
@[simp] theorem counter_setCounter_self (s : State) (id n : Nat) : counter (setCounter s id n) id = min (2 ^ 64 - 1) n := by
  simp [counter, setCounter]

/-- Setting one counter leaves the others. -/
theorem counter_setCounter_other (s : State) {id k : Nat} (n : Nat) (h : k ≠ id) :
    counter (setCounter s id n) k = counter s k := by
  simp [counter, setCounter, tblAt_tblPut_other _ _ _ _ _ h]

/-- A timer reads back as stored. -/
@[simp] theorem timer_setTimer_self (s : State) (n : Nat) (x : Timer) : timer (setTimer s n x) n = x := by
  simp [timer, setTimer]

/-! ### CounterReads (R9, R195, R211, R515) -/

/-- Reading counters in order clears them in order. -/
theorem readCounters_state (ids : List Nat) (s : State) : (readCounters ids s).1 = ids.foldl clearCounter s := by
  induction ids generalizing s with
  | nil => rfl
  | cons id ids ih => exact ih (clearCounter s id)

/-- Reading counters answers one word for each. -/
theorem readCounters_length (ids : List Nat) (s : State) : (readCounters ids s).2.length = ids.length := by
  induction ids generalizing s with
  | nil => rfl
  | cons id ids ih => exact congrArg (· + 1) (ih (clearCounter s id))

/-- The word of each counter is its value as the readings before it left it. -/
theorem readCounters_word (ids : List Nat) (s : State) {i : Nat} (hi : i < ids.length) : (readCounters ids s).2.getD i 0 =
    BitVec.ofNat 72 (counterValue ((ids.take i).foldl clearCounter s) (ids.getD i 0)) := by
  induction ids generalizing s i with
  | nil => cases hi
  | cons id ids ih =>
    cases i with
    | zero => rfl
    | succ i => exact ih (clearCounter s id) (Nat.lt_of_succ_lt_succ hi)

/-- A command whose packet is taken and whose body completes answers that completion. -/
theorem command_done {dt : Nat} {hc : Hc} {op least most : Nat} {s t u : State} {p : Packet} {st : Status} {ws : List Word}
    {body : Packet → State → CmdOut} (h : takePacket dt hc op least most s = .packet p t) (hb : body p t = .done u st ws) :
    command dt hc op least most s body = .next (completeAs u hc op p.hdr st ws) := by
  rw [command_packet _ _ _ _ _ _ _ _ _ h, hb]

/-- The counters that the run words of a COUNTER_READ name, in order (R195). -/
def runIds (ws : List Word) : List Nat := ws.flatMap (fun w => (List.range (fld w 23 16)).map (fun i => fld w 15 0 + i))

/-- A taken COUNTER_READ with its reserved bits clear and no empty run: refused where it names too many counters, else they are
read in order. -/
theorem exec_counterRead {dt : Nat} {hc : Hc} {s u : State} {p : Packet} (h : Took dt hc 0x802 1 255 s p u)
    (hres : (p.payload.take 8).any (fun w => reservedSet w (bits 23 0)) = false)
    (hrun : (p.payload.take 8).any (fun w => fld w 23 16 == 0) = false) :
    (255 < (runIds (p.payload.take 8)).length →
      exec (.counterRead dt hc) s = .next (completeAs u hc 0x802 p.hdr stLength [])) ∧
    ((runIds (p.payload.take 8)).length ≤ 255 → exec (.counterRead dt hc) s = .next
      (completeAs (readCounters (runIds (p.payload.take 8)) u).1 hc 0x802 p.hdr stOk
        (readCounters (runIds (p.payload.take 8)) u).2)) := by
  have hids : ((p.payload.take 8).map (fun w => (fld w 15 0, fld w 23 16))).flatMap
      (fun r => (List.range r.2).map (fun i => r.1 + i)) = runIds (p.payload.take 8) := List.flatMap_map _ _ _
  have hrun' : ((p.payload.take 8).map (fun w => (fld w 15 0, fld w 23 16))).any (fun r => r.2 == 0) = false :=
    List.any_map.trans hrun
  constructor
  · intro hlen
    refine command_done h ?_
    simp only [hres, hrun', hids, hlen, Bool.false_eq_true, if_false, if_true]
  · intro hlen
    refine command_done h ?_
    simp only [hres, hrun', hids, Nat.not_lt.mpr hlen, Bool.false_eq_true, if_false]

/-- Settles O32: the command by the laws of `readCounters`, the clearing by its four cases. -/
theorem counterReads : Obligations.CounterReads := by
  refine ⟨fun dt hc s u p h hres hrun => ⟨(exec_counterRead h hres hrun).1, fun hlen => ?_⟩,
    fun s id => ⟨fun h => ?_, fun hlo hhi => ?_, fun hlo hhi hmod => ?_, clearCounter_other s⟩⟩
  · refine ⟨_, ((exec_counterRead h hres hrun).2 hlen).trans ?_, readCounters_length _ u, fun i hi => readCounters_word _ u hi⟩
    rw [readCounters_state]
    rfl
  · rw [clearCounter_count s h]
    exact ⟨by simp, fun j hj => counter_setCounter_other s 0 hj, rfl⟩
  · rw [clearCounter_hold s ⟨hlo, hhi⟩]
    exact ⟨by simp, rfl⟩
  · dsimp only
    rw [clearCounter_timer s ⟨hlo, hhi, hmod⟩]
    exact ⟨timer_setTimer_self _ _ _, rfl⟩

end Sys2Proof.Machine
end

section
/-!
SUPPORT. The statements of the architecture chapter. This part: writes through BAR2 (R23, R33).
-/

namespace Sys2Proof.Machine

/-! ### Octets of a word (R6, R23) -/

/-- The octets of zero are zero. -/
@[simp] theorem octetOf_zero (k : Nat) : octetOf 0 k = 0 := by
  simp [octetOf]

/-- An octet of the low 72 bits is the octet of the whole. -/
theorem octetOf_setWidth (d : BitVec 128) {k : Nat} (hk : k < 9) : octetOf (d.setWidth 72) k = (d >>> (8 * k)).setWidth 8 := by
  apply BitVec.eq_of_getLsbD_eq
  intro i hi
  have hlt : 8 * k + i < 72 := by omega
  simp [octetOf, hi, hlt]

/-- The bits of the mask of octet k. -/
theorem getLsbD_octetMask (k : Nat) {i : Nat} (hi : i < 72) : (0xFF#72 <<< (8 * k)).getLsbD i = decide (i / 8 = k) := by
  have hff : ∀ j, (0xFF#72).getLsbD j = decide (j < 8) := fun j => by
    have h := Nat.testBit_two_pow_sub_one 8 j
    simp only [BitVec.getLsbD_ofNat]
    grind
  rw [BitVec.getLsbD_shiftLeft, hff]
  grind

/-- The bits of a merge of the first n octets: new where the bit's octet is one of them and enabled, old elsewhere. -/
theorem getLsbD_mergeFold (en : BitVec 9) (old new : Word) (n : Nat) {i : Nat} (hi : i < 72) :
    ((List.range n).foldl (fun w k =>
      if en.getLsbD k then (w &&& ~~~(0xFF#72 <<< (8 * k))) ||| (new &&& (0xFF#72 <<< (8 * k))) else w) old).getLsbD i =
      if i / 8 < n ∧ en.getLsbD (i / 8) = true then new.getLsbD i else old.getLsbD i := by
  induction n with
  | zero => simp
  | succ n ih =>
    rw [List.range_succ, List.foldl_append, List.foldl_cons, List.foldl_nil]
    split
    next hen =>
      simp only [BitVec.getLsbD_or, BitVec.getLsbD_and, BitVec.getLsbD_not, getLsbD_octetMask n hi, hi, ih]
      by_cases h : i / 8 = n
      · simp [h, hen]
      · have hlt : i / 8 < n + 1 ↔ i / 8 < n := by omega
        simp only [hlt]
        simp [h]
    next hen =>
      rw [ih]
      by_cases h : i / 8 = n
      · simp [h, hen]
      · have hlt : i / 8 < n + 1 ↔ i / 8 < n := by omega
        simp only [hlt]

/-- A merged word has the new octets where enabled and the old ones elsewhere. -/
theorem octetOf_mergeOctets (en : BitVec 9) (old new : Word) {k : Nat} (hk : k < 9) :
    octetOf (mergeOctets en old new) k = if en.getLsbD k then octetOf new k else octetOf old k := by
  apply BitVec.eq_of_getLsbD_eq
  intro i hi
  have hlt : 8 * k + i < 72 := by omega
  have hdiv : (8 * k + i) / 8 = k := by omega
  have hbit := getLsbD_mergeFold en old new 9 hlt
  rw [hdiv] at hbit
  simp only [octetOf, BitVec.getLsbD_setWidth, BitVec.getLsbD_ushiftRight, mergeOctets, hbit, hk, true_and]
  split <;> simp

/-! ### What a consumer's read leaves -/

/-- A consumer's read changes no other word. -/
theorem memRaw_readWordX_other (s : State) (a code : Nat) (extra : Word) {b : Nat} (h : b ≠ a) :
    memRaw (readWordX s a code extra).1.mem b = memRaw s.mem b := by
  unfold readWordX
  split
  · rfl
  · split
    · rfl
    · rfl
    · rfl
    · simp only [logError_mem, meetPoison_mem]
    · split
      · simp only [meetPoison_mem]
      · simp only [logError_mem, meetPoison_mem, bump_mem, memRaw_poisonWord_other s a b h]

/-- Meeting a poisoned word counts under the consumer's code, and no other counter changes (R171). -/
theorem counter_meetPoison_other (s : State) (a code : Nat) (extra : Word) {id : Nat} (h : id ≠ 0x140 + code) :
    counter (meetPoison s a code extra) id = counter s id := by
  have hc : (meetPoison s a code extra).counters = (bump s (0x140 + code)).counters := raiseEv_counters _ _ _ _
  unfold counter
  rw [hc]
  exact counter_bumpBy_other s _ id 1 h

/-- Logging an error changes no counter. -/
theorem counter_logError (s : State) (addr kind consumer : Nat) (syn : BitVec 8) (bank id : Nat) :
    counter (logError s addr kind consumer syn bank) id = counter s id := by
  unfold counter
  rw [logError_counters]

/-- A consumer's read counts corrections, uncorrectable words and what it met poisoned, and no other counter changes. -/
theorem counter_readWord_other (s : State) (a code : Nat) {id : Nat} (hcode : id ≠ 0x140 + code)
    (hce : id < 0x100 ∨ 0x104 < id) (hue : id ≠ 0x108) : counter (readWord s a code).1 id = counter s id := by
  have hcorr : ∀ r, id ≠ ceCounter r := fun r => by cases r <;> simp only [ceCounter] <;> omega
  unfold readWord readWordX
  split
  · rfl
  · split
    · rfl
    · rfl
    · exact counter_bumpBy_other s _ id 1 (hcorr _)
    · dsimp only
      rw [counter_logError, counter_meetPoison_other _ _ _ _ hcode]
    · split
      · dsimp only
        exact counter_meetPoison_other _ _ _ _ hcode
      · dsimp only
        rw [counter_logError, counter_meetPoison_other _ _ _ _ hcode]
        exact counter_bumpBy_other (poisonWord s a) _ id 1 hue

/-- An addition of one to a counter. -/
@[simp] theorem counter_bump_self (s : State) (id : Nat) : counter (bump s id) id = min (2 ^ 64 - 1) (counter s id + 1) :=
  counter_bumpBy_self s id 1

/-! ### Bar2WritesWholeWordsOrOctets (R23, R33) -/

/-- What BAR2_WRITE with a byte enabled comes to on a word that the context may write: the whole word, or a read-modify-write. -/
def bar2Store (s : State) (a : Nat) (enable : BitVec 9) (data : Word) : State :=
  if enable = BitVec.allOnes 9 then writeWord s a data
  else match readWord s a 15 with
    | (s, some old) => writeWord s a (mergeOctets enable old data)
    | (s, none) => bump s 0x10E

/-- A whole-word write stores the word. -/
theorem bar2Store_full (s : State) (a : Nat) (data : Word) :
    bar2Store s a (BitVec.allOnes 9) data = writeWord s a data := if_pos rfl

/-- A partial write of a word that reads as data merges into it. -/
theorem bar2Store_merge {s : State} {a : Nat} {enable : BitVec 9} {old : Word} (data : Word) (hen : enable ≠ BitVec.allOnes 9)
    (h : (readWord s a 15).2 = some old) :
    bar2Store s a enable data = writeWord (readWord s a 15).1 a (mergeOctets enable old data) := by
  rw [bar2Store, if_neg hen]
  split <;> simp_all

/-- A partial write of a word that cannot be read is discarded and counted. -/
theorem bar2Store_discard {s : State} {a : Nat} {enable : BitVec 9} (data : Word) (hen : enable ≠ BitVec.allOnes 9)
    (h : (readWord s a 15).2 = none) : bar2Store s a enable data = bump (readWord s a 15).1 0x10E := by
  rw [bar2Store, if_neg hen]
  split <;> simp_all

/-- No BAR2 write changes another word. -/
theorem memRaw_bar2Store_other (s : State) {a : Nat} (enable : BitVec 9) (data : Word) {b : Nat} (h : b ≠ a) :
    memRaw (bar2Store s a enable data).mem b = memRaw s.mem b := by
  have hread : memRaw (readWord s a 15).1.mem b = memRaw s.mem b := memRaw_readWordX_other s a 15 0 h
  by_cases hen : enable = BitVec.allOnes 9
  · rw [hen, bar2Store_full, memRaw_writeWord_other s a b data h]
  · cases hr : (readWord s a 15).2 with
    | none => rw [bar2Store_discard data hen hr, bump_mem, hread]
    | some old => rw [bar2Store_merge data hen hr, memRaw_writeWord_other _ a b _ h, hread]

/-- BAR2_WRITE of a bound endpoint while SHM is served: a poisoned TLP is discarded and counted, else the word is judged and
stored. -/
theorem exec_bar2Write_served {dt : Nat} {e : Fin 2} {a : BitVec 21} {en : BitVec 16} {d : BitVec 128} {hc : Hc} {s : State}
    (hctx : ctxOf s (.pcie e) = some hc) (hs : shmServed s = true) (hen : en.setWidth 9 ≠ 0) (b : Bool) :
    exec (.bar2Write dt e a en d b) s =
      if b then .next (bump (advance dt s) 0x10F)
      else match shmWriteUndef s hc a.toNat (en.setWidth 9 == BitVec.allOnes 9) with
        | some n => .fault (.undefinedHostAction n)
        | none => .next (bar2Store (advance dt s) a.toNat (en.setWidth 9) (d.setWidth 72)) := by
  have hundef : shmWriteUndef (advance dt s) hc a.toNat (en.setWidth 9 == BitVec.allOnes 9) =
      shmWriteUndef s hc a.toNat (en.setWidth 9 == BitVec.allOnes 9) := rfl
  show execBar2Write dt e a en d b s = _
  simp only [execBar2Write, ctxOf_advance, hctx, shmServed_advance, hs, hen, hundef, Bool.not_true, Bool.false_eq_true, if_false]
  split
  · rfl
  · cases shmWriteUndef s hc a.toNat (en.setWidth 9 == BitVec.allOnes 9) with
    | some n => rfl
    | none =>
      rw [bar2Store]
      dsimp only
      split
      · rfl
      · rcases readWord (advance dt s) a.toNat 15 with ⟨u, _ | old⟩ <;> rfl

/-- BAR2_WRITE of a word that the context may write. -/
theorem exec_bar2Write_allowed {dt : Nat} {e : Fin 2} {a : BitVec 21} {en : BitVec 16} {d : BitVec 128} {hc : Hc} {s : State}
    (hctx : ctxOf s (.pcie e) = some hc) (hs : shmServed s = true) (hen : en.setWidth 9 ≠ 0)
    (hmay : shmWriteUndef s hc a.toNat (en.setWidth 9 == BitVec.allOnes 9) = none) :
    exec (.bar2Write dt e a en d false) s = .next (bar2Store (advance dt s) a.toNat (en.setWidth 9) (d.setWidth 72)) := by
  rw [exec_bar2Write_served hctx hs hen, hmay]
  rfl

/-- The address of a BAR2 word is one of SHM. -/
theorem regionOf_bar2 (a : BitVec 21) : regionOf a.toNat ≠ .reserved := by
  rw [regionOf_shm a.isLt]
  decide

/-- A partial write that reads `old` stores a word with the enabled octets written and the others of `old`. -/
theorem bar2Store_octets {s : State} {a : BitVec 21} {en : BitVec 16} {old : Word} (d : BitVec 128)
    (hen : en.setWidth 9 ≠ BitVec.allOnes 9) (h : (readWord s a.toNat 15).2 = some old) :
    ∃ new, memRaw (bar2Store s a.toNat (en.setWidth 9) (d.setWidth 72)).mem a.toNat = physOf new ∧
      ∀ k < 9, octetOf new k = if en.getLsbD k then (d >>> (8 * k)).setWidth 8 else octetOf old k := by
  refine ⟨mergeOctets (en.setWidth 9) old (d.setWidth 72), ?_, fun k hk => ?_⟩
  · rw [bar2Store_merge _ hen h]
    exact memRaw_writeWord_self _ _ _ (regionOf_bar2 a)
  · simp [octetOf_mergeOctets _ _ _ hk, octetOf_setWidth d hk, hk]

/-- Settles O18: each case is the read-modify-write of one word, and the answer is a function of the low nine bytes. -/
theorem bar2WritesWholeWordsOrOctets : Obligations.Bar2WritesWholeWordsOrOctets := by
  intro dt e a en d hc s hctx hs hen
  have hres := regionOf_bar2 a
  refine ⟨fun hmay => ⟨fun hfull => ?_, fun hpart => ⟨fun old hold => ?_, fun hinv => ?_, fun hpois => ?_⟩⟩, ?_, fun b t ht => ?_,
    fun en' d' b hen' hd' => ?_⟩
  · refine ⟨_, exec_bar2Write_allowed hctx hs hen hmay, ?_⟩
    rw [hfull, bar2Store_full, memRaw_writeWord_self _ _ _ hres]
  · exact ⟨_, exec_bar2Write_allowed hctx hs hen hmay,
      bar2Store_octets d hpart (readWord_data (s := advance dt s) 15 hres hold)⟩
  · have hzero : (readWord (advance dt s) a.toNat 15).2 = some 0 := by
      rw [readWord, readWordX_invalid (advance dt s) _ _ _ hinv]
    have hoct := bar2Store_octets d hpart hzero
    simp only [octetOf_zero] at hoct
    exact ⟨_, exec_bar2Write_allowed hctx hs hen hmay, hoct⟩
  · obtain ⟨hnone, hmem⟩ := readWord_poisoned (s := advance dt s) 15 hres hpois
    refine ⟨_, exec_bar2Write_allowed hctx hs hen hmay, ?_, ?_⟩
    · rw [bar2Store_discard _ hpart hnone, bump_mem, hmem, advance_mem]
    · rw [bar2Store_discard _ hpart hnone, counter_bump_self, counter_readWord_other _ _ _ (by decide) (by decide) (by decide)]
      rfl
  · exact ⟨_, exec_bar2Write_served hctx hs hen true, rfl, counter_bump_self _ _⟩
  · rw [exec_bar2Write_served hctx hs hen] at ht
    intro x hx
    split at ht
    · cases ht
      rfl
    · split at ht
      · cases ht
      · cases ht
        exact memRaw_bar2Store_other _ _ _ hx
  · show execBar2Write dt e a en' d' b s = execBar2Write dt e a en d b s
    rw [execBar2Write, hen', hd']
    rfl

end Sys2Proof.Machine
end

section
/-!
SUPPORT. The statements of the architecture chapter. This part: HSPI transactions (R24, R98, R105 to R109).
-/

namespace Sys2Proof.Machine

/-! ### The inactivity timer (R108) -/

/-- The fall of CS_N touches the entry of one context alone. -/
theorem hspiTouch_eq (s : State) (p : Fin 4) : ∃ c, hspiTouch s p = { s with ctxs := c } := by
  unfold hspiTouch
  split
  · exact ⟨_, rfl⟩
  · dsimp only
    split <;> exact ⟨_, rfl⟩

@[simp] theorem hspiTouch_mem (s : State) (p : Fin 4) : (hspiTouch s p).mem = s.mem := by
  obtain ⟨_, h⟩ := hspiTouch_eq s p
  rw [h]

@[simp] theorem hspiTouch_out (s : State) (p : Fin 4) : (hspiTouch s p).out = s.out := by
  obtain ⟨_, h⟩ := hspiTouch_eq s p
  rw [h]

@[simp] theorem hspiTouch_pins (s : State) (p : Fin 4) : (hspiTouch s p).pins = s.pins := by
  obtain ⟨_, h⟩ := hspiTouch_eq s p
  rw [h]

@[simp] theorem hspiTouch_start (s : State) (p : Fin 4) : (hspiTouch s p).start = s.start := by
  obtain ⟨_, h⟩ := hspiTouch_eq s p
  rw [h]

@[simp] theorem counter_hspiTouch (s : State) (p : Fin 4) (id : Nat) : counter (hspiTouch s p) id = counter s id := by
  obtain ⟨_, h⟩ := hspiTouch_eq s p
  rw [h]
  rfl

@[simp] theorem shmServed_hspiTouch (s : State) (p : Fin 4) : shmServed (hspiTouch s p) = shmServed s := by
  simp [shmServed, serving]

/-- Storing a context with its binding kept leaves every binding in force. -/
theorem bindOf_setCtx_keep {s : State} {hc : Hc} {c : Ctx} (h : c.bind = (ctx s hc).bind) (k : Hc) :
    bindOf (setCtx s hc c) k = bindOf s k := by
  by_cases hk : k = hc
  · subst hk
    exact bindOf_setCtx_self h
  · simp [bindOf, ctx_setCtx_other s hc k c hk]

/-- The fall of CS_N leaves every binding in force. -/
@[simp] theorem bindOf_hspiTouch (s : State) (p : Fin 4) (k : Hc) : bindOf (hspiTouch s p) k = bindOf s k := by
  unfold hspiTouch
  split
  · rfl
  · dsimp only
    split
    · rfl
    · exact bindOf_setCtx_keep (by rfl) k

/-- The fall of CS_N leaves what each attachment serves. -/
@[simp] theorem ctxOf_hspiTouch (s : State) (p : Fin 4) (att : Att) : ctxOf (hspiTouch s p) att = ctxOf s att := by
  have hon : attachmentOn (hspiTouch s p) att = attachmentOn s att := by
    cases att <;> simp [attachmentOn, endpointOn]
  simp [ctxOf, hon]

@[simp] theorem hspiDataPort_hspiTouch (s : State) (p q : Fin 4) : hspiDataPort (hspiTouch s p) q = hspiDataPort s q := by
  simp [hspiDataPort]

@[simp] theorem hspiDataPort_advance (dt : Nat) (s : State) (q : Fin 4) : hspiDataPort (advance dt s) q = hspiDataPort s q := rfl

/-! ### Headers (R105, R106) -/

/-- A header that passes HCRC is whole. -/
theorem length_of_hspiHeader {h : Octets} {x : Nat × Nat × Nat} (hh : hspiHeader h = some x) : h.length = 9 := by
  unfold hspiHeader at hh
  split at hh
  next hc => exact hc.1
  next => cases hh

/-- A transaction with a sound header of the row's command is its body, after CS_N has fallen. -/
theorem hspiTransaction_sound {dt : Nat} (p : Fin 4) {h : Octets} {cmd a n : Nat} {s : State}
    (body : Nat → Nat → State → Except Nat State) (hr : regsServed s = true) (hh : hspiHeader h = some (cmd, a, n)) :
    hspiTransaction dt p h cmd s body = orFault (body a n (hspiTouch (advance dt s) p)) := by
  simp [hspiTransaction, hr, hh, length_of_hspiHeader hh]

/-- A transaction whose header fails HCRC is counted, and nothing else happens (R106). -/
theorem hspiTransaction_badHeader {dt : Nat} (p : Fin 4) {h : Octets} (cmd : Nat) {s : State}
    (body : Nat → Nat → State → Except Nat State) (hr : regsServed s = true) (hlen : h.length = 9) (hh : hspiHeader h = none) :
    hspiTransaction dt p h cmd s body = .next (bump (hspiTouch (advance dt s) p) (0x280 + 4 * p.val)) := by
  simp [hspiTransaction, hr, hh, hlen]

/-- While SHM is served no cold start runs and the start has not failed. -/
theorem up_of_shmServed {s : State} (h : shmServed s = true) :
    (s.start.phase == .failure) = false ∧ coldStarting s = false := by
  simp only [shmServed, serving, Bool.or_eq_true, Bool.and_eq_true, beq_iff_eq] at h
  rcases h with (h | h) | ⟨h, hw⟩
  · simp [coldStarting, h]
  · simp [coldStarting, h]
  · simp [coldStarting, h, hw]

/-! ### WORD_READ (R107) -/

/-- A host's read changes no other word. -/
theorem memRaw_hostRead_other (s : State) (a code : Nat) {b : Nat} (h : b ≠ a) :
    memRaw (hostRead s a code).1.mem b = memRaw s.mem b := by
  have hread : memRaw (readWord s a code).1.mem b = memRaw s.mem b := memRaw_readWordX_other s a code 0 h
  unfold hostRead
  split
  · rfl
  · split
    · rfl
    · split
      · split
        · rfl
        · exact hread
      · exact hread

/-- A host's read of n words answers n of them. -/
theorem hostFetch_length (code n a : Nat) (s : State) : (hostFetch code n a s).2.length = n := by
  induction n generalizing a s with
  | zero => rfl
  | succ n ih => exact congrArg (· + 1) (ih (a + 1) (hostRead s a code).1)

/-- Each answer of a host's read of words is its read of that word, which the reads before it have left as it was. -/
theorem hostFetch_getElem (code n a : Nat) (s : State) {i : Nat} (hi : i < n) :
    ∃ u : State, memRaw u.mem (a + i) = memRaw s.mem (a + i) ∧
      (hostFetch code n a s).2[i]? = some (hostRead u (a + i) code).2 := by
  induction n generalizing a s i with
  | zero => cases hi
  | succ n ih =>
    cases i with
    | zero => exact ⟨s, rfl, rfl⟩
    | succ i =>
      obtain ⟨u, hmem, hget⟩ := ih (a + 1) (hostRead s a code).1 (Nat.lt_of_succ_lt_succ hi)
      rw [show a + 1 + i = a + (i + 1) by omega] at hmem hget
      refine ⟨u, hmem.trans (memRaw_hostRead_other s a code (by omega)), ?_⟩
      exact hget

/-- A clean word of SHM is fetched as its data, and a poisoned one as none. -/
theorem hostFetch_decoded (code : Nat) {n a i : Nat} {s : State} (hi : i < n) (hend : a + n ≤ 2 ^ 21) :
    (∀ d, decodePhys (memRaw s.mem (a + i)) = .clean d → (hostFetch code n a s).2.getD i none = some d) ∧
      (decodePhys (memRaw s.mem (a + i)) = .poisoned → (hostFetch code n a s).2.getD i (some 0) = none) := by
  have ha : a + i < 0x200000 := by omega
  have hres : regionOf (a + i) ≠ .reserved := by
    rw [regionOf_shm ha]
    decide
  obtain ⟨u, hmem, hget⟩ := hostFetch_getElem code n a s hi
  simp only [List.getD_eq_getElem?_getD, hget, Option.getD_some, ← hmem]
  refine ⟨fun d hd => ?_, fun hp => ?_⟩
  · have hne : memRaw u.mem (a + i) ≠ 0 := memRaw_ne_zero (by simp [hd])
    rw [hostRead_shm code ha (.inl hne), readWord_data code hres (.inl hd)]
  · have hne : memRaw u.mem (a + i) ≠ 0 := memRaw_ne_zero (by simp [hp])
    rw [hostRead_shm code ha (.inl hne), (readWord_poisoned code hres hp).1]

/-- WORD_READ of words of SHM while it is served answers by the first word that has no data. -/
theorem exec_hspiWordRead {dt : Nat} {p : Fin 4} {h : Octets} {a n : Nat} {hc : Hc} {s : State} (hr : regsServed s = true)
    (hh : hspiHeader h = some (0x11, a, n)) (hctx : ctxOf s (.hspi p) = some hc) (hs : shmServed s = true) (h1 : 1 ≤ n)
    (h256 : n ≤ 256) (hend : a + n ≤ 2 ^ 21) : exec (.hspiWordRead dt p h true) s =
      .next (match (hostFetch 9 n a (hspiTouch (advance dt s) p)).2.findIdx? (·.isNone) with
        | some i => hspiRespond (hostFetch 9 n a (hspiTouch (advance dt s) p)).1 p stPoisoned i []
        | none => hspiRespond (hostFetch 9 n a (hspiTouch (advance dt s) p)).1 p stOk 0
            (unpackWords ((hostFetch 9 n a (hspiTouch (advance dt s) p)).2.filterMap id))) := by
  have hctx' : ctxOf (hspiTouch (advance dt s) p) (.hspi p) = some hc := by simpa using hctx
  obtain ⟨hfail, hcold⟩ := up_of_shmServed (s := hspiTouch (advance dt s) p) (by simpa using hs)
  have hcount : ¬ (n = 0 ∨ 256 < n ∨ 2 ^ 21 < a + n) := by omega
  show execHspiWordRead dt p h true s = _
  rw [execHspiWordRead, hspiTransaction_sound p _ hr hh]
  simp only [hctx', hfail, hcold, hcount, Bool.not_true, Bool.false_eq_true, if_false]
  cases (hostFetch 9 n a (hspiTouch (advance dt s) p)).2.findIdx? (·.isNone) <;> rfl

/-! ### WORD_WRITE (R100, R107) -/

/-- A run of full-word writes that no check stops is the writing of its words. -/
theorem hostWriteRun_ok {hc : Hc} {a : Nat} {ws : List Word} {s v : State} (h : hostWriteRun hc a ws s = .ok v) :
    v = writeWords s a ws := by
  induction ws generalizing a s with
  | nil => cases h; rfl
  | cons w ws ih =>
    unfold hostWriteRun at h
    split at h
    · cases h
    · exact ih h

/-- Words written from an address stand there, each with its check bits. -/
theorem memRaw_writeWords_self {ds : List Word} (s : State) {a k : Nat} (hk : k < ds.length)
    (hres : ∀ j < ds.length, regionOf (a + j) ≠ .reserved) : memRaw (writeWords s a ds).mem (a + k) = physOf (ds.getD k 0) := by
  induction ds generalizing s a k with
  | nil => cases hk
  | cons d ds ih =>
    cases k with
    | zero =>
      have h0 := memRaw_writeWord_self s a d (hres 0 hk)
      exact (memRaw_writeWords_other ds (writeWord s a d) (a + 1) a (by omega)).trans h0
    | succ k =>
      have hk' := ih (writeWord s a d) (a := a + 1) (Nat.lt_of_succ_lt_succ hk) (fun j hj => by
        rw [show a + 1 + j = a + (j + 1) by omega]
        exact hres (j + 1) (Nat.succ_lt_succ hj))
      rw [show a + 1 + k = a + (k + 1) by omega] at hk'
      exact hk'

/-- Nine octets for each word pack into so many words (R6). -/
theorem packWords_length {n : Nat} {os : Octets} (h : os.length = 9 * n) : (packWords n os).length = n := by
  induction n generalizing os with
  | zero => rfl
  | succ n ih =>
    cases os with
    | nil => simp at h
    | cons o os =>
      have hdrop : ((o :: os).drop 9).length = 9 * n := by
        rw [List.length_drop, h]
        omega
      exact congrArg (· + 1) (ih hdrop)

/-- A run of full-word writes within SHM stores each word. -/
theorem memRaw_hostWriteRun {hc : Hc} {a : Nat} {ws : List Word} {s v : State} (h : hostWriteRun hc a ws s = .ok v)
    (hend : a + ws.length ≤ 2 ^ 21) {k : Nat} (hk : k < ws.length) : memRaw v.mem (a + k) = physOf (ws.getD k 0) := by
  rw [hostWriteRun_ok h]
  refine memRaw_writeWords_self s hk fun j hj => ?_
  rw [regionOf_shm (by omega)]
  decide

/-- WORD_WRITE of words of SHM while it is served, with a passing DCRC: the run of writes, and its answer. -/
theorem exec_hspiWordWrite_ok {dt : Nat} {p : Fin 4} {h d : Octets} {a n : Nat} {hc : Hc} {s v : State} (hr : regsServed s = true)
    (hh : hspiHeader h = some (0x12, a, n)) (hctx : ctxOf s (.hspi p) = some hc) (hs : shmServed s = true) (h1 : 1 ≤ n)
    (h256 : n ≤ 256) (hend : a + n ≤ 2 ^ 21) (hlen : d.length = 9 * n)
    (hv : hostWriteRun hc a (packWords n d) (hspiTouch (advance dt s) p) = .ok v) :
    exec (.hspiWordWrite dt p h d (crc16 d) true) s = .next (hspiRespond v p stOk 0 []) := by
  have hctx' : ctxOf (hspiTouch (advance dt s) p) (.hspi p) = some hc := by simpa using hctx
  obtain ⟨hfail, hcold⟩ := up_of_shmServed (s := hspiTouch (advance dt s) p) (by simpa using hs)
  have hcount : ¬ (n = 0 ∨ 256 < n ∨ 2 ^ 21 < a + n) := by omega
  show execHspiWordWrite dt p h d (crc16 d) true s = _
  rw [execHspiWordWrite, hspiTransaction_sound p _ hr hh]
  simp only [hctx', hfail, hcold, hcount, hlen, hv, ne_eq, not_true, Bool.not_true, Bool.false_eq_true, if_false]
  rfl

/-- WORD_WRITE with a failing DCRC writes nothing: it is answered and counted. -/
theorem exec_hspiWordWrite_badCrc {dt : Nat} {p : Fin 4} {h d : Octets} {c : BitVec 16} {a n : Nat} {hc : Hc} {s : State}
    (hr : regsServed s = true) (hh : hspiHeader h = some (0x12, a, n)) (hctx : ctxOf s (.hspi p) = some hc)
    (hs : shmServed s = true) (hlen : d.length = 9 * n) (hcrc : c ≠ crc16 d) : exec (.hspiWordWrite dt p h d c true) s =
      .next (bump (hspiRespond (hspiTouch (advance dt s) p) p stHspiCrc 0 []) (0x282 + 4 * p.val)) := by
  have hctx' : ctxOf (hspiTouch (advance dt s) p) (.hspi p) = some hc := by simpa using hctx
  obtain ⟨hfail, -⟩ := up_of_shmServed (s := hspiTouch (advance dt s) p) (by simpa using hs)
  show execHspiWordWrite dt p h d c true s = _
  rw [execHspiWordWrite, hspiTransaction_sound p _ hr hh]
  simp only [hctx', hfail, hlen, hcrc, ne_eq, not_true, not_false_iff, Bool.false_eq_true, if_false, if_true]
  rfl

/-! ### Registers, NOP and abort (R105, R106, R109) -/

/-- REG_READ on a command port answers the registers read. -/
theorem exec_hspiRegRead {dt : Nat} {p : Fin 4} {h : Octets} {a n : Nat} {s v : State} {os : Octets} (hr : regsServed s = true)
    (hh : hspiHeader h = some (0x21, a, n)) (hport : hspiDataPort s p = false) (h1 : 1 ≤ n) (h64 : n ≤ 64)
    (hv : readRegs n a (hspiTouch (advance dt s) p) = .ok (v, os)) :
    exec (.hspiRegRead dt p h true) s = .next (hspiRespond v p stOk 0 os) := by
  have hcount : ¬ (n = 0 ∨ 64 < n) := by omega
  show execHspiRegRead dt p h true s = _
  rw [execHspiRegRead, hspiTransaction_sound p _ hr hh]
  simp only [hspiDataPort_hspiTouch, hspiDataPort_advance, hport, hcount, hv, Bool.not_true, Bool.false_eq_true, if_false]
  rfl

/-- REG_WRITE on a command port with a passing DCRC answers the registers written. -/
theorem exec_hspiRegWrite {dt : Nat} {p : Fin 4} {h d : Octets} {a n : Nat} {s v : State} (hr : regsServed s = true)
    (hh : hspiHeader h = some (0x22, a, n)) (hport : hspiDataPort s p = false) (h1 : 1 ≤ n) (h64 : n ≤ 64)
    (hlen : d.length = 4 * n) (hv : writeRegs (.hspi p) n d a (hspiTouch (advance dt s) p) = .ok v) :
    exec (.hspiRegWrite dt p h d (crc16 d) true) s = .next (hspiRespond v p stOk 0 []) := by
  have hcount : ¬ (n = 0 ∨ 64 < n) := by omega
  show execHspiRegWrite dt p h d (crc16 d) true s = _
  rw [execHspiRegWrite, hspiTransaction_sound p _ hr hh]
  simp only [hspiDataPort_hspiTouch, hspiDataPort_advance, hport, hcount, hlen, hv, ne_eq, not_true, Bool.not_true,
    Bool.false_eq_true, if_false]
  rfl

/-- An abort is counted at its port. -/
theorem exec_hspiAbort {dt : Nat} {p : Fin 4} {s : State} (hr : regsServed s = true) :
    exec (.hspiAbort dt p) s = .next (bump (hspiTouch (advance dt s) p) (0x281 + 4 * p.val)) := by
  show execHspiAbort dt p s = _
  simp [execHspiAbort, always, hr]

/-- NOP answers ST_OK. -/
theorem exec_hspiNop {dt : Nat} {p : Fin 4} {h : Octets} {s : State} (hr : regsServed s = true)
    (hh : hspiHeader h = some (0x30, 0, 0)) :
    exec (.hspiNop dt p h) s = .next (hspiRespond (hspiTouch (advance dt s) p) p stOk 0 []) := by
  show execHspiNop dt p h s = _
  rw [execHspiNop, hspiTransaction_sound p _ hr hh]
  rfl

/-- Each transaction whose header fails HCRC only counts it. -/
theorem exec_hspi_badHeader {dt : Nat} {p : Fin 4} {h d : Octets} {c : BitVec 16} {b : Bool} {s : State} (hr : regsServed s = true)
    (hlen : h.length = 9) (hh : hspiHeader h = none) {i : Instr}
    (hi : i ∈ [Instr.hspiWordRead dt p h b, .hspiWordWrite dt p h d c b, .hspiRegRead dt p h b, .hspiRegWrite dt p h d c b,
      .hspiNop dt p h]) : exec i s = .next (bump (hspiTouch (advance dt s) p) (0x280 + 4 * p.val)) := by
  simp only [List.mem_cons, List.not_mem_nil, or_false] at hi
  rcases hi with rfl | rfl | rfl | rfl | rfl
  · show execHspiWordRead dt p h b s = _
    exact hspiTransaction_badHeader p _ _ hr hlen hh
  · show execHspiWordWrite dt p h d c b s = _
    exact hspiTransaction_badHeader p _ _ hr hlen hh
  · show execHspiRegRead dt p h b s = _
    exact hspiTransaction_badHeader p _ _ hr hlen hh
  · show execHspiRegWrite dt p h d c b s = _
    exact hspiTransaction_badHeader p _ _ hr hlen hh
  · show execHspiNop dt p h s = _
    exact hspiTransaction_badHeader p _ _ hr hlen hh

/-- The index of the first entry that is none. -/
theorem findIdx?_isNone {α : Type} {l : List (Option α)} {i : Nat} {x : α} (hi : i < l.length) (hnone : l.getD i (some x) = none)
    (hsome : ∀ k < i, (l.getD k none).isSome = true) : l.findIdx? (·.isNone) = some i := by
  rw [List.findIdx?_eq_some_iff_getElem]
  refine ⟨hi, ?_, fun k hk => ?_⟩
  · rw [List.getD_eq_getElem?_getD, List.getElem?_eq_getElem hi, Option.getD_some] at hnone
    simp [hnone]
  · have h := hsome k hk
    rw [List.getD_eq_getElem?_getD, List.getElem?_eq_getElem (Nat.lt_trans hk hi), Option.getD_some] at h
    simpa [Option.isSome_iff_ne_none] using h

/-- Settles O20: each row is its transaction's body on the state in which CS_N has fallen. -/
theorem hspiTransactions : Obligations.HspiTransactions := by
  refine ⟨fun dt p h a n hc s hr hh hctx hs h1 h256 hend =>
      ⟨hostFetch_length _ _ _ _, fun i hi => ?_, fun hall => ?_, fun i hi hnone hsome => ?_⟩,
    fun dt p h d c a n hc s hr hh hctx hs h1 h256 hend hlen => ⟨fun hcrc v hv => ⟨?_, fun k hk => ?_⟩, fun hcrc => ?_⟩,
    fun dt p h a n s v os hr hh hport h1 h64 hv => exec_hspiRegRead hr hh hport h1 h64 hv,
    fun dt p h d a n s v hr hh hport h1 h64 hlen hv => exec_hspiRegWrite hr hh hport h1 h64 hlen hv,
    fun dt p h s hr hh => exec_hspiNop hr hh,
    fun dt p s hr => ⟨_, exec_hspiAbort hr, by simp, by simp, ?_⟩,
    fun dt p h d c b s hr hlen hh i hi => ⟨_, exec_hspi_badHeader hr hlen hh hi, by simp, by simp, by simp, ?_⟩⟩
  · simpa using hostFetch_decoded 9 (s := hspiTouch (advance dt s) p) hi hend
  · have hidx : (hostFetch 9 n a (hspiTouch (advance dt s) p)).2.findIdx? (·.isNone) = none := by
      simpa [List.findIdx?_eq_none_iff, Option.isSome_iff_ne_none] using hall
    rw [exec_hspiWordRead hr hh hctx hs h1 h256 hend, hidx]
  · have hidx := findIdx?_isNone ((hostFetch_length _ _ _ _).symm ▸ hi) hnone hsome
    rw [exec_hspiWordRead hr hh hctx hs h1 h256 hend, hidx]
  · rw [hcrc]
    exact exec_hspiWordWrite_ok hr hh hctx hs h1 h256 hend hlen hv
  · have hpack := packWords_length hlen
    exact memRaw_hostWriteRun hv (by omega) (by omega)
  · exact ⟨_, exec_hspiWordWrite_badCrc hr hh hctx hs hlen hcrc, by simp [hspiRespond], by simp [hspiRespond]⟩
  · rw [counter_bump_self, counter_hspiTouch]
    rfl
  · rw [counter_bump_self, counter_hspiTouch]
    rfl

end Sys2Proof.Machine
end

section
/-!
SUPPORT. The statements of the architecture chapter. This part: the boundaries of slots (R338, R341, R346).
-/

namespace Sys2Proof.Machine

/-! ### What a chain's change leaves of the MAC (R217 to R219) -/

/-- Samples that become absent leave the MAC as it was. -/
@[simp] theorem rxAbsent_mac (s : State) (b : Nat) (lost : BitVec 4) : (rxAbsent s b lost).mac = s.mac := rfl

/-- Storing a chain leaves the MAC as it was. -/
@[simp] theorem setChain_mac (s : State) (c : Nat) (x : ChainSt) : (setChain s c x).mac = s.mac := by
  have hring : ∀ t : State, ([0, 1, 2].foldl noteRing t).mac = t.mac := fun t => rfl
  unfold setChain
  extract_lets o new y s1 s2
  have hs2 : s2.mac = s.mac := by
    unfold s2
    split <;> rfl
  split
  · exact hs2
  · rw [hring, hs2]

@[simp] theorem begin'_mac (s : State) (c : Nat) (t : ChState) (us : Nat) : (begin' s c t us).mac = s.mac := setChain_mac _ _ _

@[simp] theorem startCal_mac (s : State) (c g : Nat) (h : ChHolder) : (startCal s c g h).mac = s.mac := setChain_mac _ _ _

/-- A block's own read leaves the MAC as it was. -/
@[simp] theorem touchBlock_mac (s : State) (a : Nat) : (touchBlock s a).mac = s.mac := by
  unfold touchBlock
  generalize regionOf a = r
  generalize decodePhys (memRaw s.mem a) = d
  cases r <;> cases d <;> rfl

@[simp] theorem readCal_mac (s : State) (c g : Nat) : (readCal s c g).mac = s.mac := by
  simp [readCal]

@[simp] theorem toWindow_mac (s : State) (c : Nat) (t : ChState) : (toWindow s c t).mac = s.mac := by
  unfold toWindow
  dsimp only
  split
  · simp
  · split <;> simp

/-- A chain that sets out for another state leaves the MAC as it was. -/
@[simp] theorem goTo_mac (s : State) (c : Nat) (t : ChState) : (goTo s c t).mac = s.mac := by
  unfold goTo
  dsimp only
  split
  · rfl
  · split
    · simp
    · split <;> try simp
      split <;> simp

/-- Opening the cells of a slot leaves the MAC as it was. -/
theorem openCells_mac (s : State) (a : Nat) : (openCells s a).mac = s.mac := by
  unfold openCells
  refine List.foldlRecOn (motive := fun t : State => t.mac = s.mac) _ _ rfl fun t ht c _ => ?_
  dsimp only
  split
  · exact ht
  · split
    · exact ht
    · split
      · refine List.foldlRecOn (motive := fun u : State => u.mac = s.mac) _ _ ht fun u hu k _ => ?_
        split <;> simpa using hu
      · exact ht

/-! ### Values that wait (R149) -/

/-- With no stored value waiting, none comes into force. -/
theorem applyPending_none {s : State} (h : s.storedAt = []) (starts : Nat → Bool) : applyPending s starts = s := by
  unfold applyPending
  rw [h]
  rfl

/-- While the ASN stays set, watching it changes nothing. -/
theorem asnWatch_set {s : State} {a : Nat} (ha : asnNow s = some a) (hset : s.mac.asnSet = true) : asnWatch s = s := by
  simp [asnWatch, ha, hset]

/-! ### Slotframes that start (R341, R344, R506) -/

/-- Choosing a cycle touches the units alone. -/
theorem chooseCycle_eq (s : State) (u : Nat) : ∃ t, chooseCycle s u = { s with teus := t } := by
  unfold chooseCycle
  dsimp only
  split
  · split <;> exact ⟨_, rfl⟩
  · exact ⟨_, rfl⟩

/-- Choosing the cycles of the units aligned with a slotframe touches the units alone. -/
theorem chooseCycles_eq (us : List Nat) (f : Nat) (s : State) :
    ∃ t, us.foldl (fun s u => if (teu s u).sf = f then chooseCycle s u else s) s = { s with teus := t } := by
  refine List.foldlRecOn (motive := fun u : State => ∃ t, u = { s with teus := t }) _ _ ⟨_, rfl⟩ fun v hv u _ => ?_
  obtain ⟨t, rfl⟩ := hv
  split
  · obtain ⟨t', h⟩ := chooseCycle_eq { s with teus := t } u
    exact ⟨t', h⟩
  · exact ⟨t, rfl⟩

/-- The slotframes that run after the start of one: it runs exactly where it is enabled with a slot length in range. -/
def runningAfter (s : State) (r : SMap Bool) (f : Nat) : SMap Bool :=
  if parB s (0x2000 + f) && slotInRange s f then tblPut r f true else tblErase r f

/-- What one slotframe's start does with no stored value waiting: besides the slotframes that run, it touches the cells kept, the
units and a counter. -/
theorem startSlotframe_eq {s : State} (h : s.storedAt = []) (f : Nat) : ∃ o t k, startSlotframe s f =
    { s with mac := { s.mac with running := runningAfter s s.mac.running f, oldCells := o }, teus := t, counters := k } := by
  unfold startSlotframe
  extract_lets rested own s1 on fits s2 mac2 s3 s4 stop
  have h1 : s1 = s := by
    unfold s1 own
    rw [h]
    rfl
  have hon : (on && fits) = (parB s (0x2000 + f) && slotInRange s f) := by
    unfold on fits
    rw [h1]
  have h2 : ∃ k, s2 = { s with counters := k } := by
    unfold s2
    rw [h1]
    split <;> exact ⟨_, rfl⟩
  obtain ⟨k, h2⟩ := h2
  have h3 : ∃ o, s3 = { s with mac := { s.mac with running := runningAfter s s.mac.running f, oldCells := o }, counters := k } := by
    unfold s3 mac2
    rw [h2, hon]
    exact ⟨_, rfl⟩
  obtain ⟨o, h3⟩ := h3
  have h4 : ∃ t, s4 = { s3 with teus := t } := by
    unfold s4
    split
    · exact chooseCycles_eq _ f s3
    · exact ⟨_, rfl⟩
  obtain ⟨t, h4⟩ := h4
  rw [h3] at h4
  have hstop : forceIds s4 stop = s4 := by
    have hnone : s4.storedAt = [] := by
      rw [h4]
      exact h
    unfold stop
    rw [hnone]
    rfl
  refine ⟨o, t, k, ?_⟩
  rw [hstop, ite_self, h4]

/-- Several starts with no stored value waiting. -/
theorem startSlotframes_eq (fs : List Nat) {s : State} (h : s.storedAt = []) : ∃ o t k, fs.foldl startSlotframe s =
    { s with mac := { s.mac with running := fs.foldl (runningAfter s) s.mac.running, oldCells := o },
             teus := t, counters := k } := by
  induction fs generalizing s with
  | nil => exact ⟨_, _, _, rfl⟩
  | cons f fs ih =>
    obtain ⟨o, t, k, hone⟩ := startSlotframe_eq h f
    have hrest := ih (s := startSlotframe s f) (by rw [hone]; exact h)
    rw [hone] at hrest
    obtain ⟨o', t', k', hrest⟩ := hrest
    exact ⟨o', t', k', (congrArg (fs.foldl startSlotframe) hone).trans hrest⟩

/-- A slotframe's start keeps the table of running slotframes in its form. -/
theorem keysRise_runningAfter (s : State) {r : SMap Bool} (h : keysRise 0 r = true) (f : Nat) :
    keysRise 0 (runningAfter s r f) = true := by
  unfold runningAfter
  split
  · exact keysRise_tblPut r 0 f true (Nat.zero_le f) h
  · exact keysRise_tblErase r 0 f h

/-- Whether a slotframe runs after its own start. -/
theorem runningAfter_self (s : State) {r : SMap Bool} (h : keysRise 0 r = true) (f : Nat) :
    tblAt (runningAfter s r f) f false = (parB s (0x2000 + f) && slotInRange s f) := by
  unfold runningAfter
  split
  next hon => rw [tblAt_tblPut_self, hon]
  next hoff => simp only [tblAt, tblGet_tblErase_self r 0 f h, Option.getD_none, eq_false_of_ne_true hoff]

/-- A slotframe's start leaves every other slotframe as it was. -/
theorem runningAfter_other (s : State) (r : SMap Bool) {f g : Nat} (h : g ≠ f) :
    tblAt (runningAfter s r f) g false = tblAt r g false := by
  unfold runningAfter
  split
  · exact tblAt_tblPut_other r f g true false h
  · simp only [tblAt, tblGet_tblErase_other r f g h]

/-- After several starts each of those slotframes runs exactly where it is enabled with a slot length in range. -/
theorem runningAfter_foldl (s : State) (fs : List Nat) {r : SMap Bool} (h : keysRise 0 r = true) {f : Nat}
    (hf : f ∈ fs ∨ tblAt r f false = (parB s (0x2000 + f) && slotInRange s f)) :
    tblAt (fs.foldl (runningAfter s) r) f false = (parB s (0x2000 + f) && slotInRange s f) := by
  induction fs generalizing r with
  | nil => exact hf.resolve_left (by simp)
  | cons g fs ih =>
    refine ih (keysRise_runningAfter s h g) ?_
    by_cases hg : f = g
    · subst hg
      exact .inr (runningAfter_self s h f)
    · rw [runningAfter_other s r hg]
      exact hf.imp_left fun hmem => (List.mem_cons.mp hmem).resolve_left hg

/-! ### SLOT_BOUNDARY (R338, R341, R346, R347) -/

/-- A base slot is entered, once the slotframes that start there have started. -/
def enterSlot (s : State) (a : Nat) : State :=
  openCells (passReplay
    { s with mac := { s.mac with slot := some a, used := s.mac.used.filter (fun u => decide (a ≤ u.2.2)) } } a) a

/-- Entering a slot sets it, and leaves the ASN set and the slotframes running as they were. -/
theorem enterSlot_mac (s : State) (a : Nat) : (enterSlot s a).mac.slot = some a ∧
    (enterSlot s a).mac.asnSet = s.mac.asnSet ∧ (enterSlot s a).mac.running = s.mac.running := by
  unfold enterSlot
  rw [openCells_mac]
  exact ⟨rfl, rfl, rfl⟩

/-- In a slot already entered SLOT_BOUNDARY changes nothing but the time. -/
theorem exec_slotBoundary_entered {dt a q : Nat} {s : State} (hrun : running s = true) (ha : asnNow (advance dt s) = some a)
    (hq : s.mac.slot = some q) (hset : s.mac.asnSet = true) (hle : a ≤ q) : exec (.slotBoundary dt) s = .next (advance dt s) := by
  show execSlotBoundary dt s = _
  rw [execSlotBoundary, live_ready dt s _ hrun]
  simp [asnWatch_set ha hset, ha, hq, Nat.not_lt.mpr hle]

/-- SLOT_BOUNDARY of a later base slot, no stored value waiting: the slotframes that start there start, and it is entered. -/
theorem exec_slotBoundary_next {dt a q : Nat} {s : State} (hrun : running s = true) (ha : asnNow (advance dt s) = some a)
    (hq : s.mac.slot = some q) (hset : s.mac.asnSet = true) (hlt : q < a) (hst : s.storedAt = []) :
    exec (.slotBoundary dt) s =
      .next (enterSlot (((List.range 16).filter (startsIn s q a)).foldl startSlotframe (advance dt s)) a) := by
  have hstart : startsIn (advance dt s) q a = startsIn s q a := rfl
  obtain ⟨o, t, k, hfold⟩ := startSlotframes_eq ((List.range 16).filter (startsIn s q a)) (s := advance dt s) hst
  have hst' : (((List.range 16).filter (startsIn s q a)).foldl startSlotframe (advance dt s)).storedAt = [] := by
    rw [hfold]
    exact hst
  have hnow : asnNow (((List.range 16).filter (startsIn s q a)).foldl startSlotframe (advance dt s)) = some a := by
    rw [hfold]
    exact ha
  show execSlotBoundary dt s = _
  rw [execSlotBoundary, live_ready dt s _ hrun]
  simp only [asnWatch_set (s := advance dt s) ha hset, ha, advance_mac, hq, hlt, decide_true, Bool.true_eq_false, if_false,
    Option.getD_some, Option.isNone_some, Bool.false_and, Bool.or_false, hstart]
  rw [applyPending_none (s := advance dt s) hst, applyPending_none hst', if_pos hnow]
  rfl

/-- A later base slot is entered, and each slotframe that starts there runs exactly where it is enabled with a slot length in
range. -/
theorem slotBoundary_enters {dt a q : Nat} {s : State} (hrun : running s = true) (ha : asnNow (advance dt s) = some a)
    (hq : s.mac.slot = some q) (hset : s.mac.asnSet = true) (hlt : q < a) (hst : s.storedAt = [])
    (hkeys : keysRise 0 s.mac.running = true) : ∃ t, exec (.slotBoundary dt) s = .next t ∧ t.mac.slot = some a ∧
      t.mac.asnSet = true ∧ ∀ f < 16, startsIn s q a f = true → sfRuns t f = (parB s (0x2000 + f) && slotInRange s f) := by
  obtain ⟨o, t, k, hfold⟩ := startSlotframes_eq ((List.range 16).filter (startsIn s q a)) (s := advance dt s) hst
  obtain ⟨hslot, hasn, hruns⟩ :=
    enterSlot_mac (((List.range 16).filter (startsIn s q a)).foldl startSlotframe (advance dt s)) a
  refine ⟨_, exec_slotBoundary_next hrun ha hq hset hlt hst, hslot, ?_, fun f hf hstarts => ?_⟩
  · rw [hasn, hfold]
    exact hset
  · have hmem : f ∈ (List.range 16).filter (startsIn s q a) := List.mem_filter.mpr ⟨List.mem_range.mpr hf, hstarts⟩
    rw [sfRuns, hruns, hfold]
    exact runningAfter_foldl (advance dt s) _ hkeys (.inl hmem)

end Sys2Proof.Machine
end

section
/-!
SUPPORT. The statements of the architecture chapter. This part: the band scheduler's decisions (R345, R354, R359, R363, R366).
-/

namespace Sys2Proof.Machine

/-! ### What a decision's own work leaves: the slots decided, and the band's count of decisions -/

/-- Between two states the slots decided and the count of the decisions of band `b` are kept. -/
def KeepsDecision (b : Nat) (s t : State) : Prop :=
  t.mac.decided = s.mac.decided ∧ counter t (0x1200 + 16 * b) = counter s (0x1200 + 16 * b)

theorem KeepsDecision.refl (b : Nat) (s : State) : KeepsDecision b s s := ⟨rfl, rfl⟩

theorem KeepsDecision.trans {b : Nat} {s t u : State} (h : KeepsDecision b s t) (h' : KeepsDecision b t u) : KeepsDecision b s u :=
  ⟨h'.1.trans h.1, h'.2.trans h.2⟩

/-- What each step of a fold keeps, the fold keeps. -/
theorem KeepsDecision.foldl {α : Type} {b : Nat} {f : State → α → State} (h : ∀ s x, KeepsDecision b s (f s x)) (l : List α)
    (s : State) : KeepsDecision b s (l.foldl f s) :=
  List.foldlRecOn (motive := fun t => KeepsDecision b s t) l f (.refl b s) fun t ht x _ => ht.trans (h t x)

/-- Another counter's addition. -/
theorem keepsDecision_bumpBy {b id : Nat} (s : State) (n : Nat) (h : 0x1200 + 16 * b ≠ id) : KeepsDecision b s (bumpBy s id n) :=
  ⟨rfl, counter_bumpBy_other s id _ n h⟩

theorem keepsDecision_bump {b id : Nat} (s : State) (h : 0x1200 + 16 * b ≠ id) : KeepsDecision b s (bump s id) :=
  keepsDecision_bumpBy s 1 h

/-! ### Items that end (R366, R367) -/

theorem keepsDecision_finishJob (b : Nat) (s : State) (hc : Hc) (id : Nat) (st : Status) (ws : List Word) (air : Bool) :
    KeepsDecision b s (finishJob s hc id st ws air) := by
  obtain ⟨m, c, h⟩ := finishJob_eq s hc id st ws air
  rw [h]
  exact ⟨rfl, rfl⟩

theorem keepsDecision_injectEnd (b : Nat) (s : State) (hc : Hc) (job : Nat) (ok : Bool) (st : Status) (air : Bool) :
    KeepsDecision b s (injectEnd s hc job ok st air) := by
  unfold injectEnd
  split
  · exact .refl b s
  · dsimp only
    split
    · exact ⟨rfl, rfl⟩
    · exact .trans ⟨rfl, rfl⟩ (keepsDecision_finishJob b _ _ _ _ _ _)

/-- The end of an item counts shadow frames alone. -/
theorem keepsDecision_endItem (b : Nat) (s : State) (i : Item) (st : Status) (w : Word) : KeepsDecision b s (endItem s i st w) := by
  have hgone : KeepsDecision b s (setItems s (fun is => is.filter (fun x => x.id != i.id))) := ⟨rfl, rfl⟩
  unfold endItem
  extract_lets u v
  have hv : KeepsDecision b s v := by
    unfold v
    split
    · exact hgone.trans (keepsDecision_bump _ (by omega))
    · exact hgone
  split
  · exact hv.trans (keepsDecision_finishJob b _ _ _ _ _ _)
  · dsimp only
    split
    · exact (hv.trans ⟨rfl, rfl⟩).trans (keepsDecision_injectEnd b _ _ _ _ _ _)
    · exact hv.trans ⟨rfl, rfl⟩
  · exact hv

/-- Items of unknown nodes end. -/
theorem keepsDecision_dropUnknown (b : Nat) (s : State) (k : Band) : KeepsDecision b s (dropUnknown s k) := by
  refine KeepsDecision.foldl (fun t i => ?_) _ s
  split
  · exact .refl b t
  · exact keepsDecision_endItem b t i _ _

/-! ### Nodes marked DESYNC (R363) -/

/-- An entry is written to the memory or to its pipeline. -/
theorem putNode_eq (s : State) (c : Place) (n : Option Node) : ∃ m f, putNode s c n = { s with mem := m, fwds := f } := by
  unfold putNode
  dsimp only
  split
  · rw [writeWords_eq]
    exact ⟨_, _, rfl⟩
  · exact ⟨_, _, rfl⟩
  · rw [writeWords_eq, writeWord_eq]
    exact ⟨_, _, rfl⟩

theorem keepsDecision_markDesync (b : Nat) (s : State) (c : Place) : KeepsDecision b s (markDesync s c) := by
  unfold markDesync
  dsimp only
  split
  · exact .refl b s
  · obtain ⟨m, f, h⟩ := putNode_eq s c (some { placeNode s c with desync := true })
    rw [h]
    refine .trans ?_ (keepsDecision_bump _ (by omega))
    exact ⟨by simp, by simp [counter]⟩

theorem keepsDecision_guardItems (b : Nat) (s : State) (k : Band) (a : Nat) : KeepsDecision b s (guardItems s k a) := by
  refine KeepsDecision.foldl (fun t i => ?_) _ s
  split
  · dsimp only
    split
    · exact (keepsDecision_markDesync b t _).trans ⟨rfl, rfl⟩
    · exact .refl b t
  · exact .refl b t

/-! ### Candidates placed (R345, R354, R359, R440) -/

theorem keepsDecision_placeGroup (b : Nat) (s : State) (least : Nat) (e : GroupEntry) :
    KeepsDecision b s (placeGroup s least e) := by
  unfold placeGroup
  have hb : e.band.val < 3 := e.band.isLt
  split
  · exact ⟨rfl, rfl⟩
  · exact keepsDecision_bump s (by omega)

theorem keepsDecision_passOver (b : Nat) (s : State) (c : Cand) (collided : Bool) : KeepsDecision b s (passOver s c collided) := by
  unfold passOver
  split
  · split
    · exact keepsDecision_bump s (by omega)
    · exact .refl b s
  · exact .trans ⟨rfl, rfl⟩ (KeepsDecision.foldl (fun t g => keepsDecision_placeGroup b t _ g) _ _)
  · exact .refl b s

/-- A candidate placed or passed over counts no decision. -/
theorem keepsDecision_placeCand (b : Nat) (s : State) (c : Cand) : KeepsDecision b s (placeCand s c) := by
  unfold placeCand
  extract_lets i bi k taken
  split
  · exact keepsDecision_passOver b s c true
  · split
    · exact keepsDecision_passOver b s c false
    next j hj =>
      split
      · exact keepsDecision_passOver b s c false
      · split
        · exact keepsDecision_bump s (by omega)
        · extract_lets j' u mac v
          have hu : KeepsDecision b s u := by
            unfold u
            split <;> exact ⟨rfl, rfl⟩
          have hv : KeepsDecision b s v := by
            unfold v k
            split
            · exact hu.trans ⟨rfl, rfl⟩
            · exact hu
          split
          · exact (hv.trans ⟨rfl, rfl⟩).trans (keepsDecision_bump _ (by omega))
          · exact hv

/-! ### SCHED_DECISION (R345, R363, R366) -/

@[simp] theorem asnOf_advance (dt : Nat) (s : State) (t : Nat) : asnOf (advance dt s) t = asnOf s t := rfl

/-- A slot that its band has decided is not decided again. -/
theorem exec_schedDecision_decided {dt a d : Nat} {b : Band} {s : State} (hrun : running s = true)
    (ha : asnOf s ((time (advance dt s)).toNat + timeUs (par s 0x4804)) = some a) (hd : tblGet s.mac.decided b.val = some d)
    (hle : a ≤ d) : exec (.schedDecision dt b) s = .next (advance dt s) := by
  show execSchedDecision dt b s = _
  rw [execSchedDecision, live_ready dt s _ hrun]
  simp only [asnOf_advance, par_advance, ha, advance_mac, hd, Nat.not_lt.mpr hle, decide_false, true_or, if_true]

/-- A base slot is marked as decided by a band, and the decision counted. -/
def markDecided (s : State) (b a : Nat) : State :=
  bump { s with mac := { s.mac with decided := tblPut s.mac.decided b a } } (0x1200 + 16 * b)

/-- A decision of a slot not yet decided, a slotframe running, marks it and counts it; the rest of its work keeps both. -/
theorem exec_schedDecision_decides {dt a : Nat} {b : Band} {s : State} (hrun : running s = true)
    (ha : asnOf s ((time (advance dt s)).toNat + timeUs (par s 0x4804)) = some a)
    (hd : ∀ d, tblGet s.mac.decided b.val = some d → d < a) (hlow : (lowestRunning (ahead (advance dt s) a)).isSome = true) :
    ∃ t, exec (.schedDecision dt b) s = .next t ∧ KeepsDecision b.val (markDecided (advance dt s) b.val a) t := by
  show ∃ t, execSchedDecision dt b s = .next t ∧ _
  rw [execSchedDecision, live_ready dt s _ hrun]
  refine ⟨_, rfl, ?_⟩
  simp only [asnOf_advance, par_advance, ha, advance_mac]
  refine (congrArg (KeepsDecision b.val _) (if_neg ?_)).mpr ?_
  · rintro (h | h)
    · cases hdec : tblGet s.mac.decided b.val with
      | none => simp [hdec] at h
      | some d => simp [hdec, hd d hdec] at h
    · simp [Option.isNone_iff_eq_none.mp h] at hlow
  · have hdrop := keepsDecision_dropUnknown b.val (markDecided (advance dt s) b.val a) b
    by_cases hs : standby (dropUnknown (markDecided (advance dt s) b.val a) b) = true
    · exact (congrArg (KeepsDecision b.val _) (if_pos hs)).mpr hdrop
    · refine (congrArg (KeepsDecision b.val _) (if_neg hs)).mpr ?_
      refine ((hdrop.trans (keepsDecision_guardItems b.val _ b a)).trans (keepsDecision_bumpBy _ _ ?_)).trans
        (KeepsDecision.foldl (keepsDecision_placeCand b.val) _ _)
      omega

/-- A slot not yet decided, a slotframe running, is decided and counted. -/
theorem schedDecision_decides {dt a : Nat} {b : Band} {s : State} (hrun : running s = true)
    (ha : asnOf s ((time (advance dt s)).toNat + timeUs (par s 0x4804)) = some a)
    (hd : ∀ d, tblGet s.mac.decided b.val = some d → d < a) (hlow : (lowestRunning (ahead (advance dt s) a)).isSome = true) :
    ∃ t, exec (.schedDecision dt b) s = .next t ∧ tblGet t.mac.decided b.val = some a ∧
      counter t (0x1200 + 16 * b.val) = min (2 ^ 64 - 1) (counter s (0x1200 + 16 * b.val) + 1) := by
  obtain ⟨t, ht, hdec, hcount⟩ := exec_schedDecision_decides hrun ha hd hlow
  refine ⟨t, ht, ?_, ?_⟩
  · rw [hdec, markDecided, bump_mac, tblGet_tblPut_self]
  · rw [hcount, markDecided, counter_bump_self]
    rfl

end Sys2Proof.Machine
end

section
/-!
SUPPORT. The statements of the architecture chapter. This part: frames processed by the receive engines (R13, R350, R351, R353), the
expiry of items (R366), the beacon watch (R370) and the refill tick (R427, R432).
-/

namespace Sys2Proof.Machine

/-! ### What a consumer's read of words leaves -/

/-- A consumer's read of words touches what its reads of each word touch. -/
theorem readWords_eq (code n a : Nat) (s : State) : ∃ m c g e r l, (readWords code n a s).1 =
    { s with mem := m, counters := c, errLog := g, evOut := e, routes := r, latches := l } := by
  induction n generalizing a s with
  | zero => exact ⟨_, _, _, _, _, _, rfl⟩
  | succ n ih =>
    obtain ⟨m, c, g, e, r, l, hone⟩ := readWord_eq s a code
    unfold readWords
    rcases hread : readWord s a code with ⟨u, _ | d⟩
    · rw [hread] at hone
      exact ⟨_, _, _, _, _, _, hone⟩
    · rw [hread] at hone
      have hu : u = { s with mem := m, counters := c, errLog := g, evOut := e, routes := r, latches := l } := hone
      obtain ⟨_, _, _, _, _, _, hrest⟩ := ih (a + 1) u
      rcases hwords : readWords code n (a + 1) u with ⟨v, _ | _⟩
      all_goals
        rw [hwords, hu] at hrest
        simp only [hwords]
        exact ⟨_, _, _, _, _, _, hrest⟩

/-- A consumer's read of words leaves the receive pools and the table image as they were. -/
theorem readWords_keeps {code n a : Nat} {s v : State} {r : List Word ⊕ Nat} (h : readWords code n a s = (v, r)) :
    v.rx = s.rx ∧ v.image = s.image := by
  obtain ⟨_, _, _, _, _, _, hv⟩ := readWords_eq code n a s
  rw [h] at hv
  rw [show v = _ from hv]
  exact ⟨rfl, rfl⟩

/-! ### Frames that go (R13, R290) -/

/-- A frame discarded gives up its place and its buffer. -/
theorem discardFrame_gone (s : State) (f : RxFrame) : (discardFrame s f).rx.frames = s.rx.frames.erase f ∧
    (pool (discardFrame s f) f.band.val).used = tblErase (pool s f.band.val).used f.buffer := by
  refine ⟨rfl, ?_⟩
  simp [discardFrame, returnBuffer, setPool, pool]

/-- A frame of fewer than two octets is counted and discarded. -/
theorem processFrame_short (ref : Option KeyRef) (s : State) (f : RxFrame) (ws : List Word) {os : Octets} (h : os.length < 2) :
    processFrame ref s f ws os = discardFrame (bump s (0xE02 + 32 * f.band.val)) f := by
  rw [processFrame, if_pos h, show 0xE02 + 32 * f.band.val = 0xE00 + 32 * f.band.val + 2 by omega]

/-- A frame that no descriptor governs is counted and discarded. -/
theorem processFrame_ungoverned (ref : Option KeyRef) (s : State) (f : RxFrame) (ws : List Word) {os : Octets} (h : 2 ≤ os.length)
    (hd : descriptorOf s (leField os 0 2) = none) :
    processFrame ref s f ws os = discardFrame (bump s (0xE00 + 32 * f.band.val)) f := by
  rw [processFrame, if_neg (by omega), hd]
  rfl

/-- A plain frame of another destination than drop, that asks for no acknowledgement and is none, is handed on. -/
theorem processFrame_plain (ref : Option KeyRef) (s : State) (f : RxFrame) (ws : List Word) {os : Octets} {d : Word × Word}
    {p : Parsed} (h : 2 ≤ os.length) (hd : descriptorOf s (leField os 0 2) = some d) (hplain : fld d.1 34 33 = 1)
    (hp : parseFrame os = some p) (hdest : fld d.1 39 38 ≠ 2) (hack : d.1.getLsbD 40 = false) (htype : p.hdr.fcf.type ≠ 2) :
    ∃ m, processFrame ref s f ws os = deliver (drawFree s).1 f m ∧ m.dest ≠ 2 := by
  have hkind : ¬ 2 ≤ fld d.1 34 33 := by omega
  have hdest' : (if fld d.1 39 38 = 3 then 1 else fld d.1 39 38) ≠ 2 := by
    split
    · decide
    · exact hdest
  rw [processFrame, if_neg (by omega), hd]
  dsimp only
  rw [if_neg hkind, hp]
  simp only [hplain, hack, htype, Bool.false_and, Bool.false_eq_true, if_false, beq_self_eq_true, if_true]
  exact ⟨_, rfl, hdest'⟩

/-- A frame handed on stands finished in its place. -/
theorem deliver_finished {s : State} {f : RxFrame} {m : RxMeta} (hf : f ∈ s.rx.frames) (hm : m.dest ≠ 2) :
    { f with place := .finished, info := some m } ∈ (deliver s f m).rx.frames ∧
      (deliver s f m).rx.frames.length = s.rx.frames.length := by
  rw [deliver, if_neg hm]
  exact ⟨List.mem_map.mpr ⟨f, hf, if_pos rfl⟩, List.length_map _⟩

/-! ### RX_FRAME_PROCESS (R13, R350, R351, R353) -/

/-- The frame that an engine works on is one of the frames. -/
theorem mem_of_nextFrame {s : State} {k : Fin 4} {f : RxFrame} (h : nextFrame s k = some f) : f ∈ s.rx.frames := by
  unfold nextFrame at h
  split at h
  next g hg => exact Option.some.inj h ▸ List.mem_of_find?_eq_some hg
  next => exact List.mem_of_find?_eq_some h

@[simp] theorem engineRuns_advance (dt : Nat) (s : State) (n : Nat) : engineRuns (advance dt s) n = engineRuns s n := rfl
@[simp] theorem nextFrame_advance (dt : Nat) (s : State) (k : Fin 4) : nextFrame (advance dt s) k = nextFrame s k := rfl

/-- A running engine with no frame to take changes nothing but the time. -/
theorem exec_rxFrameProcess_none {dt : Nat} {k : Fin 4} (ends : Bool) {s : State} (hrun : running s = true)
    (heng : engineRuns s (14 + k.val) = true) (hf : nextFrame s k = none) :
    exec (.rxFrameProcess dt k ends) s = .next (advance dt s) := by
  show execRxFrameProcess dt k ends s = _
  rw [execRxFrameProcess, live_ready dt s _ hrun]
  simp only [engineRuns_advance, nextFrame_advance, heng, hf, Bool.true_eq_false, if_false]

/-- Where the row is not the frame's end, the engine claims it, and its gate opens. -/
theorem exec_rxFrameProcess_claims {dt : Nat} {k : Fin 4} {f : RxFrame} {s : State} (hrun : running s = true)
    (heng : engineRuns s (14 + k.val) = true) (hf : nextFrame s k = some f) :
    ∃ v, exec (.rxFrameProcess dt k false) s = .next { setGate (advance dt s) (14 + k.val) 0 with
      anvil := v,
      rx := { s.rx with frames := s.rx.frames.map (fun x => if x = f then { f with place := .claimed k } else x) } } := by
  show ∃ v, execRxFrameProcess dt k false s = _
  rw [execRxFrameProcess, live_ready dt s _ hrun]
  simp only [engineRuns_advance, nextFrame_advance, heng, hf, Bool.true_eq_false, if_false, if_true]
  exact ⟨_, rfl⟩

/-- Where the row is the frame's end, a poisoned word of its buffer discards it. -/
theorem exec_rxFrameProcess_poisoned {dt : Nat} {k : Fin 4} {f : RxFrame} {s v : State} {m : Nat} (hrun : running s = true)
    (heng : engineRuns s (14 + k.val) = true) (hf : nextFrame s k = some f)
    (hread : readWords 3 (4 + (f.octets + 8) / 9) (bufferAddr f.band.val f.buffer) (setGate (advance dt s) (14 + k.val) 0) =
      (v, .inr m)) : exec (.rxFrameProcess dt k true) s = .next (discardFrame v f) := by
  show execRxFrameProcess dt k true s = _
  rw [execRxFrameProcess, live_ready dt s _ hrun]
  simp only [engineRuns_advance, nextFrame_advance, heng, hf, Bool.true_eq_false, if_false, hread]

/-- Where the row is the frame's end, the frame is processed by the words read. -/
theorem exec_rxFrameProcess_ends {dt : Nat} {k : Fin 4} {f : RxFrame} {s v : State} {ws : List Word} (hrun : running s = true)
    (heng : engineRuns s (14 + k.val) = true) (hf : nextFrame s k = some f)
    (hread : readWords 3 (4 + (f.octets + 8) / 9) (bufferAddr f.band.val f.buffer) (setGate (advance dt s) (14 + k.val) 0) =
      (v, .inl ws)) : ∃ ref, exec (.rxFrameProcess dt k true) s =
        .next (processFrame ref v f ws (((unpackWords (ws.drop 4)).take f.octets).take (f.octets - f.fcs))) := by
  show ∃ ref, execRxFrameProcess dt k true s = _
  rw [execRxFrameProcess, live_ready dt s _ hrun]
  simp only [engineRuns_advance, nextFrame_advance, heng, hf, Bool.true_eq_false, if_false, hread]
  exact ⟨_, rfl⟩

/-! ### ITEM_EXPIRY (R366) -/

/-- The item found has the number asked for. -/
theorem findItem_id {s : State} {id : Nat} {i : Item} (h : findItem s id = some i) : i.id = id := by
  simpa using List.find?_some h

/-- The status of an item that reaches the end of its lifetime (R366). -/
def expiryStatus (s : State) (i : Item) : Status :=
  if (asnNow s).isNone then stAsnUnset else if i.st = .held then stNodeDesync else stExpired

@[simp] theorem findItem_advance (dt : Nat) (s : State) (id : Nat) : findItem (advance dt s) id = findItem s id := rfl

/-- ITEM_EXPIRY of a QUEUED or HELD item at the end of its lifetime ends it. -/
theorem exec_itemExpiry {dt item e : Nat} {i : Item} {s : State} (hrun : running s = true) (hi : findItem s item = some i)
    (he : i.expiry = some e) (hdue : e ≤ s.now + dt) (hst : i.st = .queued ∨ i.st = .held) :
    exec (.itemExpiry dt item) s = .next (endItem (if standby (advance dt s) then bump (advance dt s) 0xE85 else advance dt s) i
      (expiryStatus (advance dt s) i) 0) := by
  have hd : due (advance dt s) e = true := decide_eq_true hdue
  show execItemExpiry dt item s = _
  rw [execItemExpiry, live_ready dt s _ hrun]
  simp only [findItem_advance, hi, he, hd, hst, true_and, if_true]
  rfl

@[simp] theorem finishJob_mac (s : State) (hc : Hc) (id : Nat) (st : Status) (ws : List Word) (air : Bool) :
    (finishJob s hc id st ws air).mac = s.mac := by
  obtain ⟨m, c, h⟩ := finishJob_eq s hc id st ws air
  rw [h]

@[simp] theorem injectEnd_mac (s : State) (hc : Hc) (job : Nat) (ok : Bool) (st : Status) (air : Bool) :
    (injectEnd s hc job ok st air).mac = s.mac := by
  unfold injectEnd
  split
  · rfl
  · dsimp only
    split <;> simp

/-- The end of an item takes the items of its number away and leaves the others. -/
theorem endItem_items (s : State) (i : Item) (st : Status) (w : Word) :
    (endItem s i st w).mac.items = s.mac.items.filter (fun x => x.id != i.id) := by
  unfold endItem
  extract_lets u v
  have hv : v.mac.items = s.mac.items.filter (fun x => x.id != i.id) := by
    unfold v
    split <;> rfl
  split
  · rw [finishJob_mac, hv]
  · dsimp only
    split
    · rw [injectEnd_mac]
      exact hv
    · exact hv
  · exact hv

/-- No item has the number of one that has ended. -/
theorem findItem_endItem (s : State) (i : Item) (st : Status) (w : Word) : findItem (endItem s i st w) i.id = none := by
  simp [findItem, endItem_items, List.find?_filter]

/-- The record of a host's item that ends is done with the item's status. -/
theorem endItem_record (s : State) {i : Item} (st : Status) (w : Word) {hc : Hc} {job : Nat} {g : BitVec 16}
    (hsrc : i.src = .host hc job g) {r : JRec} (hr : r ∈ (ctx (endItem s i st w) hc).journal) (hid : r.id = job) :
    r.done = true ∧ r.status = st := by
  simp only [endItem, hsrc] at hr
  obtain ⟨hdone, hstatus, -, -⟩ := finishJob_done _ _ _ _ _ _ r hr hid
  exact ⟨hdone, hstatus⟩

/-! ### BEACON_WATCH_SLOT_END (R370) -/

@[simp] theorem standby_advance (dt : Nat) (s : State) : standby (advance dt s) = standby s := rfl

/-- On a standby the end of a watched slot in which the beacon was heard clears the misses. -/
theorem exec_beaconWatch_heard {dt n a : Nat} {s : State} (hrun : running s = true) (hst : standby s = true)
    (hn : asnNow (advance dt s) = some n) (hle : sfMult s (par s 0x9400) ≤ n) (ha : endedWatch (advance dt s) n = some a)
    (hheard : s.pair.heardAsn = some a) : exec (.beaconWatchSlotEnd dt) s =
      .next { advance dt s with pair := { s.pair with judged := some a, misses := 0 } } := by
  have hle' : ¬ n < sfMult (advance dt s) (par (advance dt s) 0x9400) := Nat.not_lt.mpr hle
  show execBeaconWatchSlotEnd dt s = _
  rw [execBeaconWatchSlotEnd, live_ready dt s _ hrun]
  simp only [hn, standby_advance, hst, hle', ha, Bool.true_eq_false, or_self, if_false, advance_pair, hheard, if_true]

/-- What a missed beacon leaves of the pair's state: a miss more, and with the third a takeover due where no change is. -/
def missBeacon (s : State) (a : Nat) : Pair :=
  { s.pair with
    judged := some a, misses := min 3 (s.pair.misses + 1), lastMiss := s.now,
    due := if min 3 (s.pair.misses + 1) = 3 ∧ s.pair.due.isNone then some (1, 1, nextWatchStart s) else s.pair.due }

/-- On a standby preferred unit the end of a watched slot in which no beacon was heard counts a miss. -/
theorem exec_beaconWatch_missed {dt n a : Nat} {s : State} (hrun : running s = true) (hst : standby s = true)
    (hn : asnNow (advance dt s) = some n) (hle : sfMult s (par s 0x9400) ≤ n) (ha : endedWatch (advance dt s) n = some a)
    (hheard : s.pair.heardAsn ≠ some a) (hpref : preferred s = true) :
    ∃ t, exec (.beaconWatchSlotEnd dt) s = .next t ∧ t.pair = missBeacon (advance dt s) a := by
  have hle' : ¬ n < sfMult (advance dt s) (par (advance dt s) 0x9400) := Nat.not_lt.mpr hle
  have hpref' : preferred { advance dt s with pair := { s.pair with judged := some a } } = true := hpref
  show ∃ t, execBeaconWatchSlotEnd dt s = .next t ∧ _
  rw [execBeaconWatchSlotEnd, live_ready dt s _ hrun]
  simp only [hn, standby_advance, hst, hle', ha, Bool.true_eq_false, or_self, if_false, advance_pair, hheard, hpref', false_and]
  exact ⟨_, rfl, raiseEv_pair _ _ _ _⟩

/-- With the third miss a takeover is due where no change is. -/
theorem missBeacon_third {s : State} (a : Nat) (hm : 2 ≤ s.pair.misses) (hdue : s.pair.due = none) :
    (missBeacon s a).due = some (1, 1, nextWatchStart s) := by
  have hthree : min 3 (s.pair.misses + 1) = 3 := by omega
  simp [missBeacon, hthree, hdue]

/-- With fewer misses what is due stays. -/
theorem missBeacon_fewer {s : State} (a : Nat) (hm : s.pair.misses < 2) : (missBeacon s a).due = s.pair.due := by
  have hthree : min 3 (s.pair.misses + 1) ≠ 3 := by omega
  simp [missBeacon, hthree]

/-! ### METER_TICK (R427, R432) -/

/-- A change of every entry of a table changes the entry at each key. -/
theorem tblGet_mapValues {α : Type} (g : α → α) (m : SMap α) (k : Nat) :
    tblGet (m.map (fun e => (e.1, g e.2))) k = (tblGet m k).map g := by
  induction m with
  | nil => rfl
  | cons e m ih =>
    simp only [List.map_cons, tblGet, ih]
    split <;> rfl

/-- Putting stored values into force touches the values in force and the times of those that wait. -/
theorem applyKind_eq (s : State) (k : Apply) : ∃ f t, applyKind s k = { s with inForce := f, storedAt := t } := by
  refine List.foldlRecOn (motive := fun u : State => ∃ f t, u = { s with inForce := f, storedAt := t }) _ _ ⟨_, _, rfl⟩
    fun u hu e _ => ?_
  obtain ⟨f, t, rfl⟩ := hu
  dsimp only
  split <;> exact ⟨_, _, rfl⟩

@[simp] theorem applyKind_shape (s : State) (k : Apply) : (applyKind s k).shape = s.shape := by
  obtain ⟨f, t, h⟩ := applyKind_eq s k
  rw [h]

@[simp] theorem applyKind_mac (s : State) (k : Apply) : (applyKind s k).mac = s.mac := by
  obtain ⟨f, t, h⟩ := applyKind_eq s k
  rw [h]

/-- Every flow is refilled for `k` ticks, and the last tick dated. -/
def refilled (s : State) (k : Nat) : State :=
  { s with shape := { s.shape with flows := s.shape.flows.map (fun e => (e.1, refillFlow s.shape.tick k e.2)),
                                   tickAt := s.shape.tickAt + k * usC s.shape.tick } }

/-- The length of the ticks to come is the stored one from a tick on. -/
def nextTick (s : State) : State :=
  { applyKind s .meterTick with shape := { (applyKind s .meterTick).shape with tick := par (applyKind s .meterTick) 0x4400 } }

/-- METER_TICK with whole ticks passed refills every flow for them. -/
theorem exec_meterTick {dt : Nat} {s : State} (hrun : running s = true) (htick : s.shape.tick ≠ 0)
    (hdue : s.shape.tickAt + usC s.shape.tick ≤ s.now + dt) : exec (.meterTick dt) s =
      .next (nextTick (refilled (advance dt s) ((s.now + dt - s.shape.tickAt) / usC s.shape.tick))) := by
  have hlen : usC s.shape.tick ≠ 0 := by
    unfold usC
    omega
  have hk : (s.now + dt - s.shape.tickAt) / usC s.shape.tick ≠ 0 :=
    Nat.ne_of_gt (Nat.div_pos (by omega) (Nat.pos_of_ne_zero hlen))
  show execMeterTick dt s = _
  rw [execMeterTick, live_ready dt s _ hrun]
  simp only [advance_shape, advance_now, hlen, hk, if_false]
  rfl

/-- What METER_TICK leaves: the last tick's date, every flow refilled, and the MAC as it was. -/
theorem nextTick_refilled (s : State) (k : Nat) :
    (nextTick (refilled s k)).shape.tickAt = s.shape.tickAt + k * usC s.shape.tick ∧
      (∀ f, tblGet (nextTick (refilled s k)).shape.flows f = (tblGet s.shape.flows f).map (refillFlow s.shape.tick k)) ∧
      (nextTick (refilled s k)).mac = s.mac := by
  simp only [nextTick, applyKind_shape, applyKind_mac]
  exact ⟨rfl, fun f => tblGet_mapValues _ _ f, rfl⟩

/-! ### ScheduleAndReception (R13, R338, R341, R345, R350, R351, R353, R366, R370, R427, R432) -/

/-- A frame discarded after its words were read is gone, and its buffer is back, as of the state before the row. -/
theorem discardFrame_afterRead {s u v : State} (f : RxFrame) (hv : v.rx = s.rx) (hu : u.rx = v.rx) :
    (discardFrame u f).rx.frames = s.rx.frames.erase f ∧
      (pool (discardFrame u f) f.band.val).used = tblErase (pool s f.band.val).used f.buffer := by
  have hrx : u.rx = s.rx := hu.trans hv
  have hpool : pool u f.band.val = pool s f.band.val := by rw [pool, pool, hrx]
  obtain ⟨hframes, hused⟩ := discardFrame_gone u f
  exact ⟨by rw [hframes, hrx], by rw [hused, hpool]⟩

/-- Settles O55: each row by what it comes to where its trigger holds. -/
theorem scheduleAndReception : Obligations.ScheduleAndReception := by
  refine ⟨fun dt a q s hrun ha hq hset => ⟨fun hle => exec_slotBoundary_entered hrun ha hq hset hle,
      fun hlt hst hkeys => slotBoundary_enters hrun ha hq hset hlt hst hkeys⟩,
    fun dt a b s hrun ha => ⟨fun d hd hle => exec_schedDecision_decided hrun ha hd hle,
      fun hd hlow => schedDecision_decides hrun ha hd hlow⟩,
    fun dt k ends s hrun heng => ⟨fun hf => exec_rxFrameProcess_none ends hrun heng hf, fun f hf => ⟨?_, fun v m hread => ?_,
      fun v ws hread => ?_⟩⟩,
    fun dt item e i s hrun hi he hdue hst => ⟨_, exec_itemExpiry hrun hi he hdue hst, ?_, fun hc job g hsrc r hr hid => ?_⟩,
    fun dt n a s hrun hst hn hle ha => ⟨fun hheard => exec_beaconWatch_heard hrun hst hn hle ha hheard, fun hheard hpref => ?_⟩,
    fun dt s hrun htick hdue => ⟨_, exec_meterTick hrun htick hdue, nextTick_refilled (advance dt s) _⟩⟩
  · obtain ⟨v, hv⟩ := exec_rxFrameProcess_claims hrun heng hf
    refine ⟨_, hv, ?_, rfl, rfl⟩
    simp [engine, setGate]
  · obtain ⟨hrx, -⟩ := readWords_keeps hread
    exact ⟨_, exec_rxFrameProcess_poisoned hrun heng hf hread, discardFrame_afterRead f hrx rfl⟩
  · obtain ⟨hrx, himage⟩ := readWords_keeps hread
    obtain ⟨ref, hexec⟩ := exec_rxFrameProcess_ends hrun heng hf hread
    have hdesc : ∀ c, descriptorOf v c = descriptorOf s c := fun c => by simp only [descriptorOf, descriptor, himage]; rfl
    refine ⟨fun hshort => ?_, fun hlen hd => ?_, fun d p hlen hd hplain hp hdest hack htype => ?_⟩
    · rw [processFrame_short ref v f ws hshort] at hexec
      exact ⟨_, hexec, discardFrame_afterRead f hrx rfl, counter_bump_self v _⟩
    · rw [processFrame_ungoverned ref v f ws hlen ((hdesc _).trans hd)] at hexec
      exact ⟨_, hexec, discardFrame_afterRead f hrx rfl, counter_bump_self v _⟩
    · obtain ⟨m, hm, hdest'⟩ := processFrame_plain ref v f ws hlen ((hdesc _).trans hd) hplain hp hdest hack htype
      rw [hm] at hexec
      have hmem : f ∈ (drawFree v).1.rx.frames := by
        rw [drawFree_rx, hrx]
        exact mem_of_nextFrame hf
      obtain ⟨hx, hlength⟩ := deliver_finished hmem hdest'
      refine ⟨_, _, hexec, hx, rfl, rfl, rfl, rfl, ?_⟩
      rw [hlength, drawFree_rx, hrx]
      rfl
  · rw [← findItem_id hi]
    exact findItem_endItem _ _ _ _
  · exact endItem_record _ _ _ hsrc hr hid
  · obtain ⟨t, ht, hpair⟩ := exec_beaconWatch_missed hrun hst hn hle ha hheard hpref
    exact ⟨t, ht, by rw [hpair]; rfl, by rw [hpair]; rfl, by rw [hpair]; rfl,
      fun hm hdue => ⟨_, by rw [hpair]; exact missBeacon_third a hm hdue⟩,
      fun hm => by rw [hpair]; exact missBeacon_fewer a hm⟩

end Sys2Proof.Machine
end

section
/-!
SUPPORT. The statements of the pins chapter. This part: the sources of a cold reset and the end of a reset (R41 to R44, R49 to R51, R62,
R70, R74 to R76, R95).
-/

namespace Sys2Proof.Machine

/-! ### What a power failure does to NVS (R51, R188, R471) -/

/-- A repair record cut short touches the repair records alone. -/
theorem cutRecord_eq (s : State) : ∃ r, cutRecord s = { s with repairs := r } := by
  unfold cutRecord
  split <;> exact ⟨_, rfl⟩

/-- A key-store write cut short touches the key store alone. -/
theorem cutKeys_eq (s : State) (cut : Nat) : ∃ m, cutKeys s cut = { s with anvil := { s.anvil with store := m } } := by
  unfold cutKeys
  dsimp only
  split
  · exact ⟨_, rfl⟩
  · split <;> exact ⟨_, rfl⟩
  · exact ⟨_, rfl⟩

/-- A power failure spoils the two and nothing else of what stands before it. -/
theorem cutNvs_eq (s : State) (cut : Nat) :
    ∃ r m, cutKeys (cutRecord s) cut = { s with repairs := r, anvil := { s.anvil with store := m } } := by
  obtain ⟨r, hr⟩ := cutRecord_eq s
  obtain ⟨m, hm⟩ := cutKeys_eq (cutRecord s) cut
  exact ⟨r, m, by rw [hm, hr]⟩

/-- No record is cut where none is being written. -/
theorem cutRecord_idle {s : State} (h : s.scrub.recordTill ≤ s.now) : cutRecord s = s := by
  rw [cutRecord, if_neg (Nat.not_lt.mpr h)]

/-- The key store stays where Anvil has no work in hand and programs no REVOKE. -/
theorem cutKeys_idle {s : State} (cut : Nat) (hwork : keyInWork s = none) (hrev : s.anvil.revoking = none) : cutKeys s cut = s := by
  simp only [cutKeys, hwork, hrev, Option.filter_none]

/-! ### The state that a source leaves (R75) -/

/-- The common part of every cold reset is what R75 asks of it. -/
theorem afterColdReset_coldState (s : State) (kind : BitVec 4) (detail : BitVec 12) :
    AfterColdReset s (coldState s kind detail) kind := by
  simp [AfterColdReset, coldState]

theorem nvsKept_coldState (s : State) (kind : BitVec 4) (detail : BitVec 12) : NvsKept s (coldState s kind detail) := ⟨rfl, rfl⟩

/-- What POWER_ON_RESET leaves. -/
def powerOnState (s : State) (cut : Nat) : State :=
  let t := coldState (cutKeys (cutRecord s) cut) 0 0
  { t with tap := {}, mem := [], temp := {}, start := { t.start with starts := 0, bites := [], railsAt := s.now } }

/-- A power-on reset is a cold reset, whatever write it cuts short. -/
theorem afterColdReset_powerOnState (s : State) (cut : Nat) : AfterColdReset s (powerOnState s cut) 0 := by
  obtain ⟨r, m, h⟩ := cutNvs_eq s cut
  simp [AfterColdReset, powerOnState, coldState, h]

/-- A power-on reset that cuts no write short keeps NVS. -/
theorem nvsKept_powerOnState {s : State} (cut : Nat) (hrec : s.scrub.recordTill ≤ s.now) (hwork : keyInWork s = none)
    (hrev : s.anvil.revoking = none) : NvsKept s (powerOnState s cut) := by
  rw [powerOnState, cutRecord_idle hrec, cutKeys_idle cut hwork hrev]
  exact ⟨rfl, rfl⟩

/-- What THERMAL_TRIP leaves. -/
def tripState (s : State) : State :=
  { coldState s 2 0 with start := { (coldState s 2 0).start with phase := .tripped } }

/-- A thermal trip is a cold reset. -/
theorem afterColdReset_tripState (s : State) : AfterColdReset s (tripState s) 2 := afterColdReset_coldState s 2 0

/-! ### ColdResetSources (R49, R51, R62, R70, R74, R75, R95) -/

@[simp] theorem outOfReset_advance (dt : Nat) (s : State) : outOfReset (advance dt s) = outOfReset s := rfl

/-- A device out of reset has not failed its start. -/
theorem phase_of_outOfReset {s : State} (h : outOfReset s = true) : s.start.phase ≠ .failure := by
  intro hf
  rw [outOfReset, hf] at h
  exact Bool.false_ne_true h

/-- A device out of reset takes every cold reset (R88). -/
theorem coldReset_of_outOfReset {s : State} (kind : BitVec 4) (detail : BitVec 12) (h : outOfReset s = true) :
    coldReset s kind detail = coldState s kind detail := if_neg (phase_of_outOfReset h)

/-- POWER_ON_RESET has its effect in every state. -/
theorem exec_powerOnReset (dt cut : Nat) (s : State) : exec (.powerOnReset dt cut) s = .next (powerOnState (advance dt s) cut) := rfl

/-- RST_N_RESET outside a thermal trip is a cold reset of kind 1. -/
theorem exec_rstNReset {s : State} (dt : Nat) (h : s.start.phase ≠ .tripped) :
    exec (.rstNReset dt) s = .next (coldState (advance dt s) 1 0) := by
  show execRstNReset dt s = _
  simp only [execRstNReset, always, advance_start, h, if_false]

/-- THERMAL_TRIP after 1 ms of hot readings out of reset. -/
theorem exec_thermalTrip {dt x : Nat} {s : State} (hhot : s.temp.hotFrom = some x) (hdue : x + msC 1 ≤ s.now + dt)
    (hout : outOfReset s = true) : exec (.thermalTrip dt) s = .next (tripState (advance dt s)) := by
  have hd : due (advance dt s) (x + msC 1) = true := decide_eq_true hdue
  show execThermalTrip dt s = _
  simp only [execThermalTrip, always, advance_temp, hhot, outOfReset_advance, hout, hd, Bool.and_self, if_true, tripState]

/-- CLOCK_FAULT while SYSPLL is locked out of reset is a cold reset of kind 3. -/
theorem exec_clockFault {s : State} (dt : Nat) (hout : outOfReset s = true) (hpll : s.clk.sysPll = true) :
    exec (.clockFault dt) s = .next (coldState (advance dt s) 3 0) := by
  show execClockFault dt s = _
  simp only [execClockFault, always, outOfReset_advance, hout, advance_clk, hpll, Bool.and_self, if_true,
    coldReset_of_outOfReset (s := advance dt s) 3 0 hout]

/-- Settles O3: each source answers the cold state of its kind; power-on also cuts the writes in progress short. -/
theorem coldResetSources : Obligations.ColdResetSources := by
  refine ⟨fun dt cut s => ?_, fun dt s hphase => ?_, fun dt s x hhot hdue hout => ?_, fun dt s hout hpll => ?_⟩
  · exact ⟨_, exec_powerOnReset dt cut s, afterColdReset_powerOnState (advance dt s) cut, rfl, rfl, rfl, rfl, rfl, rfl,
      nvsKept_powerOnState (s := advance dt s) cut⟩
  · exact ⟨_, exec_rstNReset dt hphase, afterColdReset_coldState (advance dt s) 1 0, rfl, rfl, nvsKept_coldState (advance dt s) 1 0⟩
  · exact ⟨_, exec_thermalTrip hhot hdue hout, afterColdReset_tripState (advance dt s), rfl, rfl,
      nvsKept_coldState (advance dt s) 2 0⟩
  · exact ⟨_, exec_clockFault dt hout hpll, afterColdReset_coldState (advance dt s) 3 0, rfl, rfl,
      nvsKept_coldState (advance dt s) 3 0⟩

/-! ### What the end of a reset leaves (R41 to R44, R76, R81) -/

/-- A start begins at the qualification of REF_IN with the straps as sampled. -/
theorem beginStart_sampled (s : State) (g : BitVec 32) : (beginStart s g).start.phase = .starting ∧
    (beginStart s g).start.stage = .refQual ∧ (beginStart s g).start.straps = g.setWidth 8 := ⟨rfl, rfl, rfl⟩

/-- The lanes of an endpoint idle exactly where its strap does not enable it (R41, R42). -/
theorem beginStart_pcieIdle (s : State) (g : BitVec 32) (e : Fin 2) :
    (beginStart s g).pins.pcieIdle.getLsbD e.val = !g.getLsbD (3 + e.val) := by
  have hstrap : (BitVec.ofNat 2 (fld g 4 3)).getLsbD e.val = g.getLsbD (3 + e.val) := by
    rw [BitVec.getLsbD_ofNat, fld, Nat.testBit_mod_two_pow, Nat.testBit_div_two_pow]
    simp [BitVec.getLsbD, e.isLt, Nat.add_comm]
  show (~~~(BitVec.ofNat 2 (fld g 4 3))).getLsbD e.val = _
  rw [BitVec.getLsbD_not, hstrap]
  simp [e.isLt]

/-- Under EXTEST, CLAMP or HIGHZ the TAP holds the device (R44). -/
theorem releaseReset_held (s : State) {ir : BitVec 5} (g : BitVec 32) (h : tapHolds ir = true) :
    releaseReset s ir g = { s with tap := { s.tap with ir := ir }, start := { s.start with phase := .tapHeld } } := by
  simp only [releaseReset, h, if_true]

/-- Under every other instruction the start begins. -/
theorem releaseReset_begins (s : State) {ir : BitVec 5} (g : BitVec 32) (h : tapHolds ir = false) :
    releaseReset s ir g = beginStart { s with tap := { s.tap with ir := ir } } g := by
  simp only [releaseReset, h, Bool.false_eq_true, if_false]

/-- The end of a reset leaves the TAP its instruction. -/
theorem releaseReset_tap (s : State) (ir : BitVec 5) (g : BitVec 32) : (releaseReset s ir g).tap = { s.tap with ir := ir } := by
  unfold releaseReset
  dsimp only
  split <;> rfl

/-! ### ResetEndSamplesStraps (R41, R43, R44, R49, R62, R76, R95) -/

/-- The rails are good once they have been for 1 ms, all of it since the last power-on (R49). -/
theorem railsGood_iff (s : State) (rails : Nat) : railsGood s rails = true ↔ msC 1 ≤ rails ∧ s.start.railsAt + rails ≤ s.now := by
  simp [railsGood, due]

/-- RESET_RELEASE of a held device with good rails ends its reset. -/
theorem exec_resetRelease {dt rails : Nat} (ir : BitVec 5) (cells : BitVec 159) (g : BitVec 32) {s : State}
    (hheld : s.start.phase = .held) (hrails : msC 1 ≤ rails) (hsince : s.start.railsAt + rails ≤ s.now + dt) :
    exec (.resetRelease dt ir cells g rails) s =
      .next (releaseReset { advance dt s with tap := { s.tap with cells := cells } } ir g) := by
  have hgood : railsGood (advance dt s) rails = true := (railsGood_iff _ _).mpr ⟨hrails, hsince⟩
  show execResetRelease dt ir cells g rails s = _
  simp only [execResetRelease, always, advance_start, hheld, hgood, and_self, if_true, advance_tap]

/-- RESET_RELEASE in any other phase, or before the rails are good, only lets time pass. -/
theorem exec_resetRelease_idle {dt rails : Nat} (ir : BitVec 5) (cells : BitVec 159) (g : BitVec 32) {s : State}
    (h : s.start.phase ≠ .held ∨ rails < msC 1 ∨ s.now + dt < s.start.railsAt + rails) :
    exec (.resetRelease dt ir cells g rails) s = .next (advance dt s) := by
  have hnot : ¬ (s.start.phase = .held ∧ railsGood (advance dt s) rails = true) := by
    rintro ⟨hheld, hgood⟩
    obtain ⟨hrails, hsince⟩ := (railsGood_iff _ _).mp hgood
    rw [advance_start, advance_now] at hsince
    rcases h with hphase | hshort | hearly
    · exact hphase hheld
    · exact absurd hrails (Nat.not_le.mpr hshort)
    · exact absurd hsince (Nat.not_le.mpr hearly)
  show execResetRelease dt ir cells g rails s = _
  simp only [execResetRelease, always, advance_start, hnot, if_false]

/-- TAP_RESET_HOLD_RELEASE of a device that the TAP holds begins its start. -/
theorem exec_tapResetHoldRelease {s : State} (dt : Nat) {ir : BitVec 5} (g : BitVec 32) (hheld : s.start.phase = .tapHeld)
    (hir : tapReleases s ir = true) :
    exec (.tapResetHoldRelease dt ir g) s = .next (beginStart { advance dt s with tap := { s.tap with ir := ir } } g) := by
  have hir' : tapReleases (advance dt s) ir = true := hir
  show execTapResetHoldRelease dt ir g s = _
  simp only [execTapResetHoldRelease, always, advance_start, hheld, hir', and_self, if_true, advance_tap]

/-- The state in which a thermal trip ends: the readings taken, and the peak noted in whole °C (R95). -/
def tripOver (s : State) (t0 t1 t2 t3 : BitVec 12) : State :=
  let u := trackHot (setTemps s t0 t1 t2 t3)
  { u with start := { u.start with phase := .held, kindDetail := BitVec.ofInt 12 (u.temp.peak.toInt / 16) } }

theorem hotter_toInt_lt {a b : BitVec 12 × Nat} {x : Int} (ha : a.1.toInt < x) (hb : b.1.toInt < x) : (hotter a b).1.toInt < x := by
  unfold hotter
  split
  · exact hb
  · exact ha

/-- The maximum lies below a bound that every reading lies below. -/
theorem tempMax_lt {s : State} {x : Int} (h0 : s.temp.t0.toInt < x) (h1 : s.temp.t1.toInt < x) (h2 : s.temp.t2.toInt < x)
    (h3 : s.temp.t3.toInt < x) : (tempMax s).1.toInt < x :=
  hotter_toInt_lt (hotter_toInt_lt (hotter_toInt_lt h0 h1) h2) h3

/-- THERMAL_TRIP_RELEASE once every reading lies below 100 °C ends the trip. -/
theorem exec_thermalTripRelease {s : State} (dt : Nat) {t0 t1 t2 t3 : BitVec 12} (g : BitVec 32) (htrip : s.start.phase = .tripped)
    (h0 : t0.toInt < 1600) (h1 : t1.toInt < 1600) (h2 : t2.toInt < 1600) (h3 : t3.toInt < 1600) :
    exec (.thermalTripRelease dt t0 t1 t2 t3 g) s = .next (releaseReset (tripOver (advance dt s) t0 t1 t2 t3) s.tap.ir g) := by
  have hphase : (trackHot (setTemps (advance dt s) t0 t1 t2 t3)).start.phase = .tripped := htrip
  have hcool : (tempMax (trackHot (setTemps (advance dt s) t0 t1 t2 t3))).1.toInt < 1600 := tempMax_lt h0 h1 h2 h3
  show execThermalTripRelease dt t0 t1 t2 t3 g s = _
  simp only [execThermalTripRelease, always, hphase, hcool, and_self, if_true]
  rfl

/-- Settles O6: each release ends the reset where its condition holds, and the end begins the start unless the TAP holds the pins. -/
theorem resetEndSamplesStraps : Obligations.ResetEndSamplesStraps := by
  refine ⟨fun dt rails ir cells g s hheld hrails hsince => ⟨_, exec_resetRelease ir cells g hheld hrails hsince, ?_, ?_,
      fun hhold => ?_, fun hfree => ?_⟩,
    fun dt rails ir cells g s h => exec_resetRelease_idle ir cells g h,
    fun dt ir g s hheld hir => ⟨_, exec_tapResetHoldRelease dt g hheld hir, beginStart_sampled _ g⟩,
    fun dt t0 t1 t2 t3 g s htrip hfree h0 h1 h2 h3 => ⟨_, exec_thermalTripRelease dt g htrip h0 h1 h2 h3, ?_⟩⟩
  · rw [releaseReset_tap]
  · rw [releaseReset_tap]
  · rw [releaseReset_held _ g hhold]
    exact ⟨rfl, rfl⟩
  · rw [releaseReset_begins _ g hfree]
    obtain ⟨hphase, hstage, hstraps⟩ := beginStart_sampled
      { advance dt s with tap := { s.tap with cells := cells, ir := ir } } g
    exact ⟨hphase, hstage, hstraps, rfl, beginStart_pcieIdle _ g⟩
  · rw [releaseReset_begins _ g hfree]
    exact ⟨rfl, rfl, rfl, rfl, rfl, rfl, rfl⟩

end Sys2Proof.Machine
end

section
/-!
SUPPORT. The statements of the pins chapter. This part: temperature readings, watchdog kicks, heartbeats and the TAP's reset (R62, R74,
R78, R210).
-/

namespace Sys2Proof.Machine

/-! ### Temperature readings (R62) -/

/-- The readings of the four sensors taken, and the run of hot ones tracked. -/
def takeReadings (s : State) (t0 t1 t2 t3 : BitVec 12) : State := trackHot (setTemps s t0 t1 t2 t3)

/-- The check of the warning threshold leaves the readings as they are. -/
theorem checkWarn_temp (s : State) : ∃ b, (checkWarn s).temp = { s.temp with armed := b } := by
  unfold checkWarn
  dsimp only
  split
  · exact ⟨_, raiseEv_temp _ _ _ _⟩
  · split <;> exact ⟨_, rfl⟩

/-- At the threshold EV_TEMP_HIGH is raised and may not be raised again. -/
theorem checkWarn_disarms {s : State} (harmed : s.temp.armed = true) (hhigh : 16 * (par s 0x0C00 : Int) ≤ (tempMax s).1.toInt) :
    (checkWarn s).temp.armed = false := by
  have hwarn : tempHigh s = true := decide_eq_true hhigh
  simp only [checkWarn, hwarn, harmed, Bool.and_self, if_true, raiseEv_temp]

/-- 5 °C below the threshold it may be raised again. -/
theorem checkWarn_rearms {s : State} (hlow : (tempMax s).1.toInt ≤ 16 * ((par s 0x0C00 : Int) - 5)) :
    (checkWarn s).temp.armed = true := by
  have hcool : tempHigh s = false := decide_eq_false (by omega)
  simp only [checkWarn, hcool, Bool.false_and, Bool.false_eq_true, if_false, hlow, if_true]

/-- The maximum is that of the readings, whether or not the event may be raised. -/
theorem tempMax_congr {s t : State} {b : Bool} (h : t.temp = { s.temp with armed := b }) : tempMax t = tempMax s := by
  simp only [tempMax, h]

/-- TEMP_SENSOR_READING checks the threshold where commands are served. -/
theorem exec_tempSensorReading_serving {s : State} (dt : Nat) (t0 t1 t2 t3 : BitVec 12) (h : serving s = true) :
    exec (.tempSensorReading dt t0 t1 t2 t3) s = .next (checkWarn (takeReadings (advance dt s) t0 t1 t2 t3)) := by
  have h' : serving (trackHot (setTemps (advance dt s) t0 t1 t2 t3)) = true := h
  show execTempSensorReading dt t0 t1 t2 t3 s = _
  simp only [execTempSensorReading, always, h', if_true, takeReadings]

/-- TEMP_SENSOR_READING takes the readings alone where none are served. -/
theorem exec_tempSensorReading_idle {s : State} (dt : Nat) (t0 t1 t2 t3 : BitVec 12) (h : serving s = false) :
    exec (.tempSensorReading dt t0 t1 t2 t3) s = .next (takeReadings (advance dt s) t0 t1 t2 t3) := by
  have h' : serving (trackHot (setTemps (advance dt s) t0 t1 t2 t3)) = false := h
  show execTempSensorReading dt t0 t1 t2 t3 s = _
  simp only [execTempSensorReading, always, h', Bool.false_eq_true, if_false, takeReadings]

/-- What TEMP_SENSOR_READING leaves where commands are served: the readings, and the arming as their maximum asks. -/
theorem checkWarn_takeReadings (s : State) (t0 t1 t2 t3 : BitVec 12) : let t := checkWarn (takeReadings s t0 t1 t2 t3)
    t.temp.t0 = t0 ∧ t.temp.t1 = t1 ∧ t.temp.t2 = t2 ∧ t.temp.t3 = t3 ∧
      (s.temp.armed = true → 16 * (par s 0x0C00 : Int) ≤ (tempMax t).1.toInt → t.temp.armed = false) ∧
      ((tempMax t).1.toInt ≤ 16 * ((par s 0x0C00 : Int) - 5) → t.temp.armed = true) := by
  obtain ⟨b, hb⟩ := checkWarn_temp (takeReadings s t0 t1 t2 t3)
  dsimp only
  rw [tempMax_congr hb]
  exact ⟨by rw [hb]; rfl, by rw [hb]; rfl, by rw [hb]; rfl, by rw [hb]; rfl, fun harmed hhigh => checkWarn_disarms harmed hhigh,
    fun hlow => checkWarn_rearms hlow⟩

/-! ### Watchdog kicks and heartbeats (R78, R210) -/

/-- What a core's kick leaves of the watchdog: with the other core's it restarts the count, before it it is noted. -/
def kickedWatchdog (s : State) (core : Fin 2) : Watchdog :=
  if (s.wd.kick0 || core == 0) && (s.wd.kick1 || core == 1) then { s.wd with since := s.now, kick0 := false, kick1 := false }
  else { s.wd with kick0 := s.wd.kick0 || core == 0, kick1 := s.wd.kick1 || core == 1 }

/-- WDT_KICK of a running core under an armed watchdog while every heartbeat is fresh. -/
theorem exec_wdtKick {dt : Nat} {core : Fin 2} {s : State} (harmed : s.wd.armed = true) (hrun : engineRuns s core.val = true)
    (hfresh : heartbeatsFresh (advance dt s) = true) :
    exec (.wdtKick dt core) s = .next { advance dt s with wd := kickedWatchdog (advance dt s) core } := by
  show execWdtKick dt core s = _
  simp only [execWdtKick, always, advance_wd, harmed, engineRuns_advance, hrun, hfresh, Bool.and_self, if_true, kickedWatchdog]
  split <;> rfl

/-- The first core's kick is noted. -/
theorem kickedWatchdog_first {s : State} {core : Fin 2} (h0 : core = 0 → s.wd.kick1 = false) (h1 : core = 1 → s.wd.kick0 = false) :
    (kickedWatchdog s core).since = s.wd.since ∧ (core = 0 → (kickedWatchdog s core).kick0 = true) ∧
      (core = 1 → (kickedWatchdog s core).kick1 = true) := by
  obtain rfl | rfl : core = 0 ∨ core = 1 := by omega
  · simp [kickedWatchdog, h0 rfl]
  · simp [kickedWatchdog, h1 rfl]

/-- The second core's kick restarts the count. -/
theorem kickedWatchdog_second {s : State} {core : Fin 2}
    (h : (core = 0 ∧ s.wd.kick1 = true) ∨ (core = 1 ∧ s.wd.kick0 = true)) :
    (kickedWatchdog s core).since = s.now ∧ (kickedWatchdog s core).kick0 = false ∧ (kickedWatchdog s core).kick1 = false := by
  rcases h with ⟨rfl, hother⟩ | ⟨rfl, hother⟩ <;> simp [kickedWatchdog, hother]

/-- ENGINE_HEARTBEAT of a running engine advances its heartbeat. -/
theorem exec_engineHeartbeat {dt : Nat} {e : Fin 26} {s : State} (hrun : running s = true) (heng : engineRuns s e.val = true) :
    exec (.engineHeartbeat dt e) s = .next { advance dt s with
      engines := tblPut s.engines e.val { engine s e.val with heartbeat := (engine s e.val).heartbeat + 1, beatAt := s.now + dt } } := by
  show execEngineHeartbeat dt e s = _
  rw [execEngineHeartbeat, live_ready dt s _ hrun]
  simp only [engineRuns_advance, heng, if_true]
  rfl

/-! ### TemperatureAndEngines (R62, R74, R78, R210) -/

/-- Settles O9: each row by what it comes to where its trigger holds; the readings are checked where commands are served. -/
theorem temperatureAndEngines : Obligations.TemperatureAndEngines := by
  refine ⟨fun dt t0 t1 t2 t3 s => ?_, fun dt core s harmed hrun hfresh => ?_, fun dt e s hrun heng => ?_, fun _ _ => rfl⟩
  · cases hs : serving s with
    | true =>
      obtain ⟨h0, h1, h2, h3, hdis, hre⟩ := checkWarn_takeReadings (advance dt s) t0 t1 t2 t3
      exact ⟨_, exec_tempSensorReading_serving dt t0 t1 t2 t3 hs, h0, h1, h2, h3, fun _ => hdis, fun _ => hre⟩
    | false =>
      exact ⟨_, exec_tempSensorReading_idle dt t0 t1 t2 t3 hs, rfl, rfl, rfl, rfl, fun h => (Bool.false_ne_true h).elim,
        fun h => (Bool.false_ne_true h).elim⟩
  · exact ⟨_, exec_wdtKick harmed hrun hfresh, kickedWatchdog_first (s := advance dt s), kickedWatchdog_second (s := advance dt s)⟩
  · exact ⟨_, exec_engineHeartbeat hrun heng, by simp [engine], by simp [engine]⟩

end Sys2Proof.Machine
end

section
/-!
SUPPORT. The statements of the pins chapter. This part: the ENG_DEBUG operations of the TAP (R20, R45, R90, R167, R168, R170).
-/

namespace Sys2Proof.Machine

/-! ### An operation and its result -/

@[simp] theorem debugOpen_advance (dt : Nat) (s : State) : debugOpen (advance dt s) = debugOpen s := rfl

/-- What an operation leaves at the next Capture-DR, given the state and the data that its site answers (R45). -/
def debugResult (op : Nat) (site : BitVec 5) (addr : BitVec 14) (data : Option Word) (r : State × Option Word) : State :=
  { r.1 with tap := { r.1.tap with ir := 0x10, data := r.2.getD (data.getD r.1.tap.data), addr := addr, site := site,
                                   op := BitVec.ofNat 3 op, done := true, halted := tblAt r.1.halted site.toNat false } }

/-- An operation on one of the sites while ENG_DEBUG is offered. -/
theorem engDebug_open {dt op : Nat} {site : BitVec 5} {addr : BitVec 14} {data : Option Word} {s : State}
    {f : State → State × Option Word} (hopen : debugOpen s = true) (hsite : site.toNat ≤ 28) :
    engDebug dt op site addr data s f = .next (debugResult op site addr data (f (advance dt s))) := by
  simp only [engDebug, always, debugOpen_advance, hopen, hsite, if_true, debugResult]
  generalize f (advance dt s) = r
  obtain ⟨u, _ | d⟩ := r <;> rfl

/-- An operation while ENG_DEBUG is not offered only lets time pass. -/
theorem engDebug_closed {dt op : Nat} {site : BitVec 5} {addr : BitVec 14} {data : Option Word} {s : State}
    {f : State → State × Option Word} (hclosed : debugOpen s = false) :
    engDebug dt op site addr data s f = .next (advance dt s) := by
  simp only [engDebug, always, debugOpen_advance, hclosed, Bool.false_eq_true, if_false]

/-- What holds whatever the TAP's registers are, and of the site's answer as of the state before, holds after an operation. -/
theorem engDebug_next {P : State → Prop} {dt op : Nat} {site : BitVec 5} {addr : BitVec 14} {data : Option Word} {s t : State}
    {f : State → State × Option Word} (h : engDebug dt op site addr data s f = .next t) (htap : ∀ u x, P u → P { u with tap := x })
    (hbefore : P (advance dt s)) (hsite : site.toNat ≤ 28 → P (f (advance dt s)).1) : P t := by
  cases hopen : debugOpen s with
  | false =>
    rw [engDebug_closed hopen] at h
    cases h
    exact hbefore
  | true =>
    simp only [engDebug, always, debugOpen_advance, hopen, if_true] at h
    cases h
    refine htap _ _ ?_
    split
    · next hle => exact hsite hle
    · exact hbefore

/-! ### Words of local memory (R20, R167, R168, R170) -/

/-- A local address lies in its site's memory. -/
theorem regionOf_localAddr {n a : Nat} (hn : n ≤ 28) (ha : a < 16384) : regionOf (localAddr n a) = .engine n := by
  have hsite : (localAddr n a - 0x400000) / 0x4000 = n := by
    unfold localAddr
    omega
  have hlow : 0x400000 ≤ localAddr n a ∧ localAddr n a < 0x474000 := by
    unfold localAddr
    omega
  obtain ⟨hge, hlt⟩ := hlow
  unfold regionOf
  iterate 7 rw [if_neg (by omega)]
  rw [if_pos hlt, hsite]

/-- The device keeps no word of local memory for itself while no engine has run (log 46). -/
theorem deviceWord_localAddr {s : State} {n a : Nat} (free : Word) (hn : n ≤ 28) (ha : a < 16384) (heng : s.engines = []) :
    deviceWord s (localAddr n a) free = none := by
  have hge : 0x400000 ≤ localAddr n a := by
    unfold localAddr
    omega
  have hclosed : openWord s (localAddr n a) = false := by
    have h1 : ¬ localAddr n a < 0x1000 := by omega
    have h2 : ¬ localAddr n a < 0x48408 := by omega
    have h3 : ¬ localAddr n a < 0x70000 := by omega
    have h4 : ¬ localAddr n a < 0xC8000 := by omega
    simp [openWord, heng, h1, h2, h3, h4]
  simp [deviceWord, regionOf_localAddr hn ha, hclosed]

/-- A block's own read poisons and counts an uncorrectable word, or touches the counts alone (R167, R170). -/
theorem touchBlock_cases (s : State) (a : Nat) : (∃ c, touchBlock s a = { s with counters := c }) ∨
    (decodePhys (memRaw s.mem a) = .bad ∧ touchBlock s a = bump (poisonWord s a) 0x108) := by
  unfold touchBlock
  generalize regionOf a = r
  generalize decodePhys (memRaw s.mem a) = d
  cases r with
  | reserved => exact .inl ⟨_, rfl⟩
  | _ =>
    cases d with
    | bad => exact .inr ⟨rfl, rfl⟩
    | _ => exact .inl ⟨_, rfl⟩

/-- The port's read of a word that is readable captures its data, corrected where need be (R167). -/
theorem debugRead_readable {s : State} {a : Nat} {v : Word}
    (h : decodePhys (memRaw s.mem a) = .clean v ∨ decodePhys (memRaw s.mem a) = .corrected v) : (debugRead s a).2 = some v := by
  rcases h with h | h <;> simp only [debugRead, h]

/-- Its read of a word not valid that the device does not keep for itself captures zero (R168). -/
theorem debugRead_invalid {s : State} {a : Nat} (h : decodePhys (memRaw s.mem a) = .invalid) (hdev : ∀ w, deviceWord s a w = none) :
    debugRead s a = (s, some 0) := by
  simp only [debugRead, h, hdev]

/-! ### What an operation may touch -/

/-- Between two states nothing changes but what ENG_DEBUG may touch, and no word outside the given addresses. -/
def DebugKeeps (except : Nat → Prop) (s t : State) : Prop :=
  t = { s with tap := t.tap, halted := t.halted, engRegs := t.engRegs, engEpoch := t.engEpoch, mem := t.mem, freeCtr := t.freeCtr,
               counters := t.counters } ∧ MemSame s t except

theorem DebugKeeps.refl (except : Nat → Prop) (s : State) : DebugKeeps except s s := ⟨rfl, fun _ _ => rfl⟩

theorem DebugKeeps.setTap {except : Nat → Prop} {s t : State} (x : Tap) (h : DebugKeeps except s t) :
    DebugKeeps except s { t with tap := x } := by
  obtain ⟨hframe, hmem⟩ := h
  exact ⟨by rw [hframe], hmem⟩

/-- A run or step of an engine makes its registers new and touches no word. -/
theorem debugKeeps_engineRan (except : Nat → Prop) (s : State) (n : Nat) : DebugKeeps except s (engineRan s n) :=
  ⟨rfl, fun _ _ => rfl⟩

/-- A block's own read touches at most the uncorrectable word that it reads (R170). -/
theorem debugKeeps_touchBlock {except : Nat → Prop} (s : State) {a : Nat} (hbad : decodePhys (memRaw s.mem a) = .bad → except a) :
    DebugKeeps except s (touchBlock s a) := by
  rcases touchBlock_cases s a with ⟨c, h⟩ | ⟨h, hpoison⟩
  · rw [h]
    exact ⟨rfl, fun _ _ => rfl⟩
  · rw [hpoison]
    exact ⟨rfl, fun b hb => memRaw_poisonWord_other s a b fun he => hb (he ▸ hbad h)⟩

/-- Likewise the port's read, which may also draw a free value. -/
theorem debugKeeps_debugRead {except : Nat → Prop} (s : State) {a : Nat} (hbad : decodePhys (memRaw s.mem a) = .bad → except a) :
    DebugKeeps except s (debugRead s a).1 := by
  have hfree : DebugKeeps except s (touchBlock (drawFree s).1 a) := by
    obtain ⟨hframe, hmem⟩ := debugKeeps_touchBlock (drawFree s).1 hbad
    exact ⟨by rw [hframe]; rfl, hmem⟩
  unfold debugRead
  cases decodePhys (memRaw s.mem a) with
  | clean d => exact DebugKeeps.refl _ s
  | corrected d => exact debugKeeps_touchBlock s hbad
  | invalid =>
    cases deviceWord s a (drawFree s).2 with
    | some w => exact ⟨rfl, fun _ _ => rfl⟩
    | none => exact DebugKeeps.refl _ s
  | poisoned => exact hfree
  | bad => exact hfree

/-- A write of a word touches that word. -/
theorem debugKeeps_writeWord {except : Nat → Prop} (s : State) {a : Nat} (d : Word) (h : except a) :
    DebugKeeps except s (writeWord s a d) := by
  refine ⟨?_, fun b hb => memRaw_writeWord_other s a b d fun he => hb (he ▸ h)⟩
  rw [writeWord_eq s a d]

/-! ### The answers of a site (R45) -/

/-- A single step: a halted site executes one instruction. -/
def siteStep (s : State) (n : Nat) : State := if tblAt s.halted n false then engineRan s n else s

/-- A register read: of a halted site what was written since it last ran, otherwise a free value (log 9). -/
def siteRegRead (s : State) (n reg : Nat) : State × Option Word :=
  if tblAt s.halted n false then
    (s, some ((tblGet s.engRegs (16384 * n + reg)).getD (Config.engineRegister n (tblAt s.engEpoch n 0) reg)))
  else ((drawFree s).1, some (drawFree s).2)

/-- A register write: a halted site keeps the value. -/
def siteRegWrite (s : State) (n reg : Nat) (data : Word) : State :=
  if tblAt s.halted n false then { s with engRegs := tblPut s.engRegs (16384 * n + reg) data } else engineRan s n

theorem siteStep_halted {s : State} {n : Nat} (h : tblAt s.halted n false = true) : siteStep s n = engineRan s n := if_pos h

theorem siteRegRead_halted {s : State} {n reg : Nat} {v : Word} (h : tblAt s.halted n false = true)
    (hv : tblGet s.engRegs (16384 * n + reg) = some v) : siteRegRead s n reg = (s, some v) := by
  rw [siteRegRead, if_pos h, hv, Option.getD_some]

theorem siteRegWrite_halted {s : State} {n : Nat} (reg : Nat) (data : Word) (h : tblAt s.halted n false = true) :
    siteRegWrite s n reg data = { s with engRegs := tblPut s.engRegs (16384 * n + reg) data } := if_pos h

/-- What a run or step leaves of the site's own record: it is one higher. -/
theorem engineRan_engEpoch (s : State) (n : Nat) : tblAt (engineRan s n).engEpoch n 0 = tblAt s.engEpoch n 0 + 1 :=
  tblAt_tblPut_self _ _ _ _

/-- A resumed site is not halted. -/
theorem tblAt_tblErase_self {α : Type} {m : SMap α} (n : Nat) (d : α) (h : keysRise 0 m = true) : tblAt (tblErase m n) n d = d := by
  rw [tblAt, tblGet_tblErase_self m 0 n h, Option.getD_none]

theorem debugKeeps_siteStep (except : Nat → Prop) (s : State) (n : Nat) : DebugKeeps except s (siteStep s n) := by
  unfold siteStep
  split
  · exact debugKeeps_engineRan except s n
  · exact DebugKeeps.refl except s

theorem debugKeeps_siteRegRead (except : Nat → Prop) (s : State) (n reg : Nat) : DebugKeeps except s (siteRegRead s n reg).1 := by
  unfold siteRegRead
  split
  · exact DebugKeeps.refl except s
  · exact ⟨rfl, fun _ _ => rfl⟩

theorem debugKeeps_siteRegWrite (except : Nat → Prop) (s : State) (n reg : Nat) (data : Word) :
    DebugKeeps except s (siteRegWrite s n reg data) := by
  unfold siteRegWrite
  split
  · exact ⟨rfl, fun _ _ => rfl⟩
  · exact debugKeeps_engineRan except s n

/-! The operations on a word or a register leave every site's halt as it was. -/

theorem debugRead_keepsHalt (s : State) (a : Nat) : (debugRead s a).1.halted = s.halted := by
  have htouch : ∀ u : State, (touchBlock u a).halted = u.halted := fun u => by
    rcases touchBlock_cases u a with ⟨c, h⟩ | ⟨-, h⟩
    · rw [h]
    · rw [h]
      rfl
  unfold debugRead
  cases decodePhys (memRaw s.mem a) with
  | clean d => rfl
  | corrected d => exact htouch s
  | invalid => cases deviceWord s a (drawFree s).2 <;> rfl
  | poisoned => exact htouch _
  | bad => exact htouch _

theorem writeWord_keepsHalt (s : State) (a : Nat) (d : Word) : (writeWord s a d).halted = s.halted := by
  rw [writeWord_eq]

theorem siteRegRead_keepsHalt (s : State) (n reg : Nat) : (siteRegRead s n reg).1.halted = s.halted := by
  unfold siteRegRead
  split <;> rfl

theorem siteRegWrite_keepsHalt (s : State) (n reg : Nat) (data : Word) : (siteRegWrite s n reg data).halted = s.halted := by
  unfold siteRegWrite
  split <;> rfl

/-! ### The eight rows -/

/-- The rows of ENG_DEBUG on a site, and a word or register of it. -/
def debugRows (dt : Nat) (n : BitVec 5) (a : BitVec 14) (d : Word) : List Instr :=
  [.engDebugStatus dt n, .engDebugHalt dt n, .engDebugResume dt n, .engDebugSingleStep dt n, .engDebugReadLocal dt n a,
    .engDebugWriteLocal dt n a d, .engDebugReadRegister dt n a, .engDebugWriteRegister dt n a d]

/-- The word that a row may change: the one written, or an uncorrectable one read (R170). -/
def debugTouches (dt : Nat) (n : BitVec 5) (a : BitVec 14) (d : Word) (c : Instr) (s : State) (x : Nat) : Prop :=
  x = localAddr n.toNat a.toNat ∧
    (c = .engDebugWriteLocal dt n a d ∨ (c = .engDebugReadLocal dt n a ∧ decodePhys (memRaw s.mem x) = .bad))

/-- Each row is an operation whose site answers by touching no more than ENG_DEBUG may. -/
theorem exec_debugRows {dt : Nat} {n : BitVec 5} {a : BitVec 14} {d : Word} {c : Instr} (hc : c ∈ debugRows dt n a d) :
    ∃ op addr data f, (∀ s, exec c s = engDebug dt op n addr data s f) ∧
      ∀ s, DebugKeeps (debugTouches dt n a d c s) s (f s).1 := by
  simp only [debugRows, List.mem_cons, List.not_mem_nil, or_false] at hc
  rcases hc with rfl | rfl | rfl | rfl | rfl | rfl | rfl | rfl
  · exact ⟨0, 0, none, fun u => (u, none), fun _ => rfl, fun s => DebugKeeps.refl _ s⟩
  · exact ⟨1, 0, none, fun u => ({ u with halted := tblPut u.halted n.toNat true }, none), fun _ => rfl,
      fun _ => ⟨rfl, fun _ _ => rfl⟩⟩
  · exact ⟨2, 0, none, fun u => (engineRan { u with halted := tblErase u.halted n.toNat } n.toNat, none), fun _ => rfl,
      fun _ => ⟨rfl, fun _ _ => rfl⟩⟩
  · exact ⟨3, 0, none, fun u => (siteStep u n.toNat, none), fun _ => rfl, fun s => debugKeeps_siteStep _ s n.toNat⟩
  · exact ⟨4, a, none, fun u => debugRead u (localAddr n.toNat a.toNat), fun _ => rfl,
      fun s => debugKeeps_debugRead s fun hbad => ⟨rfl, .inr ⟨rfl, hbad⟩⟩⟩
  · exact ⟨5, a, some d, fun u => (writeWord u (localAddr n.toNat a.toNat) d, none), fun _ => rfl,
      fun s => debugKeeps_writeWord s d ⟨rfl, .inl rfl⟩⟩
  · exact ⟨6, a, none, fun u => siteRegRead u n.toNat a.toNat, fun _ => rfl,
      fun s => debugKeeps_siteRegRead _ s n.toNat a.toNat⟩
  · exact ⟨7, a, some d, fun u => (siteRegWrite u n.toNat a.toNat d, none), fun _ => rfl,
      fun s => debugKeeps_siteRegWrite _ s n.toNat a.toNat d⟩

section
variable {dt : Nat} {n : BitVec 5} {s : State} (hopen : debugOpen s = true) (hn : n.toNat ≤ 28)
include hopen hn

theorem exec_engDebugStatus : exec (.engDebugStatus dt n) s = .next (debugResult 0 n 0 none (advance dt s, none)) :=
  show execEngDebugStatus dt n s = _ from engDebug_open hopen hn

theorem exec_engDebugHalt : exec (.engDebugHalt dt n) s =
    .next (debugResult 1 n 0 none ({ advance dt s with halted := tblPut s.halted n.toNat true }, none)) :=
  show execEngDebugHalt dt n s = _ from engDebug_open hopen hn

theorem exec_engDebugResume : exec (.engDebugResume dt n) s =
    .next (debugResult 2 n 0 none (engineRan { advance dt s with halted := tblErase s.halted n.toNat } n.toNat, none)) :=
  show execEngDebugResume dt n s = _ from engDebug_open hopen hn

theorem exec_engDebugSingleStep : exec (.engDebugSingleStep dt n) s =
    .next (debugResult 3 n 0 none (siteStep (advance dt s) n.toNat, none)) :=
  show execEngDebugSingleStep dt n s = _ from engDebug_open hopen hn

theorem exec_engDebugReadLocal (a : BitVec 14) : exec (.engDebugReadLocal dt n a) s =
    .next (debugResult 4 n a none (debugRead (advance dt s) (localAddr n.toNat a.toNat))) :=
  show execEngDebugReadLocal dt n a s = _ from engDebug_open hopen hn

theorem exec_engDebugWriteLocal (a : BitVec 14) (d : Word) : exec (.engDebugWriteLocal dt n a d) s =
    .next (debugResult 5 n a (some d) (writeWord (advance dt s) (localAddr n.toNat a.toNat) d, none)) :=
  show execEngDebugWriteLocal dt n a d s = _ from engDebug_open hopen hn

theorem exec_engDebugReadRegister (a : BitVec 14) : exec (.engDebugReadRegister dt n a) s =
    .next (debugResult 6 n a none (siteRegRead (advance dt s) n.toNat a.toNat)) :=
  show execEngDebugReadRegister dt n a s = _ from engDebug_open hopen hn

theorem exec_engDebugWriteRegister (a : BitVec 14) (d : Word) : exec (.engDebugWriteRegister dt n a d) s =
    .next (debugResult 7 n a (some d) (siteRegWrite (advance dt s) n.toNat a.toNat d, none)) :=
  show execEngDebugWriteRegister dt n a d s = _ from engDebug_open hopen hn

end

/-! ### DebugPortReachesSites (R20, R45, R167, R168, R170) -/

/-- What the data register shows of an operation on a word or register whose site keeps its halt. -/
theorem debugResult_names (op : Nat) (n : BitVec 5) (a : BitVec 14) (data : Option Word) {s : State} {r : State × Option Word}
    (h : r.1.halted = s.halted) : let t := debugResult op n a data r
    t.tap.site = n ∧ t.tap.addr = a ∧ t.tap.op = BitVec.ofNat 3 op ∧ t.tap.done = true ∧
      t.tap.halted = tblAt s.halted n.toNat false :=
  ⟨rfl, rfl, rfl, rfl, by rw [← h]; rfl⟩

/-- The data captured is what the site answers. -/
theorem debugResult_data {op : Nat} {n : BitVec 5} {a : BitVec 14} {data : Option Word} {r : State × Option Word} {v : Word}
    (h : r.2 = some v) : (debugResult op n a data r).tap.data = v := by
  show r.2.getD _ = v
  rw [h, Option.getD_some]

/-- Settles O10: each operation by its site's answer, and the rest by what all answers may touch. -/
theorem debugPortReachesSites : Obligations.DebugPortReachesSites := by
  refine ⟨fun dt n s hopen hn => ⟨?_, ?_, fun hrise => ?_, fun hhalted => ?_⟩,
    fun dt n a d s hopen hn => ⟨?_, ?_, ?_, ?_⟩, fun dt n a d s t c hc hnext => ?_⟩
  · exact ⟨_, exec_engDebugStatus hopen hn, rfl, rfl, rfl, rfl⟩
  · exact ⟨_, exec_engDebugHalt hopen hn, rfl, rfl, rfl, tblAt_tblPut_self _ _ _ _, tblAt_tblPut_self _ _ _ _⟩
  · exact ⟨_, exec_engDebugResume hopen hn, rfl, rfl, rfl, tblAt_tblErase_self _ _ hrise, tblAt_tblErase_self _ _ hrise⟩
  · refine ⟨_, exec_engDebugSingleStep hopen hn, rfl, rfl, rfl, ?_⟩
    rw [siteStep_halted (s := advance dt s) hhalted]
    exact ⟨hhalted, engineRan_engEpoch (advance dt s) n.toNat⟩
  · refine ⟨_, exec_engDebugReadLocal hopen hn a, debugResult_names 4 n a none (debugRead_keepsHalt _ _),
      fun v hv => debugResult_data (debugRead_readable hv), fun hinv heng => debugResult_data ?_⟩
    rw [debugRead_invalid (s := advance dt s) hinv fun w => deviceWord_localAddr w hn a.isLt heng]
  · exact ⟨_, exec_engDebugWriteLocal hopen hn a d, debugResult_names 5 n a (some d) (writeWord_keepsHalt _ _ _), rfl,
      memRaw_writeWord_self _ _ d (by simp [regionOf_localAddr hn a.isLt])⟩
  · exact ⟨_, exec_engDebugReadRegister hopen hn a, debugResult_names 6 n a none (siteRegRead_keepsHalt _ _ _),
      fun hhalted v hv => debugResult_data (by rw [siteRegRead_halted (s := advance dt s) hhalted hv])⟩
  · refine ⟨_, exec_engDebugWriteRegister hopen hn a d, debugResult_names 7 n a (some d) (siteRegWrite_keepsHalt _ _ _ _), rfl,
      fun hhalted => ?_⟩
    rw [siteRegWrite_halted (s := advance dt s) a.toNat d hhalted]
    exact tblGet_tblPut_self _ _ _
  · obtain ⟨op, addr, data, f, hexec, hkeeps⟩ := exec_debugRows hc
    rw [hexec] at hnext
    exact engDebug_next (P := DebugKeeps (debugTouches dt n a d c s) (advance dt s)) hnext (fun _ x h => h.setTap x)
      (DebugKeeps.refl _ _) fun _ => hkeeps (advance dt s)

/-- Settles O11: a port that is not offered answers no operation. -/
theorem debugLockClosesPort : Obligations.DebugLockClosesPort := by
  intro dt n a d s c hlock hc
  have hclosed : debugOpen s = false := by simp [debugOpen, hlock]
  obtain ⟨op, addr, data, f, hexec, -⟩ := exec_debugRows hc
  rw [hexec, engDebug_closed hclosed]

end Sys2Proof.Machine
end
